-- ==== Sys2Proof/Word.lean ====
section
/-! DEFINITION. Word sizes of Table 0-4, little-endian byte lists (R9) and the sparse maps the state is built from. -/
namespace Sys2Proof

/-- byte, 8 bits (Table 0-4). -/
abbrev Byte := BitVec 8
/-- word, 32 bits (Table 0-4). -/
abbrev Word := BitVec 32
/-- double, 64 bits (Table 0-4). -/
abbrev Dbl := BitVec 64

/-- Sparse map from numbers, keys strictly rising, no entry equal to what an unlisted key reads as. -/
abbrev NMap (α : Type) := List (Nat × α)

namespace NMap

/-- What key `k` holds; `d` where nothing is listed. -/
def get {α : Type} (d : α) : NMap α → Nat → α
  | [], _ => d
  | (j, v) :: m, k => if k = j then v else if k < j then d else get d m k

/-- Insert or replace key `k`, keeping keys rising. -/
def put {α : Type} (k : Nat) (v : α) : NMap α → NMap α
  | [] => [(k, v)]
  | (j, w) :: m => if k < j then (k, v) :: (j, w) :: m else if k = j then (k, v) :: m else (j, w) :: put k v m

/-- Remove key `k`. -/
def del {α : Type} (k : Nat) : NMap α → NMap α
  | [] => []
  | (j, w) :: m => if k = j then m else if k < j then (j, w) :: m else (j, w) :: del k m

/-- Write `v` at `k`; the value an unlisted key reads as removes the entry. -/
def set {α : Type} [DecidableEq α] (d : α) (m : NMap α) (k : Nat) (v : α) : NMap α :=
  if v = d then del k m else put k v m

/-- Keys strictly rising, all above `lo` where one is given. -/
def sortedFrom {α : Type} : Option Nat → NMap α → Bool
  | _, [] => true
  | none, (j, _) :: m => sortedFrom (some j) m
  | some i, (j, _) :: m => decide (i < j) && sortedFrom (some j) m

/-- The canonical form: keys strictly rising and no entry equal to the default. -/
def wf {α : Type} [DecidableEq α] (d : α) (m : NMap α) : Bool :=
  sortedFrom none m && m.all fun e => decide (e.2 ≠ d)

/-- The keys listed. -/
def keys {α : Type} (m : NMap α) : List Nat := m.map Prod.fst

/-- Drop every key `p` selects. -/
def drop {α : Type} (p : Nat → Bool) (m : NMap α) : NMap α := m.filter fun e => !p e.1

end NMap

/-- The low `n` bytes of `v`, least significant first (R9). -/
def leBytes : Nat → Nat → List Byte
  | 0, _ => []
  | n + 1, v => BitVec.ofNat 8 v :: leBytes n (v / 256)

/-- The number a little-endian byte list spells (R9). -/
def leNat : List Byte → Nat
  | [] => 0
  | b :: bs => b.toNat + 256 * leNat bs

/-- Bytes `o … o + n − 1` of a list as a little-endian number; bytes past its end read zero. -/
def fieldAt (bs : List Byte) (o n : Nat) : Nat := leNat ((bs.drop o).take n)

/-- Bits `hi … lo` of a number. -/
def bits (v hi lo : Nat) : Nat := v / 2 ^ lo % 2 ^ (hi + 1 - lo)

/-- A number with its bits `hi … lo` replaced. -/
def putBits (w hi lo v : Nat) : Nat := w - bits w hi lo * 2 ^ lo + v % 2 ^ (hi + 1 - lo) * 2 ^ lo

/-- Bit `i` of a number. -/
def bit (v i : Nat) : Bool := v.testBit i

/-- 1 for true, 0 for false. -/
def b2n (b : Bool) : Nat := if b then 1 else 0

/-- Two's-complement reading of the low `w` bits of a number. -/
def toSigned (w v : Nat) : Int := (BitVec.ofNat w v).toInt

/-- Exactly `n` bytes: cut or padded with zero. -/
def fitBytes (n : Nat) (bs : List Byte) : List Byte := (bs ++ List.replicate (n - bs.length) 0).take n

/-- floor division of naturals rounded up. -/
def ceilDiv (a b : Nat) : Nat := (a + b - 1) / b

/-- `a` rounded up to a multiple of `b`. -/
def roundUp (a b : Nat) : Nat := ceilDiv a b * b

/-- Number of bits of `n` (0 for 0). -/
def bitLen (n : Nat) : Nat := if n = 0 then 0 else Nat.log2 n + 1

/-- The smallest `b` with `n ≤ 2^b`. -/
def ceilLog2 (n : Nat) : Nat := if n ≤ 1 then 0 else bitLen (n - 1)

/-- Count of set bits among the low `n`. -/
def popCount (n v : Nat) : Nat := (List.range n).foldl (fun a i => a + b2n (v.testBit i)) 0

/-- The positions of the set bits among the low `n`, rising. -/
def setBits (n v : Nat) : List Nat := (List.range n).filter fun i => v.testBit i

end Sys2Proof
end

