-- ==== Sys2Proof/Syntax.lean ====
section
/-! DEFINITION. The commands of the block: one constructor of `Instr` per row of opcode_table.json, and the operands they carry. -/
namespace Sys2Proof

/-- A packet on the Wyrraop remote-command entry (R39): its source node, the region key it presents (R214) and its bytes. -/
structure RemotePkt where
  /-- node that sent it -/
  src : Nat
  /-- offset in this module's fabric space of the region whose key is presented -/
  offset : Nat
  /-- key presented -/
  key : Dbl
  /-- the packet, header to seal (Table 2-2, Table 2-3) -/
  bytes : List Byte
  /-- port whose ingress buffer holds it -/
  port : Nat
  deriving DecidableEq, Repr, Inhabited

/-- The place a plain register write names: a BAR0 word of a function, or a word of the internal register map. -/
inductive RegPlace
  /-- BAR0 offset of a function (Table 3-3) -/
  | bar (fn off : Nat)
  /-- HW_ register offset of a function, named by a poisoned write TLP (Table 3-15) -/
  | barPoisoned (fn off : Nat)
  /-- register address (R459) -/
  | internal (addr : Nat)
  deriving DecidableEq, Repr, Inhabited

/-- What the comparison of a replay showed (Table 19-2): whether the replay's disputed item equals the original's bits,
whether the replay's own check passed, and whether the item agrees with the checker. -/
structure ReplayObs where
  same : Bool
  passes : Bool
  agrees : Bool
  deriving DecidableEq, Repr, Inhabited

/-- What the inline code, or the link's code, says of one line (R166). -/
inductive EccObs
  | clean | single | double | linkSingle | linkDouble
  deriving DecidableEq, Repr, Inhabited

/-- One fabric operation as it arrives at its home (R219, R220). -/
structure FabPkt where
  /-- source node -/
  src : Nat
  /-- stream epoch -/
  epoch : Nat
  /-- end-to-end sequence number -/
  seq : Nat
  /-- offset in the home's fabric space -/
  offset : Nat
  /-- key presented -/
  key : Dbl
  /-- bytes of the access -/
  size : Nat
  /-- byte-enable mask -/
  enable : Nat
  /-- payload -/
  data : List Byte
  /-- payload poisoned (Table 19-4) -/
  poison : Bool
  /-- epoch of the ownership a write-back was made under (R228) -/
  ownEpoch : Nat
  /-- port whose ingress buffer holds the packet, 8 for one that crossed no port (R211, R233, R243) -/
  port : Nat
  deriving DecidableEq, Repr, Inhabited

/-- How a home answers a load or a probe (R214, R215, R244). -/
inductive AnswerKind
  | data | probed | keyRejected | fenced | incomplete | badRights | tooManyWriters | secondCopyWriter | status
  deriving DecidableEq, Repr, Inhabited

/-- A response on virtual channel 1 (R244): load data or a probe answer for an operation of a stream, or a status for a command. -/
structure FabAnswer where
  kind : AnswerKind
  /-- node that answers -/
  node : Nat
  /-- stream epoch and sequence number of the operation it answers -/
  stream : Nat
  seq : Nat
  /-- command that waits for a status -/
  id : Nat
  data : List Byte
  poison : Bool
  /-- region description of a probe answer (Table 10-6) -/
  mode : Nat
  operation : Nat
  owner : Nat
  epoch : Nat
  length : Nat
  readOnly : Bool
  /-- status of a forwarded LEASE_SET (R254) -/
  status : Nat
  deriving DecidableEq, Repr, Inhabited

/-- Answers to a refused posted operation (R223, R256). -/
inductive RefusalKind
  | keyRejected | notOwner | fenced
  deriving DecidableEq, Repr, Inhabited

/-- What a link frame carries (R240): its number, packets, credits returned per channel, and what its receiver sees of its codewords. -/
structure LinkFrame where
  seq : Nat
  /-- number of the frame the sender expects next: it has every frame before it -/
  ack : Nat
  /-- the sender has dropped that frame and asks for its replay -/
  again : Bool
  /-- codewords FEC could not correct -/
  uncorrectable : Nat
  crcOk : Bool
  corrected : Nat
  /-- (virtual channel, source node, destination node, bytes) -/
  packets : List (Nat × Nat × Nat × Nat)
  /-- (virtual channel, 32-byte units) -/
  credits : List (Nat × Nat)
  deriving DecidableEq, Repr, Inhabited

/-- Why a port goes down (R241). -/
inductive DownCause
  | lossOfSignal | replaysFailed | mismatch
  deriving DecidableEq, Repr, Inhabited

/-- What the neighbour presents at training (R251), the healthy lane pairs and the measured delay (R259). -/
structure Neighbour where
  /-- a neighbour answered and the lanes trained -/
  trained : Bool
  node : Nat
  partition : Nat
  epoch : Nat
  rank : Nat
  /-- all four lanes healthy; otherwise one healthy pair -/
  fourLanes : Bool
  /-- one-way delay, 0.25 ns -/
  delay : Nat
  deriving DecidableEq, Repr, Inhabited

/-- A received Ethernet frame (R351–R353, R359). -/
structure EthFrame where
  port : Nat
  etherType : Nat
  /-- slow-protocol subtype, first payload byte -/
  subtype : Nat
  dst : Nat
  src : Nat
  /-- number of 802.1Q tags -/
  tags : Nat
  vlan : Nat
  pcp : Nat
  dei : Bool
  eaxc : Nat
  /-- bytes from destination address through FCS -/
  length : Nat
  fcsOk : Bool
  /-- priorities and quanta of a PFC frame; priority 8 stands for an Annex 31B PAUSE -/
  pfc : List (Nat × Nat)
  /-- the frame's bytes without FCS -/
  bytes : List Byte
  deriving DecidableEq, Repr, Inhabited

/-- PTP message kinds that move a domain (R368). -/
inductive PtpKind
  | sync | announce
  deriving DecidableEq, Repr, Inhabited

/-- A Sync or Announce message with what the servo made of it (R367, R368). -/
structure PtpMsg where
  domain : Nat
  kind : PtpKind
  /-- servo's filtered offset, ns -/
  filtered : Int
  /-- domain time minus output time after this message, 0.25 ns -/
  offset : Int
  /-- servo rate, 2⁻¹⁶ ppb -/
  rate : Int
  deriving DecidableEq, Repr, Inhabited

/-- The step of Table 13-8 or 13-9 whose deadline passes, and how it stands (R297). -/
structure DeadlineObs where
  /-- 0 downlink, 1 uplink, 2 PRACH -/
  dir : Nat
  /-- step number of the table -/
  step : Nat
  sfn : Nat
  slot : Nat
  /-- the step was complete at its deadline -/
  met : Bool
  /-- lateness in ns -/
  late : Nat
  /-- indication messages the step delivers (FAPI, opaque bytes) -/
  messages : List (List Byte)
  /-- EVM sums Σ|y−ŝ|², Σ|ŝ|² of the slot, when it had PUSCH -/
  evm : Option (Nat × Nat)
  /-- link-quality sums S, σ² of the slot, when it had PUSCH -/
  lq : Option (Nat × Nat)
  deriving DecidableEq, Repr, Inhabited

/-- A signal-core job (R304): entry index, eight pointer arguments, mode, cycle limit; with the first job of a group come the cluster flags that
the sequencer clears before it (R319). -/
structure Job where
  entry : Nat
  args : List Word
  mode : Bool
  limit : Nat
  clears : Word
  deriving DecidableEq, Repr, Inhabited

/-- Descriptor header (Table 15-2) shared by the engine kinds. -/
structure DescHdr where
  cell : Nat
  sfn : Nat
  slot : Nat
  /-- cluster flag set at completion: bits 7:5 cluster, 4:0 flag -/
  flag : Nat
  /-- reserved bytes as written -/
  reserved : Nat
  /-- an uncorrectable error was met in an input or in engine storage (R327) -/
  memError : Bool
  deriving DecidableEq, Repr, Inhabited

/-- FFT descriptor (Table 15-3). -/
structure FftDesc where
  hdr : DescHdr
  size : Nat
  flags : Nat
  cp : Nat
  symbols : Nat
  nsc : Nat
  schedule : Nat
  input : Nat
  output : Nat
  exponents : Nat
  deriving DecidableEq, Repr, Inhabited

/-- Map and demap descriptor (R331–R333). -/
structure MapDesc where
  hdr : DescHdr
  map : Nat
  entries : Nat
  symbol : Nat
  input : Nat
  output : Nat
  weights : Nat
  /-- 0 per item, 1 per element -/
  weightMode : Bool
  llrScale : Nat
  evmSums : Nat
  deriving DecidableEq, Repr, Inhabited

/-- LDPC encode and decode descriptor (R334–R336). -/
structure LdpcDesc where
  hdr : DescHdr
  /-- base graph 1 or 2 -/
  bg : Nat
  z : Nat
  k : Nat
  filler : Nat
  e : Nat
  rv : Nat
  qm : Nat
  ncb : Nat
  combine : Bool
  writeback : Bool
  /-- 0 CRC24B, 1 CRC24A, 2 CRC16; on encode, TB_CRC set selects the transport-block CRC -/
  crcType : Nat
  tbCrc : Bool
  maxIter : Nat
  input : Nat
  harq : Nat
  output : Nat
  deriving DecidableEq, Repr, Inhabited

/-- Polar descriptor (R337). -/
structure PolarDesc where
  hdr : DescHdr
  uplink : Bool
  n : Nat
  k : Nat
  e : Nat
  crcBits : Nat
  list : Nat
  input : Nat
  output : Nat
  deriving DecidableEq, Repr, Inhabited

/-- PRACH descriptor (R338, R339). -/
structure PrachDesc where
  hdr : DescHdr
  /-- L_RA, 839 or 139 -/
  lra : Nat
  roots : List Nat
  ncs : Nat
  antennas : Nat
  repetitions : Nat
  /-- threshold, 0.1 dB -/
  thr : Nat
  restricted : Nat
  /-- Δf_RA in Hz and μ -/
  deltaF : Nat
  mu : Nat
  input : Nat
  deriving DecidableEq, Repr, Inhabited

/-- Units that fail self-test at a power-up (R84, R323, R328) or training (R167). -/
structure SelfTest where
  cores : List Nat
  signalCores : List Nat
  engines : List Nat
  /-- memory channels, 0–63 east, 64–127 west -/
  channels : List Nat
  deriving DecidableEq, Repr, Inhabited

/-- What start-up meets: strap values (R444), whether the module record verifies (R451). -/
structure BootObs where
  slotStrap : Nat
  maddr : Nat
  recordOk : Bool
  deriving DecidableEq, Repr, Inhabited

/-- One measurement of Steward (R434): input power W, VIN 10 mV, junctions °C, power per domain 0.1 W. -/
structure PowerObs where
  power : Nat
  vin : Nat
  east : Nat
  west : Nat
  hub : Nat
  domains : List Nat
  deriving DecidableEq, Repr, Inhabited

/-- Outcome of a device DMA read (Table 3-15). -/
inductive DmaObs
  | data (bytes : List Byte)
  | poisoned (bytes : List Byte)
  | unsupported
  | aborted
  deriving DecidableEq, Repr, Inhabited

/-- A PCI Express configuration request (R430): a read, or a write of the SR-IOV control of the physical function. -/
inductive CfgReq
  | read (fn reg : Nat)
  | writeVfs (enable : Bool) (numVfs : Nat)
  | writeOther (fn reg : Nat) (v : Word)
  deriving DecidableEq, Repr, Inhabited

/-- The commands, one constructor per row of opcode_table.json. A packet opcode's command (`op…`) names the accepted
command it acts for; a vector or signal-core instruction's command carries the core that issues it and the instruction. -/
inductive Instr
  /-- WINDOW_WRITE (R28). -/
  | windowWrite (fn off : Nat) (data : List Byte) (poisoned : Bool)
  /-- PACKET_ACCEPT (R30). -/
  | packetAccept (fn : Nat)
  /-- MCTP_MESSAGE (R38). -/
  | mctpMessage (data : List Byte)
  /-- REMOTE_COMMAND (R39). -/
  | remoteCommand (r : RemotePkt)
  /-- HW_WIN_CTL_RESYNC (R32). -/
  | hwWinCtlResync (fn : Nat)
  /-- HW_RING_CFG_ENABLE (R52). -/
  | hwRingCfgEnable (fn : Nat) (v : Word)
  /-- HW_RING_HEAD_WRITE (R52). -/
  | hwRingHeadWrite (fn : Nat) (v : Word)
  /-- HW_HEARTBEAT_WRITE (R62). -/
  | hwHeartbeatWrite (fn : Nat) (v : Word)
  /-- HW_NOTICE_DROP_READ (R10). -/
  | hwNoticeDropRead (fn : Nat)
  /-- COUNTER_LO_READ (R87). -/
  | counterLoRead (addr : Nat)
  /-- MC_CTL_CLEAR (R87). -/
  | mcCtlClear (core : Nat)
  /-- VE_CTL_CLEAR (R152). -/
  | veCtlClear (core : Nat)
  /-- DP_CTL_CLEAR (R209). -/
  | dpCtlClear (die : Nat)
  /-- WF_CTL_CLEAR (R238). -/
  | wfCtlClear
  /-- SC_CTL_CLEAR (R324). -/
  | scCtlClear (core : Nat)
  /-- SC_CL_CTL_CLEAR (R324). -/
  | scClCtlClear (cluster : Nat)
  /-- SC_CL_CTL_HALT (R305). -/
  | scClCtlHalt (cluster : Nat) (halt : Bool)
  /-- SC_PROGRAM_WINDOW_WRITE (R305). -/
  | scProgramWindowWrite (cluster index : Nat) (v : Word)
  /-- SC_FAULT_READ (R10). -/
  | scFaultRead (core : Nat)
  /-- WE_CTL_CLEAR (R348). -/
  | weCtlClear
  /-- TM_CTL_CLEAR (R363). -/
  | tmCtlClear (port : Nat)
  /-- SX_CTL_CLEAR (R377). -/
  | sxCtlClear
  /-- PW_CTL_CLEAR (R447). -/
  | pwCtlClear
  /-- EV_CTL_CLEAR (R386). -/
  | evCtlClear
  /-- EV_CTL_DISABLE (R383). -/
  | evCtlDisable (on : Bool)
  /-- EV_CLAIM (R380). -/
  | evClaim (target : Nat)
  /-- EV_COMPLETE (R381). -/
  | evComplete (target : Nat) (v : Word)
  /-- REGISTER_WRITE (R10). -/
  | registerWrite (r : RegPlace) (v : Word)
  /-- HELLO (R41). -/
  | opHello (id : Nat)
  /-- CAPS (R43). -/
  | opCaps (id : Nat)
  /-- CREDIT_QUERY (R45). -/
  | opCreditQuery (id : Nat)
  /-- NOP (R45). -/
  | opNop (id : Nat)
  /-- CONTEXT_OPEN (R57). -/
  | opContextOpen (id : Nat)
  /-- CONTEXT_CLOSE (R59). -/
  | opContextClose (id : Nat)
  /-- CONTEXT_RESET (R60). -/
  | opContextReset (id : Nat)
  /-- TENANT_PROVISION (R55). -/
  | opTenantProvision (id : Nat)
  /-- ALLOC (R156). -/
  | opAlloc (id : Nat)
  /-- FREE (R158). -/
  | opFree (id : Nat)
  /-- COPY (R173). -/
  | opCopy (id : Nat)
  /-- FILL (R173). -/
  | opFill (id : Nat)
  /-- PROMOTE (R160). -/
  | opPromote (id : Nat)
  /-- EVICT (R161). -/
  | opEvict (id : Nat)
  /-- PIN (R160). -/
  | opPin (id : Nat)
  /-- UNPIN (R160). -/
  | opUnpin (id : Nat)
  /-- TIER_QUERY (R176). -/
  | opTierQuery (id : Nat)
  /-- COMPRESS_HINT (R172). -/
  | opCompressHint (id : Nat)
  /-- MATMUL_CHAIN (R109). -/
  | opMatmulChain (id : Nat)
  /-- VECTOR_RUN (R146). -/
  | opVectorRun (id : Nat)
  /-- VECTOR_LOAD (R144). -/
  | opVectorLoad (id : Nat)
  /-- REDUCE (R104). -/
  | opReduce (id : Nat)
  /-- GATHER_ROWS (R275). -/
  | opGatherRows (id : Nat)
  /-- STEP_COMPOSE (R197). -/
  | opStepCompose (id : Nat)
  /-- SEQ_SUBMIT (R204). -/
  | opSeqSubmit (id : Nat)
  /-- SEQ_CANCEL (R206). -/
  | opSeqCancel (id : Nat)
  /-- SAMPLE (R208). -/
  | opSample (id : Nat)
  /-- TOKEN_SIGNAL (R183). -/
  | opTokenSignal (id : Nat)
  /-- TOKEN_WAIT (R184). -/
  | opTokenWait (id : Nat)
  /-- FENCE (R231). -/
  | opFence (id : Nat)
  /-- BARRIER_ARM (R419). -/
  | opBarrierArm (id : Nat)
  /-- REGION_EXPORT (R213). -/
  | opRegionExport (id : Nat)
  /-- REGION_IMPORT (R215). -/
  | opRegionImport (id : Nat)
  /-- REGION_REVOKE (R216). -/
  | opRegionRevoke (id : Nat)
  /-- OWNERSHIP_TRANSFER (R228). -/
  | opOwnershipTransfer (id : Nat)
  /-- ROWS_SEND (R270). -/
  | opRowsSend (id : Nat)
  /-- ROWS_COMBINE (R277). -/
  | opRowsCombine (id : Nat)
  /-- LEASE_SET (R255). -/
  | opLeaseSet (id : Nat)
  /-- PARTITION_SET (R247). -/
  | opPartitionSet (id : Nat)
  /-- CELL_CONFIG (R284). -/
  | opCellConfig (id : Nat)
  /-- CELL_START (R287). -/
  | opCellStart (id : Nat)
  /-- CELL_STOP (R287). -/
  | opCellStop (id : Nat)
  /-- RADIO_RESERVE (R193). -/
  | opRadioReserve (id : Nat)
  /-- FAPI_P5 (R290). -/
  | opFapiP5 (id : Nat)
  /-- FAPI_P7 (R290). -/
  | opFapiP7 (id : Nat)
  /-- HEAD_CONTROL (R344). -/
  | opHeadControl (id : Nat)
  /-- DOMAIN_CONFIG (R376). -/
  | opDomainConfig (id : Nat)
  /-- DOMAIN_SELECT (R370). -/
  | opDomainSelect (id : Nat)
  /-- TRIGGER_SET (R374). -/
  | opTriggerSet (id : Nat)
  /-- CAPTURE_READ (R375). -/
  | opCaptureRead (id : Nat)
  /-- TIME_READ (R376). -/
  | opTimeRead (id : Nat)
  /-- PORT_CONFIG (R360). -/
  | opPortConfig (id : Nat)
  /-- QUEUE_CONFIG (R360). -/
  | opQueueConfig (id : Nat)
  /-- SHAPER_CONFIG (R361). -/
  | opShaperConfig (id : Nat)
  /-- POLICER_CONFIG (R359). -/
  | opPolicerConfig (id : Nat)
  /-- ERROR_LOG_READ (R402). -/
  | opErrorLogRead (id : Nat)
  /-- CHECK_CONFIG (R403). -/
  | opCheckConfig (id : Nat)
  /-- SCRUB (R404). -/
  | opScrub (id : Nat)
  /-- INJECT (R405). -/
  | opInject (id : Nat)
  /-- QUARANTINE_QUERY (R406). -/
  | opQuarantineQuery (id : Nat)
  /-- RECORD_START (R415). -/
  | opRecordStart (id : Nat)
  /-- RECORD_STOP (R415). -/
  | opRecordStop (id : Nat)
  /-- REPLAY_START (R417). -/
  | opReplayStart (id : Nat)
  /-- SEED_SET (R412). -/
  | opSeedSet (id : Nat)
  /-- STEP_READ (R413). -/
  | opStepRead (id : Nat)
  /-- FW_STAGE (R452). -/
  | opFwStage (id : Nat)
  /-- FW_ACTIVATE (R454). -/
  | opFwActivate (id : Nat)
  /-- REG_READ (R459). -/
  | opRegRead (id : Nat)
  /-- REG_WRITE (R459). -/
  | opRegWrite (id : Nat)
  /-- POWER_POLICY (R433). -/
  | opPowerPolicy (id : Nat)
  /-- ATTEST (R457). -/
  | opAttest (id : Nat)
  /-- COMMAND_GRANT (R179). -/
  | commandGrant (id : Nat)
  /-- COMMAND_START (R187). -/
  | commandStart (core : Nat)
  /-- SPILL_END (R190). -/
  | spillEnd (core : Nat)
  /-- FILL_END (R190). -/
  | fillEnd (core : Nat)
  /-- COMPLETION_POST (R196). -/
  | completionPost (die : Nat)
  /-- REPLY_TIME_THRESHOLD (R36). -/
  | replyTimeThreshold (fn : Nat)
  /-- RADIO_COMMAND_ISSUE (R194). -/
  | radioCommandIssue (cell ns : Nat) (disagree : Bool)
  /-- SLOT_GUARD_LIMIT (R188). -/
  | slotGuardLimit (core : Nat)
  /-- CONTEXT_WATCHDOG (R61). -/
  | contextWatchdog (id : Nat)
  /-- STEP_WATCHDOG (R203). -/
  | stepWatchdog (tenant ctx : Nat)
  /-- HEARTBEAT_EXPIRY (R62). -/
  | heartbeatExpiry (tenant : Nat)
  /-- TOKEN_WAIT_TIMEOUT (R184). -/
  | tokenWaitTimeout (id : Nat)
  /-- REPLAY (R393). -/
  | replay (id : Nat) (o : ReplayObs)
  /-- SERVING_STEP (R201). -/
  | servingStep (tenant ctx : Nat)
  /-- REPLAY_ENTRY (R417). -/
  | replayEntry (tenant ctx : Nat)
  /-- COOPER_ROUND_TIMEOUT (R150). -/
  | cooperRoundTimeout (quarter : Nat)
  /-- RAISE_COMPLETE (R160). -/
  | raiseComplete (tenant handle : Nat)
  /-- LOWERING_COMPLETE (R160). -/
  | loweringComplete (tenant handle : Nat)
  /-- TRACKER_RETIRE (R164). -/
  | trackerRetire (slice tracker : Nat)
  /-- L2_WRITE_BACK (R171). -/
  | l2WriteBack (tenant handle line : Nat)
  /-- PATROL_SCRUB (R403). -/
  | patrolScrub (tenant handle line : Nat) (e : EccObs)
  /-- FABRIC_LOAD (R219). -/
  | fabricLoad (p : FabPkt)
  /-- FABRIC_STORE (R219). -/
  | fabricStore (p : FabPkt)
  /-- FABRIC_ATOMIC (R224). -/
  | fabricAtomic (p : FabPkt)
  /-- HOME_ENTRY_ADMIT (R233). -/
  | homeEntryAdmit (unit : Nat)
  /-- WRITE_BACK (R228). -/
  | writeBack (p : FabPkt)
  /-- PROBE (R214). -/
  | probe (p : FabPkt) (rights : Nat)
  /-- LOAD_RESPONSE (R244). -/
  | loadResponse (r : FabAnswer)
  /-- ACKNOWLEDGEMENT (R221). -/
  | acknowledgement (node epoch seq : Nat)
  /-- REFUSAL (R223). -/
  | refusal (node epoch seq : Nat) (kind : RefusalKind)
  /-- OWNER_CHANGE (R228). -/
  | ownerChange (p : FabPkt) (owner : Nat)
  /-- OWNER_NOTICE (R228): the packet as it stands in the home's stream, the region's offset at its home, its new epoch and owner. -/
  | ownerNotice (p : FabPkt) (base epoch owner : Nat)
  /-- WRITE_BACK_REQUEST (R216): the packet as it stands in the home's stream, and the region's offset at its home. -/
  | writeBackRequest (p : FabPkt) (base : Nat)
  /-- IMPORT_RELEASE_NOTICE (R218). -/
  | importReleaseNotice (p : FabPkt)
  /-- RECEIVE_SIGNAL (R267). -/
  | receiveSignal (p : FabPkt) (token after : Nat)
  /-- RESEND (R220). -/
  | resend (node : Nat)
  /-- STREAM_BREAK (R220). -/
  | streamBreak (node : Nat)
  /-- FENCE_TIMEOUT (R232). -/
  | fenceTimeout (id : Nat)
  /-- IMPORT_PROBE_TIMEOUT (R215). -/
  | importProbeTimeout (id : Nat)
  /-- TRANSFER_TIMEOUT (R230). -/
  | transferTimeout (id : Nat)
  /-- REVOKE_WRITE_BACK_TIMEOUT (R216). -/
  | revokeWriteBackTimeout (id : Nat)
  /-- LEASE_FORWARD_TIMEOUT (R254). -/
  | leaseForwardTimeout (id : Nat)
  /-- LEASE_EXPIRY (R256). -/
  | leaseExpiry
  /-- LINK_FRAME_RECEIVE (R240). -/
  | linkFrameReceive (port : Nat) (f : LinkFrame)
  /-- PORT_DOWN (R241). -/
  | portDown (port : Nat) (cause : DownCause)
  /-- PORT_RETRAIN (R241). -/
  | portRetrain (port : Nat)
  /-- PORT_TRAINING (R251). -/
  | portTraining (port : Nat) (n : Neighbour)
  /-- FENCED_PORT_RETRY (R251). -/
  | fencedPortRetry (port : Nat)
  /-- BARRIER_ARM_SIGNAL (R419). -/
  | barrierArmSignal (barrier port : Nat)
  /-- BARRIER_RELEASE (R259). -/
  | barrierRelease (barrier port : Nat) (remaining : Int) (held : Nat)
  /-- BARRIER_FIRE (R421). -/
  | barrierFire (barrier : Nat)
  /-- BARRIER_TIMEOUT (R422). -/
  | barrierTimeout (id : Nat)
  /-- ETHERNET_FRAME_RECEIVE (R353). -/
  | ethernetFrameReceive (f : EthFrame)
  /-- PFC_REFRESH (R352). -/
  | pfcRefresh (port prio : Nat)
  /-- PFC_PAUSE_EXPIRY (R352). -/
  | pfcPauseExpiry (port prio : Nat)
  /-- FRAME_TRANSMIT (R356). -/
  | frameTransmit (port : Nat)
  /-- TRANSMIT_RING_POLL (R355). -/
  | transmitRingPoll (port queue : Nat)
  /-- ETHERNET_LINK_CHANGE (R362). -/
  | ethernetLinkChange (port : Nat) (up : Bool)
  /-- PTP_MESSAGE (R368). -/
  | ptpMessage (m : PtpMsg)
  /-- ANNOUNCE_TIMEOUT (R368). -/
  | announceTimeout (domain : Nat)
  /-- SLEW_END (R369). -/
  | slewEnd
  /-- SYNC_TRANSMIT (R367). -/
  | syncTransmit (domain port : Nat)
  /-- TRIGGER_EDGE (R373). -/
  | triggerEdge (trigger : Nat)
  /-- CAPTURE_EDGE (R375). -/
  | captureEdge (source : Nat) (falling : Bool)
  /-- SLOT_BOUNDARY (R293). -/
  | slotBoundary (cell : Nat)
  /-- REQUEST_DEADLINE (R294). -/
  | requestDeadline (cell : Nat)
  /-- FRONTHAUL_WINDOW (R293). -/
  | fronthaulWindow (cell symbol : Nat) (uplink opening ready : Bool)
  /-- SLOT_DEADLINE (R297). -/
  | slotDeadline (cell : Nat) (d : DeadlineObs)
  /-- CELL_BECOMES_RUNNING (R287). -/
  | cellBecomesRunning (cell : Nat)
  /-- AGC_MEASUREMENT (R341): the mean power of the symbol just received in 0.01 dBFS; a configured PRACH occasion covers the
  symbol in progress. -/
  | agcMeasurement (cell antenna : Nat) (power : Int) (prach : Bool)
  /-- FREQUENCY_ESTIMATE (R343): the estimate in 0.01 Hz and the slot's link-quality figure in 0.1 dB. -/
  | frequencyEstimate (cell : Nat) (offset quality : Int)
  /-- JOB_START (R304). -/
  | jobStart (core : Nat) (j : Job)
  /-- JOB_CYCLE_LIMIT (R322). -/
  | jobCycleLimit (core : Nat)
  /-- FFT_IFFT (R329). -/
  | fftIfft (engine : Nat) (d : FftDesc)
  /-- MAP (R331). -/
  | map (engine : Nat) (d : MapDesc)
  /-- DEMAP (R333). -/
  | demap (engine : Nat) (d : MapDesc)
  /-- LDPC_DECODE (R334). -/
  | ldpcDecode (engine : Nat) (d : LdpcDesc)
  /-- LDPC_ENCODE (R336). -/
  | ldpcEncode (engine : Nat) (d : LdpcDesc)
  /-- POLAR_ENCODE (R337). -/
  | polarEncode (engine : Nat) (d : PolarDesc)
  /-- POLAR_DECODE (R337). -/
  | polarDecode (engine : Nat) (d : PolarDesc)
  /-- PRACH (R338). -/
  | prach (engine : Nat) (d : PrachDesc)
  /-- EVENT_SOURCE_INPUT (R378). -/
  | eventSourceInput (source : Nat) (high : Bool)
  /-- INPUT_VALID (R429). -/
  | inputValid (o : BootObs)
  /-- STARTUP_COMPLETE (R429). -/
  | startupComplete (t : SelfTest)
  /-- WINDOW_READY (R430). -/
  | windowReady
  /-- BROWNOUT_WARNING (R425). -/
  | brownoutWarning (tenMv : Nat)
  /-- BROWNOUT_CLEAR (R425). -/
  | brownoutClear
  /-- RESET_TRIP (R428). -/
  | resetTrip
  /-- OVERVOLTAGE_TRIP (R424). -/
  | overvoltageTrip
  /-- THERMAL_TRIP (R446). -/
  | thermalTrip (die : Nat)
  /-- POWER_MEASUREMENT (R434). -/
  | powerMeasurement (o : PowerObs)
  /-- DOMAIN_SWITCH_DONE (R433). -/
  | domainSwitchDone (t : SelfTest)
  /-- MODULE_RESET (R435). -/
  | moduleReset
  /-- REFERENCE_LOSS (R437). -/
  | referenceLoss (ref : Nat)
  /-- REFERENCE_RETURN (R437). -/
  | referenceReturn (ref : Nat)
  /-- PERST_ASSERTION (R64). -/
  | perstAssertion
  /-- PERST_RELEASE (R430). -/
  | perstRelease
  /-- HOT_RESET (R64). -/
  | hotReset
  /-- LINK_DISABLE (R64). -/
  | linkDisable
  /-- PHYSICAL_FUNCTION_FLR (R64). -/
  | physicalFunctionFlr
  /-- VIRTUAL_FUNCTION_FLR (R63). -/
  | virtualFunctionFlr (fn : Nat)
  /-- SURPRISE_DOWN (R65). -/
  | surpriseDown
  /-- HOLDOVER_EXPIRY (R65). -/
  | holdoverExpiry
  /-- LINK_RETURN (R66). -/
  | linkReturn
  /-- CLERK_WATCHDOG (R18). -/
  | clerkWatchdog (domain : Nat)
  /-- CONTROL_CORE_WATCHDOG (R407). -/
  | controlCoreWatchdog (cluster : Nat)
  /-- STEWARD_WATCHDOG (R408). -/
  | stewardWatchdog (core : Nat)
  /-- HOT_RESTART_TIMEOUT (R455). -/
  | hotRestartTimeout
  /-- ADD (R129). -/
  | veAdd (core : Nat) (w : Dbl)
  /-- SUB (R129). -/
  | veSub (core : Nat) (w : Dbl)
  /-- MUL (R129). -/
  | veMul (core : Nat) (w : Dbl)
  /-- FMA (R129). -/
  | veFma (core : Nat) (w : Dbl)
  /-- MIN (R135). -/
  | veMin (core : Nat) (w : Dbl)
  /-- MAX (R135). -/
  | veMax (core : Nat) (w : Dbl)
  /-- ABS (R129). -/
  | veAbs (core : Nat) (w : Dbl)
  /-- NEG (R129). -/
  | veNeg (core : Nat) (w : Dbl)
  /-- CMPEQ (R135). -/
  | veCmpeq (core : Nat) (w : Dbl)
  /-- CMPLT (R135). -/
  | veCmplt (core : Nat) (w : Dbl)
  /-- CMPLE (R135). -/
  | veCmple (core : Nat) (w : Dbl)
  /-- CMPUN (R135). -/
  | veCmpun (core : Nat) (w : Dbl)
  /-- SEL (R130). -/
  | veSel (core : Nat) (w : Dbl)
  /-- EXP2 (R133). -/
  | veExp2 (core : Nat) (w : Dbl)
  /-- LOG2 (R133). -/
  | veLog2 (core : Nat) (w : Dbl)
  /-- RCP (R133). -/
  | veRcp (core : Nat) (w : Dbl)
  /-- RSQ (R133). -/
  | veRsq (core : Nat) (w : Dbl)
  /-- TANH (R133). -/
  | veTanh (core : Nat) (w : Dbl)
  /-- RELU (R134). -/
  | veRelu (core : Nat) (w : Dbl)
  /-- GELU (R134). -/
  | veGelu (core : Nat) (w : Dbl)
  /-- SILU (R134). -/
  | veSilu (core : Nat) (w : Dbl)
  /-- SWIGLU (R134). -/
  | veSwiglu (core : Nat) (w : Dbl)
  /-- CVTN (R129). -/
  | veCvtn (core : Nat) (w : Dbl)
  /-- CVTWL (R129). -/
  | veCvtwl (core : Nat) (w : Dbl)
  /-- CVTWH (R129). -/
  | veCvtwh (core : Nat) (w : Dbl)
  /-- CVTFI (R129). -/
  | veCvtfi (core : Nat) (w : Dbl)
  /-- CVTIF (R129). -/
  | veCvtif (core : Nat) (w : Dbl)
  /-- AND (R129). -/
  | veAnd (core : Nat) (w : Dbl)
  /-- OR (R129). -/
  | veOr (core : Nat) (w : Dbl)
  /-- XOR (R129). -/
  | veXor (core : Nat) (w : Dbl)
  /-- SHL (R129). -/
  | veShl (core : Nat) (w : Dbl)
  /-- SHRA (R129). -/
  | veShra (core : Nat) (w : Dbl)
  /-- MOVS (R129). -/
  | veMovs (core : Nat) (w : Dbl)
  /-- IOTAC (R129). -/
  | veIotac (core : Nat) (w : Dbl)
  /-- IOTAR (R129). -/
  | veIotar (core : Nat) (w : Dbl)
  /-- SHC1 (R129). -/
  | veShc1 (core : Nat) (w : Dbl)
  /-- TRN (R129). -/
  | veTrn (core : Nat) (w : Dbl)
  /-- PAND (R130). -/
  | vePand (core : Nat) (w : Dbl)
  /-- POR (R130). -/
  | vePor (core : Nat) (w : Dbl)
  /-- PNOT (R130). -/
  | vePnot (core : Nat) (w : Dbl)
  /-- PSET (R130). -/
  | vePset (core : Nat) (w : Dbl)
  /-- PCLR (R130). -/
  | vePclr (core : Nat) (w : Dbl)
  /-- RSUM (R138). -/
  | veRsum (core : Nat) (w : Dbl)
  /-- RPROD (R138). -/
  | veRprod (core : Nat) (w : Dbl)
  /-- RMAX (R139). -/
  | veRmax (core : Nat) (w : Dbl)
  /-- RMIN (R139). -/
  | veRmin (core : Nat) (w : Dbl)
  /-- RCNT (R138). -/
  | veRcnt (core : Nat) (w : Dbl)
  /-- RMEAN (R138). -/
  | veRmean (core : Nat) (w : Dbl)
  /-- SCAN (R141). -/
  | veScan (core : Nat) (w : Dbl)
  /-- SSCAN (R141). -/
  | veSscan (core : Nat) (w : Dbl)
  /-- CSPUSH (R140). -/
  | veCspush (core : Nat) (w : Dbl)
  /-- CSFIN (R140). -/
  | veCsfin (core : Nat) (w : Dbl)
  /-- CSCLR (R140). -/
  | veCsclr (core : Nat) (w : Dbl)
  /-- TOPK (R142). -/
  | veTopk (core : Nat) (w : Dbl)
  /-- TOPKCLR (R142). -/
  | veTopkclr (core : Nat) (w : Dbl)
  /-- LDT (R137). -/
  | veLdt (core : Nat) (w : Dbl)
  /-- STT (R137). -/
  | veStt (core : Nat) (w : Dbl)
  /-- LDS (R137). -/
  | veLds (core : Nat) (w : Dbl)
  /-- STS (R137). -/
  | veSts (core : Nat) (w : Dbl)
  /-- SMX (R143). -/
  | veSmx (core : Nat) (w : Dbl)
  /-- CPUT (R149). -/
  | veCput (core : Nat) (w : Dbl)
  /-- CGET (R149). -/
  | veCget (core : Nat) (w : Dbl)
  /-- END (R132). -/
  | veEnd (core : Nat) (w : Dbl)
  /-- VE_NOP (R132). -/
  | veNop (core : Nat) (w : Dbl)
  /-- ADDI (R131). -/
  | veAddi (core : Nat) (w : Dbl)
  /-- ADD_SCALAR (R131). -/
  | veAddScalar (core : Nat) (w : Dbl)
  /-- SUB_SCALAR (R131). -/
  | veSubScalar (core : Nat) (w : Dbl)
  /-- MULI (R131). -/
  | veMuli (core : Nat) (w : Dbl)
  /-- SHLI (R131). -/
  | veShli (core : Nat) (w : Dbl)
  /-- SHRI (R131). -/
  | veShri (core : Nat) (w : Dbl)
  /-- ANDI (R131). -/
  | veAndi (core : Nat) (w : Dbl)
  /-- BR (R132). -/
  | veBr (core : Nat) (w : Dbl)
  /-- BEQZ (R132). -/
  | veBeqz (core : Nat) (w : Dbl)
  /-- BNEZ (R132). -/
  | veBnez (core : Nat) (w : Dbl)
  /-- BLT (R132). -/
  | veBlt (core : Nat) (w : Dbl)
  /-- LOOP (R132). -/
  | veLoop (core : Nat) (w : Dbl)
  /-- MVSV (R132). -/
  | veMvsv (core : Nat) (w : Dbl)
  /-- MOV (R309). -/
  | scMov (core : Nat) (w : Word)
  /-- CADD (R309). -/
  | scCadd (core : Nat) (w : Word)
  /-- CSUB (R309). -/
  | scCsub (core : Nat) (w : Word)
  /-- CMUL (R309). -/
  | scCmul (core : Nat) (w : Word)
  /-- CMULJ (R309). -/
  | scCmulj (core : Nat) (w : Word)
  /-- CONJ (R309). -/
  | scConj (core : Nat) (w : Word)
  /-- CNEG (R309). -/
  | scCneg (core : Nat) (w : Word)
  /-- SWAP (R309). -/
  | scSwap (core : Nat) (w : Word)
  /-- ADDW (R309). -/
  | scAddw (core : Nat) (w : Word)
  /-- SUBW (R309). -/
  | scSubw (core : Nat) (w : Word)
  /-- ANDW (R309). -/
  | scAndw (core : Nat) (w : Word)
  /-- ORW (R309). -/
  | scOrw (core : Nat) (w : Word)
  /-- XORW (R309). -/
  | scXorw (core : Nat) (w : Word)
  /-- SHLH (R309). -/
  | scShlh (core : Nat) (w : Word)
  /-- SHRH (R309). -/
  | scShrh (core : Nat) (w : Word)
  /-- SHLW (R309). -/
  | scShlw (core : Nat) (w : Word)
  /-- SHRW (R309). -/
  | scShrw (core : Nat) (w : Word)
  /-- MAG2 (R309). -/
  | scMag2 (core : Nat) (w : Word)
  /-- MINW (R309). -/
  | scMinw (core : Nat) (w : Word)
  /-- MAXW (R309). -/
  | scMaxw (core : Nat) (w : Word)
  /-- ACCRD (R310). -/
  | scAccrd (core : Nat) (w : Word)
  /-- ACCCLR (R309). -/
  | scAccclr (core : Nat) (w : Word)
  /-- ACCSH (R309). -/
  | scAccsh (core : Nat) (w : Word)
  /-- ACCADD (R309). -/
  | scAccadd (core : Nat) (w : Word)
  /-- ACCLD (R309). -/
  | scAccld (core : Nat) (w : Word)
  /-- CMPW (R309). -/
  | scCmpw (core : Nat) (w : Word)
  /-- ABSH (R309). -/
  | scAbsh (core : Nat) (w : Word)
  /-- CMAC (R312). -/
  | scCmac (core : Nat) (w : Word)
  /-- CMACJ (R312). -/
  | scCmacj (core : Nat) (w : Word)
  /-- CMSU (R312). -/
  | scCmsu (core : Nat) (w : Word)
  /-- CMPY (R312). -/
  | scCmpy (core : Nat) (w : Word)
  /-- CPOW (R312). -/
  | scCpow (core : Nat) (w : Word)
  /-- NOPM (R312). -/
  | scNopm (core : Nat) (w : Word)
  /-- SF_FIR (R314). -/
  | scSfFir (core : Nat) (w : Word)
  /-- SF_SEARCH (R315). -/
  | scSfSearch (core : Nat) (w : Word)
  /-- LD (R307). -/
  | scLd (core : Nat) (w : Word)
  /-- ST (R307). -/
  | scSt (core : Nat) (w : Word)
  /-- LDIL (R308). -/
  | scLdil (core : Nat) (w : Word)
  /-- LDIH (R308). -/
  | scLdih (core : Nat) (w : Word)
  /-- MOVR (R308). -/
  | scMovr (core : Nat) (w : Word)
  /-- ADDPI (R306). -/
  | scAddpi (core : Nat) (w : Word)
  /-- SC_NOP (R308). -/
  | scNop (core : Nat) (w : Word)
  /-- DONE (R304). -/
  | scDone (core : Nat) (w : Word)
  /-- SC_BR (R318). -/
  | scBr (core : Nat) (w : Word)
  /-- CALL (R318). -/
  | scCall (core : Nat) (w : Word)
  /-- RET (R318). -/
  | scRet (core : Nat) (w : Word)
  /-- SC_LOOP (R317). -/
  | scLoop (core : Nat) (w : Word)
  /-- LOOPR (R317). -/
  | scLoopr (core : Nat) (w : Word)
  /-- BREAK (R318). -/
  | scBreak (core : Nat) (w : Word)
  /-- WAITF (R319). -/
  | scWaitf (core : Nat) (w : Word)
  /-- SETF (R319). -/
  | scSetf (core : Nat) (w : Word)
  /-- CLRF (R319). -/
  | scClrf (core : Nat) (w : Word)
  /-- HOT_RESTART_RESUME (R455). -/
  | hotRestartResume
  /-- LINK_FRAME_TRANSMIT (R245). -/
  | linkFrameTransmit (port : Nat)
  /-- DMA_READ_COMPLETION (R67). -/
  | dmaReadCompletion (id fn iova : Nat) (o : DmaObs)
  /-- COMPLETION_TIMEOUT (R67). -/
  | completionTimeout (id : Nat)
  /-- DYNAMIC_ADDRESS_ASSIGNMENT (R445). -/
  | dynamicAddressAssignment (addr : Nat) (fromStatic : Bool)
  /-- CONFIGURATION_REQUEST (R430). -/
  | configurationRequest (q : CfgReq)
  deriving DecidableEq, Repr

end Sys2Proof
end

