-- ==== Sys2Proof/Decode.lean ====
section
/-! DEFINITION. The table gives bits for no row, so no word spells a command. -/
namespace Sys2Proof

/-- opcode_table.json gives no row any bits: every word spells nothing. -/
def decodeTableWord (_nbits _w : Nat) : Option Instr := none

end Sys2Proof
end

