-- ==== Sys2Proof/Machine/Fp.lean ====
section
/-! DEFINITION. Formats, exact arithmetic and rounding (05, Tables 5-1, 5-9): a value is NaN, an infinity, or a signed dyadic. -/
namespace Sys2Proof.Machine

/-- An exact datum: NaN, ±∞, or (−1)^neg · m · 2^e; a zero keeps its sign. -/
inductive Fl
  | nan
  | inf (neg : Bool)
  | fin (neg : Bool) (m : Nat) (e : Int)
  deriving DecidableEq, Repr, Inhabited

/-- Which codes of a format are infinities and NaNs (Table 5-1). -/
inductive Specials
  /-- exponent all ones: mantissa 0 infinity, else NaN -/
  | ieee
  /-- only S.1111.111 is NaN, no infinity -/
  | e4m3
  /-- none -/
  | none
  deriving DecidableEq, Repr

/-- A floating-point format: exponent and mantissa widths, bias, special codes, NaN code it writes (Tables 5-1, 5-9). -/
structure Fmt where
  ew : Nat
  mw : Nat
  bias : Nat
  sp : Specials
  nanCode : Nat
  deriving DecidableEq, Repr

def fp32 : Fmt := ⟨8, 23, 127, .ieee, 0x7FC00000⟩
def fp16 : Fmt := ⟨5, 10, 15, .ieee, 0x7E00⟩
def bf16 : Fmt := ⟨8, 7, 127, .ieee, 0x7FC0⟩
def e4m3 : Fmt := ⟨4, 3, 7, .e4m3, 0x7F⟩
def e5m2 : Fmt := ⟨5, 2, 15, .ieee, 0x7E⟩
def e2m3 : Fmt := ⟨2, 3, 1, .none, 0⟩
def e3m2 : Fmt := ⟨3, 2, 3, .none, 0⟩
def e2m1 : Fmt := ⟨2, 1, 1, .none, 0⟩

/-- Width of a format in bits. -/
def Fmt.width (f : Fmt) : Nat := 1 + f.ew + f.mw

/-- The value a code means (R88). -/
def Fmt.dec (f : Fmt) (code : Nat) : Fl :=
  let s := code.testBit (f.ew + f.mw)
  let e := code / 2 ^ f.mw % 2 ^ f.ew
  let m := code % 2 ^ f.mw
  if f.sp = .ieee ∧ e = 2 ^ f.ew - 1 then (if m = 0 then .inf s else .nan)
  else if f.sp = .e4m3 ∧ e = 2 ^ f.ew - 1 ∧ m = 2 ^ f.mw - 1 then .nan
  else if e = 0 then .fin s m (1 - (f.bias : Int) - f.mw)
  else .fin s (2 ^ f.mw + m) ((e : Int) - f.bias - f.mw)

/-- `n / 2^k` rounded to nearest, ties to even. -/
def rneShift (n k : Nat) : Nat :=
  let q := n / 2 ^ k
  let r := n % 2 ^ k
  if k = 0 then n
  else if 2 * r > 2 ^ k ∨ (2 * r = 2 ^ k ∧ q % 2 = 1) then q + 1 else q

/-- m · 2^e rounded to `p` mantissa bits with quantum at least 2^qmin, exponent unbounded above: (significand, exponent). -/
def roundDyadic (p : Nat) (qmin : Int) (m : Nat) (e : Int) : Nat × Int :=
  if m = 0 then (0, qmin) else
  let q := max ((bitLen m : Int) + e - p) qmin
  let k := if e ≥ q then m * 2 ^ (e - q).toNat else rneShift m (q - e).toNat
  if k = 2 ^ p then (k / 2, q + 1) else (k, q)

/-- Code of the largest finite magnitude of a format. -/
def Fmt.maxCode (f : Fmt) : Nat :=
  match f.sp with
  | .ieee => (2 ^ f.ew - 1) * 2 ^ f.mw - 1
  | .e4m3 => 2 ^ (f.ew + f.mw) - 2
  | .none => 2 ^ (f.ew + f.mw) - 1

/-- The sign bit placed above a magnitude code. -/
def Fmt.signed (f : Fmt) (neg : Bool) (code : Nat) : Nat := (if neg then 2 ^ (f.ew + f.mw) else 0) + code

/-- What a magnitude beyond the largest finite becomes (Table 5-9). -/
def Fmt.over (f : Fmt) (sat neg : Bool) : Nat :=
  match f.sp with
  | .ieee => if sat ∧ f.ew + f.mw < 8 then f.signed neg f.maxCode else f.signed neg ((2 ^ f.ew - 1) * 2 ^ f.mw)
  | .e4m3 => if sat then f.signed neg f.maxCode else f.nanCode
  | .none => f.signed neg f.maxCode

/-- Round an exact value once into a format, to nearest even, subnormals kept (R96, R107, Table 5-9). -/
def Fmt.enc (f : Fmt) (sat : Bool) : Fl → Nat
  | .nan => f.nanCode
  | .inf s =>
    match f.sp with
    | .ieee => f.signed s ((2 ^ f.ew - 1) * 2 ^ f.mw)
    | .e4m3 => if sat then f.signed s f.maxCode else f.nanCode
    | .none => f.signed s f.maxCode
  | .fin s m e =>
    let r := roundDyadic (f.mw + 1) (1 - (f.bias : Int) - f.mw) m e
    if r.1 < 2 ^ f.mw then f.signed s r.1
    else
      let code := ((r.2 + f.mw + f.bias).toNat) * 2 ^ f.mw + (r.1 - 2 ^ f.mw)
      if code > f.maxCode then f.over sat s else f.signed s code

/-- The value of an FP32 word. -/
def dec32 (w : Word) : Fl := fp32.dec w.toNat

/-- round_fp32 (R96). -/
def enc32 (x : Fl) : Word := BitVec.ofNat 32 (fp32.enc false x)

namespace Fl

/-- The signed integer a finite datum has at exponent `q ≤ e`. -/
def at_ (neg : Bool) (m : Nat) (e q : Int) : Int :=
  let v : Int := (m * 2 ^ (e - q).toNat : Nat)
  if neg then -v else v

/-- A signed integer at exponent `q` as a datum, zero positive. -/
def ofInt (v : Int) (q : Int) : Fl := .fin (v < 0) v.natAbs q

def neg : Fl → Fl
  | nan => nan
  | inf s => inf !s
  | fin s m e => fin (!s) m e

def abs : Fl → Fl
  | nan => nan
  | inf _ => inf false
  | fin _ m e => fin false m e

def isNan : Fl → Bool
  | nan => true
  | _ => false

def isZero : Fl → Bool
  | fin _ m _ => m == 0
  | _ => false

def isFin : Fl → Bool
  | fin .. => true
  | _ => false

/-- Sign of a datum. -/
def sign : Fl → Bool
  | nan => false
  | inf s => s
  | fin s _ _ => s

/-- The exact sum; opposite infinities give NaN, two −0 give −0, an exact zero otherwise is +0 (R96). -/
def add : Fl → Fl → Fl
  | nan, _ => nan
  | _, nan => nan
  | inf s, inf t => if s = t then inf s else nan
  | inf s, fin .. => inf s
  | fin .., inf t => inf t
  | fin s m e, fin t n f =>
    if m = 0 ∧ n = 0 then fin (s && t) 0 0
    else
      let q := min e f
      ofInt (at_ s m e q + at_ t n f q) q

def sub (a b : Fl) : Fl := add a b.neg

/-- The exact product (IEEE 754-2019 multiplication). -/
def mul : Fl → Fl → Fl
  | nan, _ => nan
  | _, nan => nan
  | inf s, inf t => inf (s != t)
  | inf s, fin t m _ => if m = 0 then nan else inf (s != t)
  | fin s m _, inf t => if m = 0 then nan else inf (s != t)
  | fin s m e, fin t n f => fin (s != t) (m * n) (e + f)

/-- Order of two data that are not NaN, zeros equal: −1, 0, 1. -/
def cmp : Fl → Fl → Int
  | inf s, inf t => if s = t then 0 else if s then -1 else 1
  | inf s, _ => if s then -1 else 1
  | _, inf t => if t then 1 else -1
  | fin s m e, fin t n f =>
    let q := min e f
    (at_ s m e q - at_ t n f q).sign
  | _, _ => 0

/-- R135's order: −0 below +0; neither is NaN. -/
def lt0 (a b : Fl) : Bool := cmp a b < 0 || (cmp a b == 0 && a.isZero && b.isZero && a.sign && !b.sign)

/-- The exact quotient by a positive integer as a datum that rounds as the quotient does at 60 bits or fewer. -/
def divNat (a : Fl) (n : Nat) : Fl :=
  match a with
  | fin s m e =>
    let q := m * 2 ^ 128 / n
    fin s (2 * q + (if q * n = m * 2 ^ 128 then 0 else 1)) (e - 129)
  | x => x

/-- A datum scaled by 2^k. -/
def scale (k : Int) : Fl → Fl
  | fin s m e => fin s m (e + k)
  | x => x

end Fl

/-- round_fp32 of a sum, difference, product. -/
def add32 (a b : Word) : Word := enc32 ((dec32 a).add (dec32 b))
def sub32 (a b : Word) : Word := enc32 ((dec32 a).sub (dec32 b))
def mul32 (a b : Word) : Word := enc32 ((dec32 a).mul (dec32 b))

/-- An integer rounded once to FP32. -/
def intTo32 (v : Int) : Word := enc32 (Fl.ofInt v 0)

/-- The integer nearest an exact value, ties to even; the magnitude is rounded and the sign put back. -/
def Fl.toInt (x : Fl) : Int :=
  match x with
  | .fin s m e =>
    let k : Int := (if e ≥ 0 then m * 2 ^ e.toNat else rneShift m (-e).toNat : Nat)
    if s then -k else k
  | _ => 0

/-- The value clamped into [lo, hi]. -/
def clampInt (lo hi v : Int) : Int := if v < lo then lo else if v > hi then hi else v

/-- FP32 to a signed integer range: nearest even, saturating, NaN to 0 (Tables 5-9, 7-3). -/
def Fl.toSat (lo hi : Int) : Fl → Int
  | .nan => 0
  | .inf s => if s then lo else hi
  | x => clampInt lo hi x.toInt

/-- The 13 element formats of Tables 5-2 and 7-4: FP8, FP6, FP4 with their MX uses; none for the integer ones. -/
def elementFmt : Nat → Option Fmt
  | 0x2 | 0x8 => some e4m3
  | 0x3 | 0x9 => some e5m2
  | 0x4 | 0xA => some e2m3
  | 0x5 | 0xB => some e3m2
  | 0x6 | 0xC => some e2m1
  | 0xE => some bf16
  | 0xF => some fp16
  | _ => none

/-- Width in bits of operand-format code `c` (Tables 5-1, 5-2). -/
def operandBits (c : Nat) : Nat :=
  if c = 1 then 4 else if c = 0 ∨ c = 0xD then 8 else ((elementFmt c).map Fmt.width).getD 8

/-- The value of an element of operand-format code `c` (Tables 5-1, 5-2). -/
def operandDec (c code : Nat) : Fl :=
  match c with
  | 0x0 => Fl.ofInt (toSigned 8 code) 0
  | 0x1 => Fl.ofInt (toSigned 4 code) 0
  | 0xD => Fl.ofInt (toSigned 8 code) (-6)
  | _ => match elementFmt c with
    | some f => f.dec code
    | none => .nan

/-- Bits `[o, o + w)` of a little-endian bit stream (R89). -/
def streamBits (bs : List Byte) (o w : Nat) : Nat := leNat ((bs.drop (o / 8)).take ((o % 8 + w + 7) / 8)) / 2 ^ (o % 8) % 2 ^ w

/-- Pack elements of `w` bits into bytes, least significant bit first (R89). -/
def packBits (w : Nat) (es : List Nat) : List Byte :=
  leBytes (ceilDiv (w * es.length) 8) (es.foldr (fun e a => e % 2 ^ w + 2 ^ w * a) 0)

/-- emax of an MX element format by operand-format code (Table 5-10). -/
def mxEmax : Nat → Int
  | 0x8 => 8
  | 0x9 => 15
  | 0xA => 2
  | 0xB => 4
  | 0xC => 2
  | _ => 0

/-- One MX element: v / 2^X rounded to the element format and saturated (R108 step 5). -/
def mxElement (c : Nat) (sat : Bool) (x : Int) (v : Fl) : Nat :=
  match c with
  | 0xD => BitVec.toNat (BitVec.ofInt 8 (clampInt (-127) 127 ((v.scale (6 - x)).toInt)))
  | _ => match elementFmt c with
    | some f => f.enc sat (v.scale (-x))
    | none => 0

/-- floor(log₂ of a finite non-zero magnitude). -/
def Fl.floorLog2 : Fl → Int
  | .fin _ m e => (bitLen m : Int) - 1 + e
  | _ => 0

/-- Quantise the values of a block: scale byte and element codes (R108). -/
def mxQuantise (c : Nat) (sat : Bool) (vs : List Fl) : Nat × List Nat :=
  if vs.any (fun v => !v.isFin) then (0xFF, vs.map fun _ => 0)
  else
    let amax := vs.foldl (fun a v => if Fl.cmp a v.abs < 0 then v.abs else a) (.fin false 0 0)
    let x := if amax.isZero then -127 else max (amax.floorLog2 - mxEmax c) (-127)
    ((x + 127).toNat, vs.map (mxElement c sat x))

/-- Element times 2^(X − 127); a scale byte of 0xFF gives NaN (R88, R136). -/
def mxValue (c code scale : Nat) : Fl :=
  if scale = 0xFF then .nan else (operandDec c code).scale ((scale : Int) - 127)

/-- Convert an FP32 word into an output format of R107 with the SAT bit. -/
def convert (f : Fmt) (sat : Bool) (w : Word) : Nat := f.enc sat (dec32 w)

/-- FP32 to INT8 (Table 5-9). -/
def convertInt8 (w : Word) : Nat := (BitVec.ofInt 8 ((dec32 w).toSat (-128) 127)).toNat

/-- The exact class's long accumulator with its special state (R91, R92): 0 finite, 1 +∞, 2 −∞, 3 NaN. -/
structure Long where
  value : Int
  special : Nat
  deriving DecidableEq, Repr, Inhabited

def Long.zero : Long := ⟨0, 0⟩

/-- Special states combine: NaN is final, opposite infinities give NaN (R92). -/
def joinSpecial (a b : Nat) : Nat := if a = 0 then b else if b = 0 then a else if a = b then a else 3

/-- Add two long partials (R91, R92). -/
def Long.add (a b : Long) : Long := ⟨a.value + b.value, joinSpecial a.special b.special⟩

/-- An exact product as a long partial: its value times 2⁴⁰ (R91). -/
def Long.ofFl : Fl → Long
  | .nan => ⟨0, 3⟩
  | .inf s => ⟨0, if s then 2 else 1⟩
  | .fin s m e =>
    let v : Int := if e + 40 ≥ 0 then (m * 2 ^ (e + 40).toNat : Nat) else (m / 2 ^ (-(e + 40)).toNat : Nat)
    ⟨if s then -v else v, 0⟩

/-- A long partial as a datum. -/
def Long.toFl (a : Long) : Fl :=
  match a.special with
  | 0 => Fl.ofInt a.value (-40)
  | 1 => .inf false
  | 2 => .inf true
  | _ => .nan

/-- R93: accumulator, SCALE_A and SCALE_B multiplied exactly and rounded once; an exact zero is +0. -/
def Long.scaled (a : Long) (sa sb : Word) : Word :=
  match ((a.toFl.mul (dec32 sa)).mul (dec32 sb)) with
  | .fin s m e => if m = 0 then 0 else enc32 (.fin s m e)
  | x => enc32 x

/-- Table 5-4: 16 bytes of a LONG element; a value outside the field is the nearest it can hold (R104). -/
def Long.toBytes (a : Long) : List Byte :=
  let v := if a.special = 0 then clampInt (-(2 ^ 99)) (2 ^ 99 - 1) a.value else 0
  leBytes 16 ((BitVec.ofInt 100 v).toNat + a.special % 4 * 2 ^ 100)

/-- Read a LONG element; reserved bits are ignored (Table 5-4). -/
def Long.ofBytes (bs : List Byte) : Long :=
  let n := fieldAt bs 0 16
  let sp := n / 2 ^ 100 % 4
  ⟨if sp = 0 then (BitVec.ofNat 100 n).toInt else 0, sp⟩

/-- Value of node (L, j) of the canonical tree over leaves given as values or absent: an absent child passes the other
through; two present children add and round once (R95). -/
def canonNode (op : Word → Word → Word) (leaf : Nat → Option Word) : Nat → Nat → Option Word
  | 0, j => leaf j
  | l + 1, j =>
    match canonNode op leaf l (2 * j), canonNode op leaf l (2 * j + 1) with
    | some a, some b => some (op a b)
    | some a, none => some a
    | none, b => b

/-- One level of the tree on a list of neighbours. -/
def canonLevel (op : Word → Word → Word) : List (Option Word) → List (Option Word)
  | a :: b :: r =>
    (match a, b with
     | some x, some y => some (op x y)
     | some x, none => some x
     | none, y => y) :: canonLevel op r
  | [a] => [a]
  | [] => []

/-- Fold a list of leaves 0 … n − 1 by the canonical tree (R95), one level at a time. -/
def canonFold (op : Word → Word → Word) : Nat → List (Option Word) → Option Word
  | 0, xs => xs.head?.join
  | f + 1, xs =>
    match xs with
    | [] => none
    | [x] => x
    | _ => canonFold op f (canonLevel op xs)

/-- The canonical sum of leaves that start at absolute position `k0`: earlier leaves are absent (R95, R102). -/
def canonSum (k0 : Nat) (xs : List (Option Word)) : Option Word :=
  canonFold add32 (bitLen (k0 + xs.length)) (List.replicate k0 none ++ xs)

/-- [k0, k1) in leaves covers exactly one node of the tree over n leaves (R100). -/
def isNode (k0 k1 n : Nat) : Bool :=
  (List.range 18).any fun l => k0 % 2 ^ l == 0 && k1 == min (k0 + 2 ^ l) n && k0 < k1

end Sys2Proof.Machine
end

