-- ==== Sys2Proof/Config.lean ====
section
/-! DEFINITION. What a variant fixes (Tables 0-1, 2-13, 1-3), and the values the manual leaves open, as constants without a body. -/
namespace Sys2Proof

/-- Variants of Table 0-1. -/
inductive Variant
  | bramble | damson | sloe
  deriving DecidableEq, Repr, Inhabited

namespace Variant

/-- Matrix cores (Table 2-13, item 0x0001). -/
def cores : Variant → Nat
  | bramble | damson => 64
  | sloe => 32

/-- The west compute die is present (Table 0-1). -/
def west : Variant → Bool
  | sloe => false
  | _ => true

/-- The radio subsystem is present (Table 0-1). -/
def radio : Variant → Bool
  | damson => false
  | _ => true

/-- The Wyrraop fabric is present (Table 0-1). -/
def fabric : Variant → Bool
  | sloe => false
  | _ => true

/-- Ethernet ports (item 0x000D). -/
def ethPorts : Variant → Nat
  | sloe => 2
  | _ => 4

/-- Usable main memory in MiB (item 0x0008). -/
def memoryMiB : Variant → Nat
  | sloe => 507904
  | _ => 1015808

/-- Nominal CLU capacity (item 0x000B before R323 and R328). -/
def nominalClu : Variant → Nat
  | bramble => 1024
  | damson => 0
  | sloe => 512

/-- Radio memory reservation in MiB (item 0x0012). -/
def radioMiB : Variant → Nat
  | bramble => 32768
  | damson => 0
  | sloe => 16384

/-- Power domain `d` exists on the variant (Table 1-3). -/
def domainPresent (v : Variant) (d : Nat) : Bool :=
  d < 20 && !(v == sloe && (d == 4 || d == 5 || d == 6 || d == 7 || d == 9 || d == 11 || d == 15))
    && !(v == damson && (d == 12 || d == 13 || d == 14))

/-- The domains that exist, as a mask. -/
def domainMask (v : Variant) : Nat :=
  (List.range 20).foldl (fun m d => if v.domainPresent d then m + 2 ^ d else m) 0

/-- Default radio-eligible set: one core per quarter, none on Damson (R192). -/
def defaultRadioSet : Variant → Nat
  | bramble => 0x0101010101010101
  | damson => 0
  | sloe => 0x01010101

/-- Unit presence mask (Table 2-12). -/
def presence : Variant → Nat
  | bramble => 0x7FF
  | damson => 0x7F7
  | sloe => 0x739

/-- The size table (Table 2-13) with item 0x000B as it now stands (R323, R328). -/
def sizeTable (v : Variant) (clu : Nat) : List (Nat × Nat) :=
  [(0x1, v.cores), (0x2, 128), (0x3, 128), (0x4, 2097152), (0x5, 32), (0x6, 16 + 65536 * 16), (0x7, 67108864),
   (0x8, v.memoryMiB), (0x9, if v.fabric then 8 else 0), (0xA, 16), (0xB, clu), (0xC, if v.radio then 128 else 0),
   (0xD, v.ethPorts), (0xE, 64), (0xF, 4096), (0x10, 65536), (0x11, 4096), (0x12, v.radioMiB)]

end Variant

/-- Parents of a power domain (Table 1-3). -/
def domainParents (d : Nat) : List Nat :=
  if d < 4 then [8] else if d < 8 then [9] else if d = 8 ∨ d = 9 then [19] else if d = 10 then [8]
  else if d = 11 then [9] else if d ≤ 15 then [19] else if d ≤ 17 then [18, 19] else if d = 19 then [18] else []

/-- Every domain of `on` has its parents in `on` (R16). -/
def parentsOn (on : Nat) : Bool :=
  (List.range 20).all fun d => !on.testBit d || (domainParents d).all fun p => on.testBit p

namespace Config

/-- A value the spec leaves open, drawn fresh: `freeWord n` for the n-th draw (log 4). -/
opaque freeWord : Nat → Word
/-- What a configuration register reads that nothing has written, by function and register (log 103). -/
opaque configWord : Nat → Nat → Word
/-- Registers above the header at which the capabilities of configuration space begin: PCI Express, MSI-X, AER, SR-IOV (log 103). -/
opaque capPlace : Nat → Nat
/-- A byte the spec leaves open, drawn fresh (log 4). -/
opaque freeByte : Nat → Byte
/-- round_fp32(s / 0) for P5 statistic parts that cover no column (R113): the spec states no result (log 4). -/
opaque meanOfNone : Word → Word
/-- What a canonical stack's results rest on after a push whose t does not rise (R140): a function of what it held and the push. -/
opaque stackOpen : List Nat → Word
/-- Word `i` of the Torvast signal-core library image (R305): its contents are not in the spec. -/
opaque kernelLibrary : Nat → Word
/-- LMS verification of a header's first 56 bytes against its signature (R449). -/
opaque lmsVerify : List Byte → List Byte → Bool
/-- An LMS signature, 2,828 bytes, made with one-time index `i` (R456). -/
opaque lmsSign : Nat → List Byte → List Byte
/-- SHA-256 (R449, Table 22-5), a function the spec names and does not give. -/
opaque sha256 : List Byte → List Byte
/-- Bytes of ST_IDKEY, the identity public key and its certificate (R458). -/
opaque idKey : Nat → Byte
/-- Serial number of the module record (Table 22-1). -/
opaque serial : Dbl
/-- SHA-256 of the boot ROM and of the module record (Table 22-5). -/
opaque romDigest : List Byte
opaque recordDigest : List Byte
/-- Repair map of core `c` in the module record (R82): logical lanes and columns served by spares. -/
opaque repairLanes : Nat → List Nat
opaque repairCols : Nat → List Nat
/-- Shift of base graph `bg` at row, column for lifting size `z` (TS 38.212, not in the spec): none where the graph has no edge. -/
opaque baseGraph : Nat → Nat → Nat → Nat → Option Nat
/-- Parity bits of the LDPC code (TS 38.212 clause 5.3.2, not in the spec): base graph, lifting size, information bits. -/
opaque ldpcParity : Nat → Nat → List Bool → List Bool
/-- Bits of a byte are taken most significant first: the spec states no bit order for bit strings in memory (log 47). -/
opaque msbFirst : Bool
/-- Polar coding (TS 38.212 clauses 5.3.1, 7.1–7.3, 6.3, not in the spec): the coded bits of a descriptor's numbers
[uplink, N, K, E, CRC bits] and information bits with their CRC. -/
opaque polarEncode : List Nat → List Bool → List Bool
/-- Final paths of list decoding, by list index: decided bits and path metric, for [uplink, N, K, E, CRC bits, L] and soft bits. -/
opaque polarPaths : List Nat → List Int → List (List Bool × Nat)
/-- Correlation power p[n] of R338 (input, L_RA, root u, position): the spec states no precision for the transform. -/
opaque prachPower : List Byte → Nat → Nat → Nat → Nat
/-- Zones of TS 38.211 clause 6.3.3.1 for (L_RA, root, N_CS, set): how many, and where the v-th starts. -/
opaque prachCount : Nat → Nat → Nat → Nat → Nat
opaque prachZone : Nat → Nat → Nat → Nat → Nat → Nat
/-! FAPI messages follow SCF 10.04, which the spec names and does not give (R290). -/

/-- Bytes of the first message of a block, by its own header. -/
opaque fapiLength : List Byte → Nat
/-- Which message it is: 0 PARAM, 1 CONFIG, 2 START, 3 STOP, 4 DL_TTI, 5 UL_TTI, 6 UL_DCI, 7 TX_Data request; any other number is a
message that is not supported. -/
opaque fapiKind : List Byte → Nat
/-- SFN and slot a slot request is for. -/
opaque fapiSlot : List Byte → Nat × Nat
/-- Bandwidth in MHz, SCS code, transmit and receive antennas of a CONFIG.request's carrier. -/
opaque fapiCarrier : List Byte → List Nat
/-- A PDU of the message is outside Table 13-5. -/
opaque fapiOutside : List Byte → Bool
/-- A request is held in full, with what else is held for its slot. -/
opaque fapiWhole : List Byte → List (List Byte) → Bool
/-- A message the device writes: 0 PARAM.response, 1 CONFIG.response, 2 STOP.indication, 3 ERROR.indication, 4 SLOT.indication,
5 RACH.indication, with its numbers. -/
opaque fapiMessage : Nat → List Nat → List Byte
/-- Maximum transmission bandwidth configuration in resource blocks, TS 38.101-1 Table 5.3.2-1, which R283 cites
(PRESUMED, log 30): SCS code, then (MHz, resource blocks); a pair not listed is not permitted. -/
def nrbTable : Nat → List (Nat × Nat)
  | 0 => [(5, 25), (10, 52), (15, 79), (20, 106), (25, 133), (30, 160), (40, 216), (50, 270)]
  | 1 => [(5, 11), (10, 24), (15, 38), (20, 51), (25, 65), (30, 78), (40, 106), (50, 133), (60, 162), (70, 189),
      (80, 217), (90, 245), (100, 273)]
  | 2 => [(10, 11), (15, 18), (20, 24), (25, 31), (30, 38), (40, 51), (50, 65), (60, 79), (70, 93), (80, 107),
      (90, 121), (100, 135)]
  | _ => []
/-- Resource blocks for SCS code and bandwidth; 0 where not permitted. -/
def nrb (scs mhz : Nat) : Nat := ((nrbTable scs).lookup mhz).getD 0
/-- Decibel figures of R346 from two sums, in 0.1 dB: ten times 10·log₁₀(a/b) rounded. -/
opaque deciBel : Nat → Nat → Int
/-- Hash by which the fabric engine picks among the live ports of a route entry (R249): source, destination, choices. -/
opaque routeHash : Nat → Nat → Nat → Nat
/-- Answers the response store has room for beyond the first (R244). -/
opaque responseRoom : Nat
/-- Hash by which a line address picks a home atomic unit (R233). -/
opaque homeUnit : Nat → Nat
/-- Hash of address bits 47:12 that selects an L2 slice (R163). -/
opaque sliceHash : Nat → Nat
/-- Port `p` of node `n` leads to a child in the barrier tree (R259, R419): an image names the parent port only. -/
opaque barrierChild : Nat → Nat → Bool
/-- XOFF threshold of a lossless priority's share in bytes (R352). -/
opaque xoff : Nat
/-- Kind of a firmware-defined event source 56–255 (Table 18-1): true for level. -/
opaque evLevel : Nat → Bool
/-- Running time in nanoseconds of the path from a symbol to a head message leaving the port (R340). -/
opaque headLatency : Nat

/-- Cell a fronthaul entry of a record ring belongs to, by its payload: Table 20-1 gives it no field (R417). -/
opaque entryCell : List Byte → Nat

end Config
end Sys2Proof
end

