-- ==== Sys2Proof/Machine/State.lean ====
section
/-! DEFINITION. The state of one VX1 module as plain data, its faults and refusals, and the state right after module reset.
Every field's comment names its width, the rule that gives it and its value at reset. -/
namespace Sys2Proof.Machine

/-- Stops of the machine. -/
inductive Fault
  /-- Raised by `exec` when an access names host memory outside the 64-bit IOVA space (R48): no such address exists. Safe. -/
  | noSuchAddress
  deriving DecidableEq, Repr

/-- Commands without a meaning. -/
inductive Refusal
  /-- Raised by `exec` for a command that is not modelled. Safe. -/
  | notModelled (mnemonic : String)
  deriving DecidableEq, Repr

/-- Byte memory: (address, byte), addresses strictly rising, no entry equal to 0, which an unlisted address reads as. -/
abbrev Memory := List Host.Cell

/-- A reply ring's record before it is written (Table 2-6); accept mark, time and phase are added at the write. -/
structure Reply where
  tag : Nat
  status : Nat
  ctx : Nat
  final : Bool
  origin : Bool
  step : Nat
  result : List Byte
  deriving DecidableEq, Repr, Inhabited

/-- A submitted packet that is not accepted yet (R28, R30). -/
structure Submitted where
  /-- its bytes in stream order -/
  bytes : List Byte
  /-- stream position of the header -/
  pos : Nat
  /-- discarded with BAD_SEAL; it only waits for its bytes to be freed in stream order -/
  bad : Bool
  deriving DecidableEq, Repr, Inhabited

/-- What one PCI Express function holds: command window, HW_ registers and reply ring. -/
structure Fn where
  /-- bytes last written to the 64 KiB window, by offset; 02 R28; reset 0 -/
  window : Memory
  /-- offsets written since their bytes were last freed; 02 R28; reset none -/
  written : NMap Bool
  /-- offsets written since the device began to expect this header; 02 R28; reset none -/
  touched : NMap Bool
  /-- offsets last written by a poisoned TLP; 03 R67; reset none -/
  poisoned : NMap Bool
  /-- stream position of the next expected header, mod 2^32; 02 R29; reset 0 -/
  expect : Nat
  /-- submitted packets not yet accepted, stream order; 02 R30; reset none -/
  submitted : List Submitted
  /-- accept mark, 16 bits; 02 R30; reset 0 -/
  mark : Nat
  /-- HW_WIN_CTL.READY; 02 Table 2-4; reset 1 -/
  ready : Bool
  /-- HW_WIN_CTL.HALTED; 02 Table 2-4; reset 0 -/
  halted : Bool
  /-- HW_WIN_CTL.HALT_CAUSE, 2 bits; 02 Table 2-4; reset 0b00 -/
  haltCause : Nat
  /-- a resynchronisation waits for the acceptance of the packets submitted before it; 02 R32; reset 0 -/
  resync : Bool
  /-- agreed protocol version, 8 bits; 02 R41; reset 0x10 -/
  version : Nat
  /-- last accepted packet of scope T still to complete, for R26; 02 R26; reset none -/
  lastT : Option Nat
  /-- HW_REPLY_MOD, 32 bits; 02 Table 2-7; reset TIME 8, COUNT 16 -/
  replyMod : Word
  /-- HW_RING_BASE_LO, 32 bits; 03 Table 3-4; reset 0 -/
  baseLo : Word
  /-- HW_RING_BASE_HI, 32 bits; 03 Table 3-4; reset 0 -/
  baseHi : Word
  /-- HW_RING_CFG.ENABLE; 03 Table 3-5; reset 0 -/
  enable : Bool
  /-- HW_RING_CFG.VECTOR, 6 bits; 03 Table 3-5; reset 0 -/
  vector : Nat
  /-- HW_RING_CFG.SIZE_LOG2, 5 bits; 03 Table 3-5; reset 12 -/
  sizeLog2 : Nat
  /-- HW_RING_HEAD, 17 bits; 03 Table 3-6; reset 0 -/
  head : Nat
  /-- HW_RING_TAIL, 17 bits; 03 Table 3-6; reset 0 -/
  tail : Nat
  /-- records held because the ring is full or disabled, oldest first, up to 256; 02 R37; reset none -/
  held : List Reply
  /-- records of packets that failed before they became commands and found 256 records held, oldest first; 02 R35, R37; reset none -/
  owed : List Reply
  /-- records written since the last interrupt; 02 R36; reset 0 -/
  sinceIrq : Nat
  /-- local-counter time at which the oldest of those was written; 02 R36; reset 0 -/
  oldestAt : Nat
  /-- MSI-X messages raised on the ring's vector; 02 R36; reset 0 -/
  msix : Nat
  /-- HW_TENANT_STATE.HOST_LOST; 03 Table 3-7; reset 0 -/
  hostLost : Bool
  /-- HW_TENANT_STATE.HB_EXPIRED; 03 Table 3-7; reset 0 -/
  hbExpired : Bool
  /-- HW_NOTICE_DROP, 16 bits, saturating; 03 Table 3-9a; reset 0 -/
  noticeDrop : Nat
  deriving DecidableEq, Repr, Inhabited

/-- Context states (Table 3-12). -/
inductive CtxState
  | closed | live | dead | closing
  deriving DecidableEq, Repr, Inhabited

/-- A sequence of the serving loop (Table 9-7, R201). -/
structure Sequence where
  /-- command that submitted it, for its tag -/
  tag : Nat
  prompt : Nat
  promptLen : Nat
  /-- prompt tokens read at admission (R205) -/
  tokens : List Nat
  maxNew : Nat
  seed : Dbl
  temperature : Word
  topP : Word
  topK : Nat
  stops : List Nat
  ident : Nat
  /-- 0 prefill, 1 decode -/
  decoding : Bool
  /-- prompt tokens done -/
  done : Nat
  /-- last token -/
  last : Nat
  /-- prompt and generated tokens -/
  len : Nat
  slot : Nat
  pages : List Nat
  /-- cancelled while a step was in progress (R206) -/
  cancelled : Bool
  deriving DecidableEq, Repr, Inhabited

/-- Serving configuration (Table 9-5). -/
structure Serving where
  program : Nat
  programBytes : Nat
  budget : Nat
  chunk : Nat
  batch : Nat
  rowMask : Nat
  kvRows : Nat
  logits : Nat
  vocab : Nat
  maxLen : Nat
  pages : Nat
  maxSeqs : Nat
  watchdog : Nat
  deriving DecidableEq, Repr, Inhabited

/-- One row of a composed batch that is sampled after the step (R201): row, sequence identifier. -/
structure SampleRow where
  row : Nat
  ident : Nat
  deriving DecidableEq, Repr, Inhabited

/-- A context's recording (R415, Table 20-1). -/
structure Recording where
  ring : Nat
  bytes : Nat
  sources : Nat
  cell : Nat
  end_ : Nat
  entries : Nat
  step : Dbl
  seed : Dbl
  version : Nat
  deriving DecidableEq, Repr, Inhabited

/-- A context's replay in progress (R417). -/
structure Replaying where
  ring : Nat
  sendRemote : Bool
  /-- command of the REPLAY_START -/
  id : Nat
  /-- offset of the next entry -/
  next : Nat
  fed : Nat
  total : Nat
  deriving DecidableEq, Repr, Inhabited

/-- A context (03, 20). -/
structure Ctx where
  /-- context state; 03 Table 3-12; reset closed -/
  st : CtxState
  /-- priority, 3 bits; 03 R57; reset 0 -/
  prio : Nat
  /-- step counter, 64 bits; 20 R411; reset 0 -/
  step : Dbl
  /-- context seed, 64 bits; 20 R411; reset 0 -/
  seed : Dbl
  /-- last packet of the context accepted and not completed, for R26; 02 R26; reset none -/
  last : Option Nat
  /-- serving configuration; 09 R197; reset none -/
  serving : Option Serving
  /-- queued sequences; 09 R204; reset none -/
  queue : List Sequence
  /-- running sequences in admission order; 09 R201; reset none -/
  running : List Sequence
  /-- a step is in progress: sampled rows, and when it started; 09 R201–R203; reset none -/
  stepping : Option (List SampleRow × Option Nat)
  /-- the step's packets have completed and its rows are being sampled; 09 R201; reset 0 -/
  sampling : Bool
  /-- status with which a packet of the step in progress failed; 09 R202; reset none -/
  stepFailed : Option (Nat × Nat)
  /-- time of the step that did not accrue for clocks below 16/16, in sixteenths of 0.25 ns; 21 R426; reset 0 -/
  stepSlow : Nat
  /-- recording; 20 R415; reset none -/
  recording : Option Recording
  /-- replay in progress; 20 R417; reset none -/
  replaying : Option Replaying
  /-- Cooper abandonment mark; 07 R150; reset 0 -/
  cooperMark : Bool
  /-- refusals held for the next FENCE: KEY_REJECTED, NOT_OWNER, FENCED counts; 10 R223, 11 R256; reset 0 -/
  refused : Nat × Nat × Nat
  /-- nodes whose stream broke with operations of the context outstanding, not yet reported; 10 R220, R232; reset none -/
  lost : List Nat
  deriving DecidableEq, Repr, Inhabited

/-- A block of a compressible object as stored (Table 8-7); an unlisted block is a zero block. -/
structure MapEntry where
  /-- 0 raw, 1 compressed, 2 zero, 3 reserved -/
  st : Nat
  sectors : Nat
  poison : Bool
  check : Nat
  deriving DecidableEq, Repr, Inhabited

/-- A memory object of a tenant (08). -/
structure Obj where
  /-- bytes; 08 Table 8-2 -/
  size : Nat
  /-- home tier 2, 3 or 4; 08 R156 -/
  home : Nat
  /-- COMPRESS; 08 Table 8-2 -/
  compress : Bool
  /-- alphabet in force: 0 raw, 1 byte, 2 nibble; 08 R172 -/
  alphabet : Nat
  /-- DIE field; 08 Table 8-2 -/
  die : Nat
  /-- import number of a T3 home; 08 Table 8-2 -/
  imp : Nat
  /-- base in the region or host IOVA; 08 Table 8-2 -/
  base : Nat
  /-- bytes charged to the quota; 08 R156 -/
  charged : Nat
  /-- effective level, 1 to 4; 08 R159 -/
  level : Nat
  /-- move in progress: 0 steady, 1 raising, 2 lowering; 08 R160 -/
  moving : Nat
  /-- level the move goes to; 08 R160 -/
  target : Nat
  /-- promotion level by context; 08 R159 -/
  promos : NMap Nat
  /-- pin count by context; 08 R159 -/
  pins : NMap Nat
  /-- contents held above the home: all of them while a copy stands above it, else those of dirty lines; an unlisted byte reads zero; 08 R159, R160 -/
  data : Memory
  /-- contents of a T2 home's storage; 08 R157 -/
  store : Memory
  /-- lines modified above the home; 08 R160 -/
  dirty : NMap Bool
  /-- bytes of a modified line of a T3 home that this module does not hold, 64 bits; 10 R219, R227 -/
  hole : NMap Nat
  /-- ownership epoch under which a modified line of a T3 home was written; 10 R228 -/
  epochs : NMap Nat
  /-- poisoned lines; 19 R397 -/
  poison : NMap Bool
  /-- block map of a compressible object; 08 R169 -/
  blocks : NMap MapEntry
  /-- commands whose reply waits for a move, each with its context's promotion level before it (0 none); 08 R160, R175 -/
  waiting : List (Nat × Nat)
  /-- a copy-target export of the object is incomplete; 10 R235 -/
  incomplete : Bool
  deriving DecidableEq, Repr, Inhabited

/-- A tenant (03, 09, 08). -/
structure Tenant where
  /-- provisioned; 03 R54; reset 0 (1 for tenant 0) -/
  provisioned : Bool
  /-- context count; 03 Table 3-10; reset 0 (64 for tenant 0) -/
  contexts : Nat
  /-- priority ceiling, 3 bits; 03 Table 3-10; reset 0 (7 for tenant 0) -/
  ceiling : Nat
  /-- memory quota, MiB; 03 Table 3-10; reset 0 -/
  quota : Nat
  /-- core mask, 64 bits; 03 Table 3-10; reset 0 (every core for tenant 0) -/
  coreMask : Nat
  /-- core share, 11 bits; 03 Table 3-10; reset 0 -/
  share : Nat
  /-- export limit, 8 bits; 03 Table 3-10; reset 0 -/
  exports : Nat
  /-- import limit, 8 bits; 03 Table 3-10; reset 0 -/
  imports : Nat
  /-- context watchdog period, ms; 03 R61; reset 1,000 -/
  watchdog : Nat
  /-- heartbeat period, ms, 0 off; 03 R62; reset 0 -/
  heartbeat : Nat
  /-- local-counter time the heartbeat period in progress started; none once it has expired; 03 R62; reset none -/
  hbStart : Option Nat
  /-- contexts by number; 03 R57; reset every one closed -/
  ctxs : NMap Ctx
  /-- token counts, 16 bits each; 09 R178; reset 0 -/
  tokens : NMap Nat
  /-- memory objects by handle; 08 R154; reset none -/
  objs : NMap (Option Obj)
  /-- handle last assigned; 08 R154; reset 0 -/
  lastHandle : Nat
  /-- program handles 0–63: object handle and instruction words; 07 R144; reset none -/
  programs : NMap (List Dbl)
  /-- bytes charged for program objects; 07 R144; reset 0 -/
  programCharge : Nat
  /-- core time used in a 1 ms window: millisecond of Sexton time, then 0.25 ns on the east and on the west die; 09 R187; reset 0 -/
  used : Nat × Nat × Nat
  deriving DecidableEq, Repr, Inhabited

/-- Where a packet came in (Table 2-8). -/
inductive Entry
  | mgmt | pf | vf | remote
  deriving DecidableEq, Repr, Inhabited

/-- Stages of an accepted command (R179–R196). -/
inductive Stage
  /-- waits for its grant (R179) -/
  | accepted
  /-- granted, waits for its unit or a core -/
  | granted
  /-- started -/
  | started
  /-- started, its effect made, its completion waits for an event -/
  | waiting
  /-- complete with status and result, waits to be posted (R196) -/
  | done
  deriving DecidableEq, Repr, Inhabited

/-- An accepted command (02, 09). -/
structure Cmd where
  /-- acceptance number; 09 R187 -/
  id : Nat
  /-- entry; 02 Table 2-8 -/
  entry : Entry
  tenant : Nat
  ctx : Nat
  opcode : Nat
  /-- header flags byte -/
  flags : Nat
  tag : Nat
  waits : List Nat
  signals : List Nat
  params : List Byte
  stage : Stage
  /-- local-counter times -/
  acceptedAt : Nat
  /-- output time at acceptance; 17 R374 -/
  acceptedOut : Nat
  startedAt : Nat
  /-- core it runs on -/
  core : Option Nat
  /-- die whose completion queue holds its reserved entry; 09 R195 -/
  queue : Option Nat
  /-- run limit L, 10 ns; 09 R188 -/
  limit : Nat
  /-- command that must complete first; 02 R26 -/
  prev : Option Nat
  /-- packet of a step program: writes no record; 09 R202 -/
  program : Bool
  /-- fed from a record ring; 20 R417 -/
  replayed : Bool
  /-- the command started, so its tokens are signalled; 09 R181 -/
  signalled : Bool
  /-- CHECK_CONFIG's FORCE named its tenant when it started; 19 R403 -/
  forced : Bool := false
  /-- check disagreement waiting for its replay: 0 none, else the INJECT kind that caused it, 10 for the check column's own
  comparison; 19 R390–R393, Table 19-6 -/
  disputed : Nat
  /-- replay in progress: the original core and the disagreement it settles; 19 R393 -/
  replay : Option (Nat × Nat)
  /-- VECTOR_RUN: the image current when it started; 07 R144 -/
  image : List Dbl
  /-- SAMPLE: the context's step counter when it started; 09 R207 -/
  atStep : Dbl
  /-- VECTOR_RUN: writes to other modules, held until its checks have passed; 10 R222 -/
  posts : List (Nat × Nat × List Byte)
  status : Nat
  result : List Byte
  /-- per-destination sequence numbers it waits for (2^32: never acknowledged); 10 R231, R228 -/
  fence : List (Nat × Nat)
  /-- local-counter time at which its wait in progress began; 10 R215, R216, R230, R232 -/
  since : Nat
  /-- bytes that follow the record in an MCTP response; 02 R43 -/
  trailer : List Byte
  /-- time that did not accrue for clocks below 16/16, in sixteenths of 0.25 ns; 21 R426 -/
  slowed : Nat
  deriving DecidableEq, Repr, Inhabited

/-- A tile of 16 × 16 elements of 32 bits, element (r, c) at 16 r + c (Table 7-1). -/
abbrev Tile := Vector Word 256

/-- Level entries of one canonical stack: (level, first chunk, value) (R97, R140). -/
abbrev CStack := List (Nat × Nat × Option Word)

/-- Program-visible state of a vector engine while a program runs (Table 7-1). -/
structure Ve where
  /-- program image the command started with; 07 R144 -/
  image : List Dbl
  /-- tile registers V0–V31; 07 R128; start 0 -/
  tiles : Vector Tile 32
  /-- predicate tiles Q0–Q7 as 256 bits each; 07 R128; start all ones -/
  preds : Vector (BitVec 256) 8
  /-- scalar registers S0–S15, 64 bits; 07 R128; start 0, arguments in S8–S15 -/
  scalars : Vector Dbl 16
  /-- canonical stacks 0–15; 07 R128; start empty -/
  cstacks : Vector CStack 16
  /-- last t pushed on each stack, for R140's rule on rising t -/
  lastPush : Vector (Option Nat) 16
  /-- program counter, 13 bits; 07 R128; start the entry -/
  pc : Nat
  /-- bindings: reference, stride, readable, writable; 07 Table 7-12 -/
  binds : List (Nat × Nat × Bool × Bool)
  /-- instructions executed; 07 R148 -/
  executed : Nat
  /-- command that runs; 07 R128 -/
  cmd : Nat
  /-- program handle; 07 Table 7-15 -/
  handle : Nat
  /-- cycle after the last issue, counted from the first; 07 R131; start 0 -/
  cycle : Nat
  /-- cycle from which a register may be read: tiles 0–31, predicates 32–39, scalars 40–55, stacks 56; 07 R131; start 0 -/
  ready : NMap Nat
  deriving DecidableEq, Repr

/-- A context resident on a core (R189). -/
structure Resident where
  tenant : Nat
  ctx : Nat
  /-- bytes of its region -/
  bytes : Nat
  /-- protected until its first command has started; 09 R191 -/
  guarded : Bool
  /-- when its last command on the core completed; 09 R191 -/
  lastUse : Nat
  deriving DecidableEq, Repr, Inhabited

/-- A matrix core with its vector engine and scratchpad (04, 07, 09, 19). -/
structure Core where
  /-- command running; 04 Table 4-6; reset none -/
  running : Option Nat
  /-- quarantined; 04 R84, 19 R393; reset 0 -/
  quarantined : Bool
  /-- quarantine lasts until module reset; 19 R394; reset 0 -/
  sticky : Bool
  /-- MC_STATUS.BIST_PASS; 04 Table 4-6; reset 0 -/
  bistPass : Bool
  /-- MC_STATUS.CHECK_SUSPECT; 04 Table 4-6; reset 0 -/
  suspect : Bool
  /-- MC_STATUS MODE and SPLIT of the running command (BANK is computed from its cycles); 04 Table 4-6; reset 0 -/
  mode : Nat
  split : Nat
  /-- MC_REPAIR_LANES, 32 bits; 04 Table 4-7; reset 0xFFFFFFFF -/
  repairLanes : Word
  /-- MC_REPAIR_COLS, 32 bits; 04 Table 4-8; reset 0x0000FFFF -/
  repairCols : Word
  /-- vector program state while one runs; 07 R128; reset none -/
  ve : Option Ve
  /-- VE_STATUS.PC of the last instruction issued, 13 bits; 07 Table 7-15; reset 0 -/
  vePc : Nat
  /-- being removed for a power change; 01 R17; reset 0 -/
  removing : Bool
  /-- resident contexts, up to 4; 09 R189; reset none -/
  residents : List Resident
  /-- spill in progress: the victim's region and the context coming in, each unless it was dropped meanwhile; 09 R190; reset none -/
  spilling : Option (Option Resident × Option Resident)
  /-- fill in progress; 09 R190; reset none -/
  filling : Option Resident
  /-- injected single- and double-bit marks of scratchpad bytes; 19 Table 19-6; reset none -/
  scratchErr : NMap Nat
  /-- check-column offset, flipped product, lane mismatch armed by INJECT; 19 Table 19-6; reset 0 -/
  inject : Nat × Nat × Nat
  /-- lane pair the shadow unit samples next, 0–63; 19 R392; reset 0 -/
  pair : Nat
  /-- local-counter times of the latest radio check disagreements; 19 R395; reset none -/
  radioBad : List Nat
  deriving DecidableEq, Repr

/-- A radio command (09). -/
structure RadioCmd where
  id : Nat
  cell : Nat
  /-- running time, 0.25 ns -/
  time : Nat
  disagree : Bool
  issuedAt : Nat
  /-- core and start time -/
  run : Option (Nat × Nat)
  deriving DecidableEq, Repr, Inhabited

/-- The open round of a Cooper (R149, Table 7-17). -/
structure Round where
  tenant : Nat
  ctx : Nat
  tag : Nat
  n : Nat
  int : Bool
  /-- leaves received -/
  leaves : NMap (Option Tile)
  openedAt : Nat
  deriving DecidableEq, Repr

/-- An export record (Table 10-4). -/
structure Export where
  base : Nat
  length : Nat
  key : Dbl
  tenant : Nat
  ctx : Nat
  handle : Nat
  offset : Nat
  mode : Nat
  operation : Nat
  remoteCmd : Bool
  readOnly : Bool
  complete : Bool
  marker : Dbl
  owner : Nat
  epoch : Nat
  /-- write importers; 10 Table 10-4 -/
  writers : List Nat
  copyWriter : Option Nat
  /-- revocation in progress: the command that waits for the owner's write-back (0 for a function-level reset); 10 R216, R218 -/
  revoking : Option Nat
  /-- local-counter time at which that wait, or a hand-over, began; 10 R216, R230 -/
  since : Nat
  /-- hand-over in progress: the owner and epoch before it; 10 R230 -/
  handing : Option (Nat × Nat)
  /-- arrival counts of the two halves of a receive region; 12 R267 -/
  arrivals : Option (Nat × Nat)
  deriving DecidableEq, Repr, Inhabited

/-- An import record (R214). -/
structure Import where
  tenant : Nat
  node : Nat
  base : Nat
  key : Dbl
  length : Nat
  mode : Nat
  operation : Nat
  write : Bool
  copyWriter : Bool
  readOnly : Bool
  owner : Nat
  epoch : Nat
  /-- marked dead by a detach; 11 R253 -/
  dead : Bool
  deriving DecidableEq, Repr, Inhabited

/-- A posted or probing operation not yet acknowledged (R220). -/
structure Outstanding where
  seq : Nat
  tenant : Nat
  ctx : Nat
  cmd : Nat
  /-- 0 store, 1 atomic, 2 write-back, 3 ownership change, 4 probe, 5 release notice, 6 receive signal, 7 write-back request,
  8 owner notice, 9 load (its command: the reader), 10 notice that a copy is complete -/
  kind : Nat
  offset : Nat
  /-- when it was issued, and when it was last sent -/
  issuedAt : Nat
  sentAt : Nat
  pkt : FabPkt
  deriving DecidableEq, Repr, Inhabited

/-- What an operation that reaches its home asks for (R219, R224, R228, R214, R218). -/
inductive HomeKind
  | load | store | atomic | writeBack | ownerChange | probe | release | notice | writeBackAsk
  deriving DecidableEq, Repr, Inhabited

/-- An operation at its home: its packet, the rights of a probe or the owner of an ownership change, when it came. -/
structure HomeOp where
  kind : HomeKind
  pkt : FabPkt
  arg : Nat
  at_ : Nat
  deriving DecidableEq, Repr, Inhabited

/-- Messages the fabric engine sends to other nodes on its own: answers (R214, R221, R223), requests (R216, R228), signals
(R272), forwarded leases (R254), notices (R218), resends (R220), barrier signals (R419), what a port presents in training (R251). -/
inductive SentKind
  | ack | keyRejected | notOwner | fenced | data | probed | importRefused | ownerTold | writeBackAsked | released | signal
  | lease | status | resent | barrierArm | barrierRelease | presented
  deriving DecidableEq, Repr, Inhabited

/-- A message sent: to which node (port, for a barrier signal or in training), its number (sequence, offset or command), stream epoch,
payload. -/
structure Sent where
  node : Nat
  kind : SentKind
  number : Nat
  epoch : Nat
  data : List Byte
  poison : Bool
  deriving DecidableEq, Repr, Inhabited

/-- A line of another module's region brought into L2 for one reader: a command, or a move (R227). -/
structure Fetched where
  reader : Nat
  node : Nat
  /-- line of the home's fabric space -/
  line : Nat
  bytes : List Byte
  poison : Bool
  deriving DecidableEq, Repr, Inhabited

/-- What passes from this module to itself through its own sequencing (R211): an operation, an answer, a receive signal. -/
inductive Loop
  | op (o : Outstanding)
  | answer (m : Sent)
  | signal (p : FabPkt) (token after : Nat)
  deriving DecidableEq, Repr

/-- Requester's side of a stream to one node (R220). -/
structure StreamOut where
  epoch : Nat
  next : Nat
  acked : Nat
  pending : List Outstanding
  lastAck : Nat
  deriving DecidableEq, Repr, Inhabited

/-- Home's side of a stream from one node (R220, R246). -/
structure StreamIn where
  epoch : Nat
  /-- next sequence number to apply -/
  next : Nat
  /-- operations ahead of a gap, in the 64 KiB reorder store -/
  reorder : List HomeOp
  deriving DecidableEq, Repr, Inhabited

/-- An entry of a home atomic unit (R233). -/
structure HomeEntry where
  line : Nat
  /-- local-counter time at which its operations are absorbed and it drains; 10 R234 -/
  drained : Nat
  deriving DecidableEq, Repr, Inhabited

/-- A packet waiting at a port's output: length, source and destination node, arrival time, arbitrations lost (R245). -/
structure OutPkt where
  bytes : Nat
  src : Nat
  dst : Nat
  /-- ingress port it came in on, 8 if it originated here -/
  from_ : Nat
  at_ : Nat
  losses : Nat
  deriving DecidableEq, Repr, Inhabited

/-- A Wyrraop port (11). -/
structure WfPort where
  /-- WF_PORT_STATUS.STATE, 3 bits; 11 Table 11-12; reset 0 -/
  st : Nat
  /-- WF_PORT_STATUS.WIDTH, 2 bits; 11 Table 11-12; reset 0 -/
  width : Nat
  /-- WF_PORT_STATUS.LOS; 11 Table 11-12; reset 0 -/
  los : Bool
  /-- WF_PORT_STATUS.CAUSE, 3 bits; 11 Table 11-12; reset 0 -/
  cause : Nat
  /-- WF_PORT_NEIGHBOUR: rank, node, 16 bits each; 11 Table 11-13; reset 0xFFFF -/
  nRank : Nat
  nNode : Nat
  /-- WF_PORT_DELAY, 24 bits; 11 Table 11-13; reset 0 -/
  delay : Nat
  /-- credit held towards the neighbour per channel and shared, 32-byte units; 11 R243; reset 0 -/
  credit : NMap Nat
  /-- shared-pool credit held; 11 R243; reset 0 -/
  shared : Nat
  /-- packets waiting at the output per channel, oldest first; 11 R245; reset none -/
  out : NMap (List OutPkt)
  /-- next link sequence numbers sent and expected; 11 R240; reset 0 -/
  txSeq : Nat
  rxSeq : Nat
  /-- round-robin position; 11 R245; reset 0 -/
  turn : Nat
  /-- control bytes sent in the current 1 µs window and the window's start; 11 R245; reset 0 -/
  control : Nat × Nat
  /-- when it went down, or was fenced, for the retry; 11 R241, R251; reset 0 -/
  since : Nat
  /-- 32-byte units of the ingress buffer in use per channel; 11 R243; reset 0 -/
  ingress : NMap Nat
  /-- units freed whose credit is still to be returned, per channel; 11 R243; reset 0 -/
  owed : NMap Nat
  /-- replay buffer: frames sent and not acknowledged, oldest first; 11 R240; reset none -/
  frames : List LinkFrame
  /-- frames of it sent since its last replay began; 11 R240; reset 0 -/
  replayed : Nat
  /-- consecutive replays of the oldest frame; 11 R241; reset 0 -/
  tries : Nat
  /-- a frame was dropped and its replay is to be asked for; 11 R240; reset 0 -/
  again : Bool
  deriving DecidableEq, Repr, Inhabited

/-- A barrier of the 16 (R419). -/
structure Barrier where
  /-- BARRIER_ARM command armed here -/
  armed : Option Nat
  /-- child ports whose arm has arrived -/
  arms : List Nat
  /-- remaining delay of a release received, and when; 0.25 ns -/
  release : Option (Int × Nat)
  /-- an arm has been passed up -/
  sent : Bool
  /-- cores held at the feeder for commands waiting on this barrier; 20 R420 -/
  heldCores : List (Nat × Nat)
  deriving DecidableEq, Repr, Inhabited

/-- The Wyrraop fabric engine (10, 11, 20). -/
structure Fabric where
  /-- WF_PART_STATUS.STATE, 2 bits; 11 Table 11-10; reset 0 detached -/
  st : Nat
  /-- WF_PART_STATUS.LEASED; 11 Table 11-10; reset 0 -/
  leased : Bool
  /-- node number, 16 bits; 11 R247; reset 0xFFFF -/
  node : Nat
  /-- partition number, 16 bits; 11 Table 11-11; reset 0 -/
  partition : Nat
  /-- rank, 16 bits; 11 Table 11-11; reset 0xFFFF -/
  rank : Nat
  /-- partition epoch, 32 bits; 11 Table 11-11; reset 0 -/
  epoch : Nat
  /-- WF_STATUS.FENCED; 10 Table 10-13, 11 R246; reset: detached, so fenced -/
  fenced : Bool
  /-- lease key, 64 bits; 11 Table 11-3; reset 0 -/
  leaseKey : Dbl
  /-- lease expiry on the local counter; 11 R255; reset none -/
  expiry : Option Nat
  /-- last applied lease sequence; 11 R255; reset none -/
  leaseSeq : Option Nat
  /-- members of the partition; 11 Table 11-4; reset none -/
  members : NMap Bool
  /-- route masks at 2 d + class, 8 bits; 11 Table 11-4; reset 0 -/
  routes : NMap Nat
  /-- neighbour node and rank of each port in the image; 11 Table 11-4; reset unused -/
  neighbours : NMap (Option (Nat × Nat))
  /-- barrier parent port, 0xFF root; 11 Table 11-4; reset 0xFF -/
  parent : Nat
  /-- WF_IMAGE staging window bytes; 11 R247; reset 0 -/
  image : Memory
  /-- export records by export number; 10 Table 10-4; reset none -/
  exports : NMap (Option Export)
  /-- import records by import number; 10 R214; reset none -/
  imports : NMap (Option Import)
  /-- ranges of fabric space kept free after revocation: (base, length, until); 10 R212; reset none -/
  resting : List (Nat × Nat × Nat)
  /-- streams to other nodes; 10 R220; reset none -/
  out : NMap (Option StreamOut)
  /-- streams from other nodes; 10 R220; reset none -/
  into : NMap (Option StreamIn)
  /-- entries of the 8 home atomic units; 10 R233; reset empty -/
  units : NMap (List HomeEntry)
  /-- operations waiting in ingress buffers for a free entry, per unit; 10 R233; reset none -/
  waiting : NMap (List HomeOp)
  /-- messages sent, newest first; 10 R221, R223; reset none -/
  sent : List Sent
  /-- lines of other modules' regions fetched for their readers; 10 R227; reset none -/
  lines : List Fetched
  /-- operations and answers on their way from this module to itself; 10 R211; reset none -/
  loop : List Loop
  /-- port in use (plus 1) for a source, destination and class, at 2^17 source + 2 destination + class; 11 R249; reset none -/
  paths : NMap Nat
  /-- ports WP0–WP7; 11 R239; reset idle -/
  ports : NMap WfPort
  /-- barriers 0–15; 20 R419; reset unarmed -/
  barriers : NMap Barrier
  deriving DecidableEq, Repr, Inhabited

/-- Cell states (Table 13-4). -/
inductive CellState
  | admitted | configured | running | holdover | muted
  deriving DecidableEq, Repr, Inhabited

/-- Head loop settings and state of a time-domain cell (Table 15-8, R341–R343). -/
structure Head where
  flags : Nat
  target : Int
  hysteresis : Nat
  attack : Nat
  decay : Nat
  burst : Nat
  a : Nat
  step : Nat
  hold : Int
  /-- gain in force per antenna, 0.25 dB -/
  gains : List Nat
  /-- gain words of this slot and later: (antenna, gain, output time at which it takes effect) -/
  words : List (Nat × Nat × Nat)
  /-- manual gains and word waiting for the next slot boundary -/
  manual : List (Nat × Nat)
  manualWord : Option Int
  /-- settings waiting for the next slot boundary -/
  pending : Option (List Int)
  /-- previous symbol's power in 0.01 dBFS and whether every symbol of the slot so far was low, per antenna -/
  prev : NMap (Option Int)
  allLow : NMap (Option Bool)
  frozen : Bool
  /-- the freeze came from a PRACH occasion that is still running -/
  prachFreeze : Bool
  /-- gains at the slot's symbol 0 -/
  gain0 : List Nat
  freq : Int
  /-- eCPRI control messages sent: (kind, antenna, value) -/
  sent : List (Nat × Nat × Int)
  deriving DecidableEq, Repr, Inhabited

/-- An admitted cell (13). -/
structure Cell where
  st : CellState
  /-- CELL_CONFIG bytes 0–55; 13 Table 13-2 -/
  config : List Byte
  /-- CLU cost; 13 R280 -/
  cost : Nat
  /-- accepted CONFIG.request; 13 R286 -/
  fapi : List Byte
  /-- system frame number and slot in progress; 13 R287 -/
  sfn : Nat
  slot : Nat
  /-- a start is pending: its commands (0 for a FAPI START.request), output time at which the cell becomes running; 13 R287 -/
  starting : Option (List Nat × Nat)
  /-- a stop is pending: its commands (0 for a FAPI STOP.request); 13 R287 -/
  stopping : List Nat
  /-- messages held for coming slots: (sfn, slot, bytes); 13 R291 -/
  held : List (Nat × Nat × List Byte)
  /-- the slot in progress is a fill slot; 13 R294 -/
  fill : Bool
  /-- ring offset of the next batch and wrap count; 13 R292, Table 13-7 -/
  ringAt : Nat
  lap : Nat
  /-- the slot in progress has no accepted UL_TTI.request; 13 R294 -/
  noUplink : Bool
  /-- open fronthaul windows: (symbol, uplink); 13 R293 -/
  windows : List (Nat × Bool)
  /-- downlink symbols not sent for lateness, and late or missing uplink events; 13 R296, R297 -/
  unsent : Nat
  missing : Nat
  /-- holdover must mute at the next slot boundary; 13 R299 -/
  mutePending : Bool
  head : Option Head
  /-- preambles detected and not yet reported: SFN, slot, preamble, timing advance, power and SNR; 15 R339 -/
  rach : List (List Nat)
  /-- figures of the latest slot: WE_Q_EVM, WE_Q_SINR, WE_Q_STAMP; 15 Table 15-11 -/
  qEvm : Nat
  qSinr : Nat
  qStamp : Nat
  deriving DecidableEq, Repr, Inhabited

/-- Register state of a signal core (Table 14-2). -/
structure ScRegs where
  d : Vector Word 16
  /-- accumulators: real, imaginary, 40 bits each -/
  acc : Vector (BitVec 40 × BitVec 40) 4
  p : Vector Word 8
  m : Vector Word 8
  l : Vector Word 8
  /-- loop levels innermost first: start, end, count -/
  loops : List (Nat × Nat × Nat)
  /-- return stack, innermost first -/
  stack : List Nat
  flg : Word
  best : Word
  bidx : Word
  icnt : Word
  sfmode : Bool
  pc : Nat
  /-- accumulators the previous instruction wrote; pointers, modifiers and modes (bits 0–7, 8–15, 16–23) that MOVR or ADDPI wrote in
  the previous instruction and in the one before; 14 R320 -/
  accNew : Nat
  ptr1 : Nat
  ptr2 : Nat
  deriving DecidableEq, Repr

/-- A signal core (14). -/
structure Sc where
  /-- job state while one runs; 14 R304; reset none -/
  job : Option ScRegs
  /-- cycles left of the cycle limit, entry of the job; 14 R304 -/
  left : Nat
  entry : Nat
  /-- X memory, 128 KiB, by byte address; 14 Table 14-1; reset 0 -/
  x : Memory
  /-- Y memory, 128 KiB, by byte offset; 14 Table 14-1; reset 0 -/
  y : Memory
  /-- SC_FAULT cause and PC; 14 Table 14-17; reset 0 -/
  fault : Nat × Nat
  /-- withdrawn; 14 R323; reset 0 -/
  quarantined : Bool
  /-- BIST_PASS; 14 Table 14-15; reset 0 -/
  bistPass : Bool
  /-- SC_STATUS.PC, last instruction issued; 14 Table 14-15; reset 0 -/
  pcSeen : Nat
  deriving DecidableEq, Repr

/-- A signal-core cluster (14). -/
structure Cluster where
  /-- shared memory, 4 MiB, by byte offset; 14 Table 14-1; reset 0 -/
  shared : Memory
  /-- program words that replace the library's; 14 R305; reset none -/
  pm : NMap Word
  /-- program memories hold an image; 14 Table 14-18 LOADED; reset 0 -/
  loaded : Bool
  /-- REPLACED; 14 Table 14-18; reset 0 -/
  replaced : Bool
  /-- HALT written; 14 Table 14-19; reset 0 -/
  halt : Bool
  /-- 32 flags; 14 R319; reset 0 -/
  flags : Word
  /-- PASSED, 16 bits; 14 Table 14-18; reset 0 -/
  passed : Nat
  deriving DecidableEq, Repr, Inhabited

/-- A token bucket (R358, R359): rate Mb/s, burst bytes, level in 1/32,000 byte, last update. -/
structure Bucket where
  rate : Nat
  burst : Nat
  level : Nat
  at_ : Nat
  deriving DecidableEq, Repr, Inhabited

/-- A frame in an egress queue: finish tag, length with FCS, payload, poisoned. -/
structure TxFrame where
  tag : Nat
  length : Nat
  bytes : List Byte
  poison : Bool
  deriving DecidableEq, Repr, Inhabited

/-- An egress queue (16). -/
structure Queue where
  /-- tenant bound; 16 R354; reset tenant 0 on queues 0–7, none on 8–63 -/
  tenant : Option Nat
  prio : Nat
  weight : Nat
  txRing : Nat
  rxRing : Nat
  entries : Nat
  vlan : Nat
  shaper : Bucket
  frames : List TxFrame
  /-- finish tag of the last frame queued -/
  lastTag : Nat
  deriving DecidableEq, Repr, Inhabited

/-- A VLAN policer (R359). -/
structure Policer where
  cir : Nat
  pir : Nat
  cbs : Nat
  pbs : Nat
  aware : Bool
  yellow : Nat
  red : Nat
  mark : Nat
  tc : Nat
  tp : Nat
  at_ : Nat
  deriving DecidableEq, Repr, Inhabited

/-- An Ethernet sub-port, by port number (16). -/
structure SubPort where
  /-- link: 0 down, 1 training, 2 up; 16 Table 16-8; reset 0 -/
  link : Nat
  /-- ENABLE; 16 Table 16-5; reset 0 -/
  enabled : Bool
  /-- MAC address, 48 bits; 16 Table 16-5; reset 0 DESIGN CHOICE -/
  mac : Nat
  /-- lossless priorities, 8 bits; 16 R352; reset 0 -/
  lossless : Nat
  /-- PFC asserted towards the partner; 16 Table 16-8; reset 0 -/
  xoff : Nat
  /-- priorities paused by received PFC; 16 Table 16-8; reset 0 -/
  paused : Nat
  /-- end of each pause on the local counter; 16 R352; reset 0 -/
  pauseEnd : NMap Nat
  /-- bytes of each priority in the ingress buffer; 16 R352; reset 0 -/
  ingress : NMap Nat
  /-- queues by number; 16 R354; reset the defaults -/
  queues : NMap (Option Queue)
  /-- system virtual time, 48 bits; 16 R357; reset 0 -/
  v : Nat
  /-- sub-port shaper; 16 R358; reset rate 0 -/
  shaper : Bucket
  /-- policers by VLAN; 16 R359; reset PIR 0 -/
  policers : NMap (Option Policer)
  /-- open transmit windows for queues 1–3; 16 R356; reset none -/
  window : Bool
  /-- frame in service: queue, local-counter time at which its last line byte leaves; 16 R356; reset none -/
  busy : Option (Nat × Nat)
  /-- frames sent: (queue, length, FCS inverted); 16 R356; reset none -/
  sent : List (Nat × Nat × Bool)
  deriving DecidableEq, Repr, Inhabited

/-- A PTP domain of Sexton (17). -/
structure Domain where
  /-- state: 0 disabled, 1 acquiring, 2 locked, 3 lost; 17 Table 17-2; reset 0 -/
  st : Nat
  /-- PTP domain number; 17 Table 17-7; reset 24 -/
  number : Nat
  /-- slave port; 17 Table 17-7; reset 0 -/
  slave : Nat
  /-- SyncE source, 0xFF none; 17 Table 17-7; reset 0xFF -/
  synce : Nat
  /-- master ports, 16 bits; 17 Table 17-7; reset 0 -/
  masters : Nat
  /-- lock threshold ns; 17 Table 17-7; reset 100 -/
  lock : Nat
  /-- loss threshold ns; 17 Table 17-7; reset 1,000 -/
  loss : Nat
  /-- asymmetry, signed 16 bits; 17 Table 17-7; reset 0 -/
  asym : Int
  /-- consecutive Syncs below the lock threshold; 17 Table 17-2; reset 0 -/
  good : Nat
  /-- last Announce or Sync from the parent; 17 Table 17-2; reset 0 -/
  heard : Nat
  /-- Announce and Sync both arriving again while LOST; 17 Table 17-2; reset none -/
  back : Bool × Bool
  /-- SX_OFFSET, domain time minus output time, in 0.25 ns / `sxUnit`; 17 R377; reset 0 -/
  offset : Int
  /-- SX_RATE, 2⁻¹⁶ ppb; 17 R377; reset 0 -/
  rate : Int
  deriving DecidableEq, Repr, Inhabited

/-- A pin trigger (R373, R374). -/
structure Trigger where
  armed : Bool
  flags : Nat
  /-- S, P, W in 0.25 ns of output time; remaining edges, none unbounded -/
  start : Nat
  period : Nat
  width : Nat
  left : Option Nat
  /-- next edge time -/
  next : Nat
  /-- edges produced -/
  edges : Nat
  /-- output time up to which the pin is held active -/
  until_ : Nat
  deriving DecidableEq, Repr, Inhabited

/-- A capture source (R375). -/
structure Capture where
  edges : Nat
  etherType : Nat
  /-- entries oldest first: time in 0.25 ns, flags, data -/
  fifo : List (Nat × Nat × Nat)
  drops : Nat
  /-- local counter at the last captured edge -/
  last : Option Nat
  deriving DecidableEq, Repr, Inhabited

/-- Sexton (17). -/
structure Sexton where
  /-- output time, 0.25 ns since the PTP epoch; 17 R364; reset 0 -/
  time : Nat
  /-- fraction of a unit of output time not yet counted, in `sxUnit` parts; 17 R364; reset 0 -/
  frac : Int
  /-- servo rate the output follows or holds, 2⁻¹⁶ ppb; 17 R369; reset 0 -/
  rate : Int
  /-- output state: 0 FREERUN, 1 LOCKED, 2 HOLDOVER; 17 R369; reset 0 -/
  out : Nat
  /-- selected domain; 17 Table 17-11; reset 0 -/
  selected : Nat
  /-- AUTO; 17 Table 17-11; reset 0 -/
  auto : Bool
  /-- slew limit ppb, 7 bits; 17 Table 17-11; reset 100 -/
  slewPpb : Nat
  /-- offset still to slew, 0.25 ns / `sxUnit`; 17 R369; reset none -/
  slew : Option Int
  /-- STEPPED; 17 Table 17-11; reset 0 -/
  stepped : Bool
  /-- domains A and B; 17 R367; reset disabled -/
  doms : Vector Domain 2
  /-- pin triggers 0–4; 17 R374; reset disarmed -/
  triggers : Vector Trigger 5
  /-- captures by source code; 17 Table 17-6; reset off -/
  captures : NMap Capture
  /-- Sync messages sent: (domain, port); 17 R367; reset none -/
  syncs : List (Nat × Nat)
  deriving DecidableEq, Repr

/-- An event source (18). -/
structure Source where
  /-- pending; 18 R378; reset 0 -/
  pending : Bool
  /-- owner while active; 18 Table 18-4; reset none -/
  owner : Option Nat
  /-- target mask, 12 bits; 18 Table 18-4; reset 0 -/
  mask : Nat
  /-- priority, 3 bits; 18 Table 18-4; reset 0 -/
  prio : Nat
  /-- present state of the input; 18 Table 18-4; reset 0 -/
  input : Bool
  deriving DecidableEq, Repr, Inhabited

/-- The event controller (18). -/
structure Ev where
  /-- sources 1–255; 18 R378; reset quiet -/
  src : NMap Source
  /-- thresholds of targets 0–11, 4 bits; 18 Table 18-5; reset 0 -/
  thresh : NMap Nat
  /-- EV_CTL.DISABLE; 18 Table 18-3; reset 0 -/
  disable : Bool
  deriving DecidableEq, Repr, Inhabited

/-- An error-log record (Table 19-5). -/
structure LogRec where
  seq : Nat
  time : Nat
  cls : Nat
  outcome : Nat
  island : Nat
  domain : Nat
  tenant : Nat
  ctx : Nat
  flags : Nat
  opcode : Nat
  tag : Nat
  status : Nat
  address : Nat
  count : Nat
  detail : Nat
  deriving DecidableEq, Repr, Inhabited

/-- Reliability state of Steward (19). -/
structure Rel where
  /-- error log, newest first, up to 8,192 records; 19 R401; reset empty -/
  log : List LogRec
  /-- sequence of the next record; 19 Table 19-5; reset 1 -/
  nextSeq : Nat
  /-- records overwritten, 32 bits, saturating; 19 R402, 00 R12; reset 0 -/
  lost : Nat
  /-- FORCE, 16 bits; 19 R403; reset 0 -/
  force : Nat
  /-- patrol-scrub period, hours; 19 R403; reset 24 -/
  period : Nat
  /-- quarantine events since module reset; 19 Table 19-7; reset 0 -/
  events : Nat
  /-- failed memory channels, 0–63 east, 64–127 west; 08 R167; reset none -/
  channels : NMap Bool
  /-- engines withdrawn, 36 bits; 15 R328; reset 0 -/
  engines : Nat
  /-- engines tested and healthy, 36 bits; 15 Table 15-10; reset 0 -/
  healthy : Nat
  /-- times of uncorrectable link errors of a channel within the last millisecond; 08 R167; reset none -/
  linkBad : NMap (List Nat)
  /-- injected DRAM errors by tenant and reference line: 1 single, 2 double; 19 Table 19-6; reset none -/
  dram : NMap Nat
  /-- Wyrraop packets and PCIe writes to be sent poisoned; 19 Table 19-6; reset 0 -/
  wfPoison : NMap Nat
  pciePoison : Nat
  /-- domains whose Clerk restarts: reports its island controllers hold, oldest first, and overflow counts by island; 01 R18; reset none -/
  clerkDown : NMap (Option (List LogRec × NMap Nat))
  deriving DecidableEq, Repr, Inhabited

/-- Stages of start-up (R429–R431). -/
inductive Boot
  | reset | starting | recovery | running
  deriving DecidableEq, Repr, Inhabited

/-- Power, clocks and pins (21). -/
structure Power where
  /-- stage of start-up; 21 R429; reset in reset -/
  boot : Boot
  /-- local-counter time of input-valid; 21 R430; reset 0 -/
  validAt : Nat
  /-- windows accept packets; 21 R430; reset 0 -/
  ready : Bool
  /-- PERST# asserted, and when it was released; 21 R430; reset asserted -/
  perst : Bool
  perstAt : Nat
  /-- domains on, 20 bits; 21 Table 21-15; reset 0 -/
  on : Nat
  /-- POWER_POLICY switch in progress: command, target state; 21 R433; reset none -/
  switching : Option (Nat × Nat)
  /-- PW_CTL cap in force W, 0 none; 21 R433; reset 0 -/
  cap : Nat
  /-- PW_INPUT: W, VIN in 10 mV; 21 Table 21-15; reset 0 -/
  watts : Nat
  vin : Nat
  /-- PW_TEMP east, west, hub, peak; 21 Table 21-15; reset 0 -/
  east : Nat
  west : Nat
  hub : Nat
  peak : Nat
  /-- brown-out episode: start and lowest VIN in 10 mV; 21 R425; reset none -/
  brown : Option (Nat × Nat)
  /-- cap and thermal clock in sixteenths, east and west thermal; 21 R434; reset 16 -/
  capClock : Nat
  hotEast : Nat
  hotWest : Nat
  /-- since when power and the east, west junction have stayed low; 21 R434; reset none -/
  coolEast : Option Nat
  coolWest : Option Nat
  /-- REF_LOST, bit 0 PCI Express, 1 Ethernet, 2 timing; 21 Table 21-14; reset 0 -/
  refLost : Nat
  /-- straps MADDR and SLOT; 21 Table 21-15; reset 0 -/
  maddr : Nat
  slotStrap : Nat
  /-- FAULT_N released; 21 R439; reset driven low -/
  faultReleased : Bool
  /-- module reset begins at this local-counter time; 21 R433, 22 R454; reset none -/
  resetAt : Option Nat
  /-- dynamic I3C address; 21 R445; reset none -/
  i3c : Option Nat
  /-- power of each domain, 0.1 W, 16 bits; 22 R460; reset 0 -/
  dpower : List Nat
  deriving DecidableEq, Repr, Inhabited

/-- Host link state (03). -/
structure Link where
  /-- link in L0; 03 R65; reset 0 -/
  up : Bool
  /-- host loss in force since; 03 R65; reset none -/
  lostAt : Option Nat
  /-- VF Enable and NumVFs; 03 R64; reset 0 -/
  vfEnable : Bool
  numVfs : Nat
  /-- HW_HOST_LOSS.MUTED, HOLDOVER; 03 Table 3-9; reset 0 -/
  muted : Bool
  holdover : Bool
  /-- HOLDOVER_MS, 16 bits; 03 Table 3-9; reset 2,000 -/
  holdoverMs : Nat
  /-- configuration words written, by function and register; 21 Table 21-6; reset 0 -/
  config : NMap Word
  /-- AER uncorrectable error status, 32 bits, sticky; 03 R67, 21 Table 21-6; reset 0 -/
  aer : Nat
  deriving DecidableEq, Repr, Inhabited

/-- A firmware slot (R448–R450). -/
structure FwSlot where
  /-- bytes staged; 22 Table 22-1 -/
  bytes : Memory
  /-- magic, format, generation, signature and digest all verify; 22 R450 -/
  sound : Bool
  version : Nat
  security : Nat
  hot : Bool
  digest : List Byte
  deriving DecidableEq, Repr, Inhabited

/-- Steward (22). -/
structure Steward where
  /-- the flash's two slots; 22 Table 22-1; kept by reset -/
  slots : Vector FwSlot 2
  /-- ACTIVE_SLOT counter; 22 Table 22-1; kept by reset -/
  active : Nat
  /-- SECURITY counter, 32 bits; 22 Table 22-1; kept by reset -/
  security : Nat
  /-- SIG_INDEX counter, 0 to 2^20; 22 Table 22-1; kept by reset -/
  sigIndex : Nat
  /-- RUN_SLOT; 22 Table 22-7; reset 0 -/
  run : Nat
  /-- FALLBACK; 22 Table 22-7; reset 0 -/
  fallback : Bool
  /-- STAGED: 0 empty, 1 UNVERIFIED, 2 VERIFIED; 22 Table 22-7; reset 0 -/
  staged : Nat
  /-- entry that owns the staging; 22 R452; reset none -/
  owner : Option Entry
  /-- ST_STAGE window bytes; 22 R452; reset 0 -/
  stage : Memory
  /-- hot restart in progress: command, start; 22 R455; reset none -/
  hot : Option (Nat × Nat)
  /-- local-counter times of signatures spent in the last 24 h; 22 R458; reset none -/
  spent : List Nat
  /-- last signature of each virtual function; 22 R458; reset none -/
  vfSpent : NMap (Option Nat)
  deriving DecidableEq, Repr

/-- A stream tracker of an L2 slice (R163, R164). -/
structure Tracker where
  tenant : Nat
  /-- 0 learned, 1 descriptor, 2 stager -/
  kind : Nat
  /-- descriptor of Table 8-6 -/
  desc : List Byte
  /-- elements touched, and when the last was -/
  touchedEl : Nat
  touchedAt : Nat
  /-- command whose stager set the stream, else 0 -/
  cmd : Nat
  deriving DecidableEq, Repr, Inhabited

/-- The whole machine. -/
structure State where
  /-- commands waiting, first in first out (the block's queue); reset empty -/
  pending : List Instr
  /-- which variant the module is; 00 Table 0-1; DESIGN CHOICE bramble (log 1), no command changes it -/
  variant : Variant
  /-- local counter, units of 0.25 ns, 64 bits; 17 R364; reset 0 -/
  now : Nat
  /-- the model's own count of free values drawn (log 4); DESIGN CHOICE 0 -/
  free : Nat
  /-- number of the last accepted command (the model's own, names commands); DESIGN CHOICE 0 (log 7) -/
  nextId : Nat
  /-- data of the last register read (the model's own observation point); DESIGN CHOICE [] (log 8) -/
  readData : List Word
  /-- 64-bit counters by the address of their _LO word; 04 R87; reset 0 -/
  ctr : NMap Nat
  /-- captures of counters by the address of their _LO word; 04 R87; reset 0 -/
  cap : NMap Nat
  /-- plain rw registers without behaviour of their own, by register address; 00 R10; reset 0 -/
  regs : NMap Word
  /-- host memory as each function reaches it, by function; 03 R48; environment, log 5 -/
  host : NMap Memory
  /-- host lines that read poisoned, by function × 2^58 + line; 03 R67; environment, log 5 -/
  hostPoison : NMap Bool
  /-- responses sent on the management port, newest first; 02 R38; reset none -/
  mctp : List (List Byte)
  /-- PCI Express functions; 03 Table 3-3; reset as each field gives -/
  fns : NMap Fn
  /-- tenants; 03 R55; reset as each field gives -/
  tenants : NMap Tenant
  /-- version agreed on the management port; 02 R41; reset 0x10 -/
  mgmtVersion : Nat
  /-- accepted commands in acceptance order; 09 R179; reset none -/
  cmds : List Cmd
  /-- radio commands issued and not posted; 09 R192; reset none -/
  radioCmds : List RadioCmd
  /-- radio-eligible set, 64 bits; 09 R192; reset the default set -/
  radioSet : Nat
  /-- Slot Guard limit G, 10 ns; 09 Table 9-12a; reset 2,000 -/
  guard : Nat
  /-- completion-queue entries reserved per die; 09 Table 9-12; reset 0 -/
  cqUsed : Nat × Nat
  /-- CQ_PEAK per die; 09 Table 9-12; reset 0 -/
  cqPeak : Nat × Nat
  /-- spilled regions per die: (die, resident); 09 R190; reset none -/
  spilled : List (Nat × Resident)
  /-- matrix cores; 04; reset idle -/
  cores : NMap Core
  /-- Coopers by quarter: open round; 07 R149; reset none -/
  coopers : NMap (Option Round)
  /-- stream trackers by slice × 16 + tracker; 08 R163; reset none -/
  trackers : NMap (Option Tracker)
  /-- fabric engine; 10, 11 -/
  fabric : Fabric
  /-- cells by number; 13 Table 13-4; reset none -/
  cells : NMap (Option Cell)
  /-- signal cores by number; 14; reset idle -/
  scs : NMap Sc
  /-- signal-core clusters; 14; reset idle -/
  clusters : NMap Cluster
  /-- status byte and summary bytes of each engine's last descriptor; 15 Table 15-2; reset none -/
  engineStatus : NMap (Nat × Nat)
  /-- mode of Ethernet ports EP0–EP3; 16 Table 16-1; reset 0 -/
  ethMode : NMap Nat
  /-- sub-ports by port number; 16; reset as each field gives -/
  eth : NMap SubPort
  /-- Sexton; 17 -/
  sx : Sexton
  /-- event controller; 18 -/
  ev : Ev
  /-- reliability; 19 -/
  rel : Rel
  /-- power; 21 -/
  pw : Power
  /-- host link; 03 -/
  link : Link
  /-- Steward; 22 -/
  st : Steward
  deriving DecidableEq, Repr

/-- A function's registers and ring at reset (Tables 2-4, 2-7, 3-4 to 3-9a). -/
def Fn.init : Fn :=
  { window := [], written := [], touched := [], poisoned := [], expect := 0, submitted := [], mark := 0, ready := true,
    halted := false, haltCause := 0, resync := false, version := 0x10, lastT := none, replyMod := 0x00080010, baseLo := 0, baseHi := 0,
    enable := false, vector := 0, sizeLog2 := 12, head := 0, tail := 0, held := [], owed := [], sinceIrq := 0, oldestAt := 0, msix := 0,
    hostLost := false, hbExpired := false, noticeDrop := 0 }

/-- A closed context (Table 3-12). -/
def Ctx.init : Ctx :=
  { st := .closed, prio := 0, step := 0, seed := 0, last := none, serving := none, queue := [], running := [],
    stepping := none, sampling := false, stepFailed := none, stepSlow := 0, recording := none, replaying := none, cooperMark := false, refused := (0, 0, 0), lost := [] }

/-- An unprovisioned tenant (R54). -/
def Tenant.init : Tenant :=
  { provisioned := false, contexts := 0, ceiling := 0, quota := 0, coreMask := 0, share := 0, exports := 0, imports := 0,
    watchdog := 1000, heartbeat := 0, hbStart := none, ctxs := [], tokens := [], objs := [], lastHandle := 0, programs := [],
    programCharge := 0, used := (0, 0, 0) }

/-- Tenant 0: 64 contexts, ceiling 7, from readiness onwards. Its quota, export and import limits are not stated (log 11). -/
def Tenant.zero (v : Variant) : Tenant :=
  { Tenant.init with provisioned := true, contexts := 64, ceiling := 7, quota := v.memoryMiB, coreMask := 2 ^ v.cores - 1,
                     exports := 255, imports := 255 }

/-- A matrix core at reset (Tables 4-6 to 4-8). -/
def Core.init : Core :=
  { running := none, quarantined := false, sticky := false, bistPass := false, suspect := false, mode := 0, split := 0,
    repairLanes := 0xFFFFFFFF, repairCols := 0x0000FFFF, ve := none, vePc := 0, removing := false,
    residents := [], spilling := none, filling := none, scratchErr := [], inject := (0, 0, 0), pair := 0, radioBad := [] }

/-- A port at reset (Tables 11-12, 11-13). -/
def WfPort.init : WfPort :=
  { st := 0, width := 0, los := false, cause := 0, nRank := 0xFFFF, nNode := 0xFFFF, delay := 0, credit := [], shared := 0,
    out := [], txSeq := 0, rxSeq := 0, turn := 0, control := (0, 0), since := 0, ingress := [], owed := [], frames := [], replayed := 0,
    tries := 0, again := false }

/-- The fabric engine at reset: detached and fenced (11, Partitions). -/
def Fabric.init : Fabric :=
  { st := 0, leased := false, node := 0xFFFF, partition := 0, rank := 0xFFFF, epoch := 0, fenced := true, leaseKey := 0,
    expiry := none, leaseSeq := none, members := [], routes := [], neighbours := [], parent := 0xFF, image := [], exports := [],
    imports := [], resting := [], out := [], into := [], units := [], waiting := [], sent := [], lines := [], loop := [], paths := [],
    ports := [], barriers := [] }

/-- A signal core at reset. -/
def Sc.init : Sc :=
  { job := none, left := 0, entry := 0, x := [], y := [], fault := (0, 0), quarantined := false, bistPass := false,
    pcSeen := 0 }

/-- A cluster at reset (Tables 14-18 to 14-20). -/
def Cluster.init : Cluster :=
  { shared := [], pm := [], loaded := false, replaced := false, halt := false, flags := 0, passed := 0 }

/-- A bucket at reset: rate 0, which disables it (R358). -/
def Bucket.init : Bucket := { rate := 0, burst := 0, level := 0, at_ := 0 }

/-- Queue `q` as its defaults give (R354, R357). -/
def Queue.init (q : Nat) : Queue :=
  { tenant := if q < 8 then some 0 else none, prio := if q < 4 then 6 else if q < 8 then 5 else 0,
    weight := if q < 8 then 512 else 1, txRing := 0, rxRing := 0, entries := 0, vlan := 0, shaper := Bucket.init,
    frames := [], lastTag := 0 }

/-- A sub-port at reset (Table 16-8). -/
def SubPort.init : SubPort :=
  { link := 0, enabled := false, mac := 0, lossless := 0, xoff := 0, paused := 0, pauseEnd := [], ingress := [],
    queues := [], v := 0, shaper := Bucket.init, policers := [], window := false, busy := none, sent := [] }

/-- A PTP domain at reset (Tables 17-2, 17-7). -/
def Domain.init : Domain :=
  { st := 0, number := 24, slave := 0, synce := 0xFF, masters := 0, lock := 100, loss := 1000, asym := 0, good := 0,
    heard := 0, back := (false, false), offset := 0, rate := 0 }

/-- A disarmed trigger. -/
def Trigger.init : Trigger :=
  { armed := false, flags := 0, start := 0, period := 0, width := 400000000, left := none, next := 0, edges := 0, until_ := 0 }

/-- A capture source that is off. -/
def Capture.init : Capture := { edges := 0, etherType := 0, fifo := [], drops := 0, last := none }

/-- Sexton at module reset: FREERUN, output time 0 (R369, Table 21-6). -/
def Sexton.init : Sexton :=
  { time := 0, frac := 0, rate := 0, out := 0, selected := 0, auto := false, slewPpb := 100, slew := none, stepped := false,
    doms := #v[Domain.init, Domain.init],
    triggers := #v[Trigger.init, Trigger.init, Trigger.init, Trigger.init, Trigger.init], captures := [], syncs := [] }

/-- A quiet event source (Table 18-4). -/
def Source.init : Source := { pending := false, owner := none, mask := 0, prio := 0, input := false }

/-- The event controller at reset (R384). -/
def Ev.init : Ev := { src := [], thresh := [], disable := false }

/-- Reliability state at reset (R401, R403). -/
def Rel.init : Rel :=
  { log := [], nextSeq := 1, lost := 0, force := 0, period := 24, events := 0, channels := [], engines := 0, healthy := 0,
    linkBad := [], dram := [], wfPoison := [], pciePoison := 0, clerkDown := [] }

/-- Power state at reset (Tables 21-14, 21-15). -/
def Power.init : Power :=
  { boot := .reset, validAt := 0, ready := false, perst := true, perstAt := 0, on := 0, switching := none, cap := 0,
    watts := 0, vin := 0, east := 0, west := 0, hub := 0, peak := 0, brown := none, capClock := 16, hotEast := 16,
    hotWest := 16, coolEast := none, coolWest := none, refLost := 0, maddr := 0, slotStrap := 0, faultReleased := false,
    resetAt := none, i3c := none, dpower := [] }

/-- The host link at reset (Table 3-9). -/
def Link.init : Link :=
  { up := false, lostAt := none, vfEnable := false, numVfs := 0, muted := false, holdover := false,
    holdoverMs := 2000, config := [], aer := 0 }

/-- An empty firmware slot. -/
def FwSlot.init : FwSlot := { bytes := [], sound := false, version := 0, security := 0, hot := false, digest := [] }

/-- Steward and the flash as shipped: slot 0 holds an image that verifies (log 12). -/
def Steward.init : Steward :=
  { slots := #v[{ FwSlot.init with sound := true }, FwSlot.init], active := 0, security := 0, sigIndex := 0, run := 0,
    fallback := false, staged := 0, owner := none, stage := [], hot := none, spent := [], vfSpent := [] }

/-- A module of variant `v` right after module reset, its flash holding what `f` holds (R435). -/
def State.resetFor (v : Variant) (f : Steward) : State :=
  { pending := [], variant := v, now := 0, free := 0, nextId := 0, readData := [], ctr := [], cap := [], regs := [],
    host := [], hostPoison := [], mctp := [], fns := [], tenants := [(0, Tenant.zero v)], mgmtVersion := 0x10, cmds := [],
    radioCmds := [], radioSet := v.defaultRadioSet, guard := 2000, cqUsed := (0, 0), cqPeak := (0, 0), spilled := [],
    cores := [], coopers := [], trackers := [], fabric := Fabric.init, cells := [], scs := [], clusters := [],
    engineStatus := [], ethMode := [], eth := [], sx := Sexton.init, ev := Ev.init, rel := Rel.init, pw := Power.init,
    link := Link.init, st := f }

/-- The machine right after reset. -/
def State.reset : State := State.resetFor .bramble Steward.init

end Sys2Proof.Machine
end

