-- ==== Sys2Proof/Machine/Ops.lean ====
section
/-! DEFINITION. The named operations over the state that every family uses: access to functions, tenants, contexts, cores and
commands; counters; byte memory; host memory; event sources; the error log; reply records. -/
namespace Sys2Proof.Machine

/-! ### Status codes (Table 2-14) -/

def stOK : Nat := 0x0000
def stPartial : Nat := 0x0001
def stDeferred : Nat := 0x0002
def stBadOpcode : Nat := 0x0100
def stBadLength : Nat := 0x0101
def stBadSeal : Nat := 0x0102
def stReserved : Nat := 0x0103
def stVersion : Nat := 0x0104
def stNotPermitted : Nat := 0x0105
def stUnitAbsent : Nat := 0x0106
def stNoResources : Nat := 0x0107
def stContextDead : Nat := 0x0108
def stWindowOverrun : Nat := 0x0109
def stChainRejected : Nat := 0x0200
def stSplit : Nat := 0x0201
def stOverrun : Nat := 0x0202
def stWaitTimeout : Nat := 0x0203
def stShape : Nat := 0x0204
def stPoison : Nat := 0x0300
def stResolved : Nat := 0x0301
def stUnresolved : Nat := 0x0302
def stTierFailed : Nat := 0x0303
def stKeyRejected : Nat := 0x0400
def stNotOwner : Nat := 0x0401
def stUnreachable : Nat := 0x0402
def stFenced : Nat := 0x0403
def stIncomplete : Nat := 0x0404
def stDenied : Nat := 0x0500
def stSlotLate : Nat := 0x0501

/-- A failed check: status and result bytes. -/
abbrev Fail := Nat × List Byte

/-- Not a status of Table 2-14, and none a command ends with: a read meets a line that must first be fetched from another module or
corrected. The body that meets it is undone (`reading`), and runs again once the line has been seen to. -/
def stAsk : Nat := 0x10000

/-- A failure whose result byte 0 is a reason. -/
def failWith (status reason : Nat) : Option Fail := some (status, leBytes 1 reason)

/-- The first failure of a list of (condition that must hold, failure). -/
def firstFail : List (Bool × Fail) → Option Fail
  | [] => none
  | (ok, f) :: r => if ok then firstFail r else some f

/-- A check line: what must hold, and status and reason otherwise. -/
def need (ok : Bool) (status reason : Nat) : Bool × Fail := (ok, (status, leBytes 1 reason))

/-! ### Time in units of 0.25 ns (R364) -/

def usec (n : Nat) : Nat := n * 4000
def msec (n : Nat) : Nat := n * 4000000

/-! ### Access -/

namespace State

def fn (s : State) (n : Nat) : Fn := NMap.get Fn.init s.fns n
def setFn (s : State) (n : Nat) (f : Fn) : State := { s with fns := NMap.set Fn.init s.fns n f }
def tenant (s : State) (t : Nat) : Tenant := NMap.get Tenant.init s.tenants t
def setTenant (s : State) (t : Nat) (x : Tenant) : State := { s with tenants := NMap.set Tenant.init s.tenants t x }
def ctx (s : State) (t c : Nat) : Ctx := NMap.get Ctx.init (s.tenant t).ctxs c
def setCtx (s : State) (t c : Nat) (x : Ctx) : State :=
  s.setTenant t { s.tenant t with ctxs := NMap.set Ctx.init (s.tenant t).ctxs c x }
def obj (s : State) (t h : Nat) : Option Obj := NMap.get none (s.tenant t).objs h
def setObj (s : State) (t h : Nat) (o : Option Obj) : State :=
  s.setTenant t { s.tenant t with objs := NMap.set none (s.tenant t).objs h o }
def core (s : State) (c : Nat) : Core := NMap.get Core.init s.cores c
def setCore (s : State) (c : Nat) (x : Core) : State := { s with cores := NMap.set Core.init s.cores c x }
def cell (s : State) (c : Nat) : Option Cell := NMap.get none s.cells c
def setCell (s : State) (c : Nat) (x : Option Cell) : State := { s with cells := NMap.set none s.cells c x }
def sc (s : State) (c : Nat) : Sc := NMap.get Sc.init s.scs c
def setSc (s : State) (c : Nat) (x : Sc) : State := { s with scs := NMap.set Sc.init s.scs c x }
def cluster (s : State) (k : Nat) : Cluster := NMap.get Cluster.init s.clusters k
def setCluster (s : State) (k : Nat) (x : Cluster) : State := { s with clusters := NMap.set Cluster.init s.clusters k x }
def cmd? (s : State) (id : Nat) : Option Cmd := s.cmds.find? fun c => c.id == id
def setCmd (s : State) (c : Cmd) : State := { s with cmds := s.cmds.map fun d => if d.id == c.id then c else d }
def dropCmd (s : State) (id : Nat) : State := { s with cmds := s.cmds.filter fun d => d.id != id }

end State

/-! ### Counters (R12, R87): 64 bits, saturating, by the address of the _LO word -/

def ctrMax : Nat := 2 ^ 64 - 1
def State.count (s : State) (addr : Nat) : Nat := NMap.get 0 s.ctr addr
def State.bump (s : State) (addr n : Nat) : State :=
  { s with ctr := NMap.set 0 s.ctr addr (min ctrMax (s.count addr + n)) }
/-- A high-water counter. -/
def State.bumpMax (s : State) (addr n : Nat) : State := { s with ctr := NMap.set 0 s.ctr addr (max n (s.count addr)) }
/-- Clear the counters whose addresses lie in [lo, hi); their captures stay (R87). -/
def State.clearCounters (s : State) (lo hi : Nat) : State := { s with ctr := NMap.drop (fun a => lo ≤ a && a < hi) s.ctr }
/-- A block's counters and captures are back at their reset values (R87). -/
def State.forgetCounters (s : State) (lo hi : Nat) : State :=
  { s.clearCounters lo hi with cap := NMap.drop (fun a => lo ≤ a && a < hi) s.cap }

/-! ### Counter addresses -/

def aMC (core off : Nat) : Nat := 0x01000000 + core * 0x1000 + off
def aVE (core off : Nat) : Nat := 0x01040000 + core * 0x1000 + off
def aCoop (q off : Nat) : Nat := 0x01080000 + q * 0x1000 + off
def aTI (t x off : Nat) : Nat := 0x02000000 + t * 0x1000 + x * 0x40 + off
def aTID (die off : Nat) : Nat := 0x02100000 + die * 0x1000 + off
def aDP (die off : Nat) : Nat := 0x03000000 + die * 0x1000 + off
def aEV (off : Nat) : Nat := 0x09000000 + off

/-- Die of a core: 0 east, 1 west. -/
def dieOf (core : Nat) : Nat := core / 32

/-! ### Byte memory -/

namespace Memory

/-- The canonical form: addresses strictly rising, no entry 0. -/
def wf (m : Memory) : Bool := NMap.wf (0 : Byte) m
def read (m : Memory) (a : Nat) : Byte := NMap.get 0 m a
def write (m : Memory) (a : Nat) (b : Byte) : Memory := NMap.set 0 m a b
/-- The bytes listed in [a, a + n), moved down to start at 0. -/
def slice (m : Memory) (a n : Nat) : Memory :=
  (m.filter fun e => a ≤ e.1 && e.1 < a + n).map fun e => (e.1 - a, e.2)
def readN (m : Memory) (a n : Nat) : List Byte := let l := slice m a n; (List.range n).map fun i => read l i
def writeN (m : Memory) (a : Nat) : List Byte → Memory
  | [] => m
  | b :: bs => writeN (write m a b) (a + 1) bs

end Memory

/-- A word of a memory. -/
def Memory.word (m : Memory) (a : Nat) : Nat := leNat (Memory.readN m a 4)

/-! ### Host memory as a function reaches it (R48, log 5) -/

def State.hostMem (s : State) (f : Nat) : Memory := NMap.get [] s.host f
def State.setHostMem (s : State) (f : Nat) (m : Memory) : State := { s with host := NMap.set [] s.host f m }
/-- Key of a host line of a function in the poison map. -/
def hostLine (f iova : Nat) : Nat := f * 2 ^ 58 + iova % 2 ^ 64 / 64

/-- The host lost the link, so the function's writes and records are discarded (R65). -/
def State.hostGone (s : State) : Bool := s.link.lostAt.isSome

/-! ### Event sources (R378, R382) -/

def State.src (s : State) (n : Nat) : Source := NMap.get Source.init s.ev.src n
def State.setSrc (s : State) (n : Nat) (x : Source) : State :=
  { s with ev := { s.ev with src := NMap.set Source.init s.ev.src n x } }

/-- The unit that drives a source is present on the variant (Table 18-1). -/
def sourcePresent (v : Variant) (n : Nat) : Bool :=
  if n = 0 then false
  else if n ≤ 20 then v.domainPresent (n - 1)
  else if n ≤ 29 then v.radio
  else if n = 30 then true
  else if n ≤ 38 then v.fabric
  else if n ≤ 54 then n - 39 < 4 * v.ethPorts
  else n < 256

/-- Kind of a source (Table 18-1); those of firmware-defined sources are listed in its image. -/
def sourceLevel (n : Nat) : Bool := if n ≤ 20 then true else if n = 55 then true else if n ≥ 56 then Config.evLevel n else false

/-- A level source is sampled: high sets it pending unless it is active (R378, R382). -/
def Source.sample (x : Source) : Source := if x.input && x.owner.isNone then { x with pending := true } else x

/-- The input of a source takes a level: a rising edge of an edge source, or a high level source that is not active, makes
it pending (R378, R382). -/
def State.drive (s : State) (n : Nat) (high : Bool) : State :=
  if sourcePresent s.variant n then
    let x := s.src n
    if sourceLevel n then s.setSrc n ({ x with input := high }).sample
    else s.setSrc n { x with input := high, pending := x.pending || (high && !x.input) }
  else s

/-- A pulse on an edge source. -/
def State.pulse (s : State) (n : Nat) : State := (s.drive n true).drive n false

/-! ### The error log (R401) -/

/-- A log record with everything zero or none. -/
def LogRec.none_ : LogRec :=
  { seq := 0, time := 0, cls := 0, outcome := 0, island := 0xFFFF, domain := 0xFF, tenant := 0xFF, ctx := 0xFF, flags := 0,
    opcode := 0, tag := 0, status := 0, address := 0, count := 1, detail := 0 }

/-- Corrected errors at the same line within 1 s merge (R401). -/
def mergesWith (now : Nat) (r o : LogRec) : Bool :=
  r.cls == 1 && o.cls == 1 && r.address == o.address && r.tenant == o.tenant && r.island == o.island
    && now < o.time + msec 1000

/-- Append a record; a full log loses its oldest (R401). Counts of 32 bits saturate (R12). -/
def State.logRecord (s : State) (r : LogRec) : State :=
  if s.rel.log.any (mergesWith s.now r) then
    { s with rel := { s.rel with log := s.rel.log.map fun o => if mergesWith s.now r o then { o with count := min 0xFFFFFFFF (o.count + 1) } else o } }
  else
    let r := { r with seq := s.rel.nextSeq, time := s.now }
    { s with rel := { s.rel with
        log := (r :: s.rel.log).take 8192
        nextSeq := s.rel.nextSeq + 1
        lost := min 0xFFFFFFFF (s.rel.lost + (if s.rel.log.length ≥ 8192 then 1 else 0)) } }

/-- The Clerk of domain `d` latches a report: its event source goes high and Steward logs the report (R15, Table 18-1). The spec does
not say when the Clerk lets its source fall: DESIGN CHOICE (log 111), EVENT_SOURCE_INPUT brings it low. -/
def State.clerkReport (s : State) (d : Nat) (r : LogRec) : State := (s.drive (d + 1) true).logRecord r

/-- An error report travels the path of R15: its island controller, its domain's Clerk, that Clerk's event source, Steward's log. Steward
and the event controller report to Steward directly (Table 1-5), as does what lies in no domain. While the Clerk restarts, each island
controller holds up to 16 reports and counts those beyond (R18). -/
def State.addLog (s : State) (r : LogRec) : State :=
  if r.island = 219 ∨ r.island = 220 ∨ r.domain ≥ 20 then s.logRecord r
  else match NMap.get none s.rel.clerkDown r.domain with
  | some (held, lost) =>
    let y := if held.countP (fun h => h.island = r.island) < 16 then (held ++ [r], lost)
      else (held, NMap.set 0 lost r.island (NMap.get 0 lost r.island + 1))
    { s with rel := { s.rel with clerkDown := NMap.set none s.rel.clerkDown r.domain (some y) } }
  | none => s.clerkReport r.domain r

/-- A log record about a command. -/
def cmdLog (cls outcome : Nat) (c : Cmd) : LogRec :=
  { LogRec.none_ with cls := cls, outcome := outcome, tenant := c.tenant, ctx := c.ctx, opcode := c.opcode, tag := c.tag,
                      status := c.status, island := (match c.core with | some k => 2 * k | none => 0xFFFF),
                      domain := (match c.core with | some k => k / 8 | none => 0xFF) }

/-! ### Device writes to host memory (R49) -/

/-- An injected PCI Express poison is used up and logged (Table 19-6 kind 0x09). -/
def State.spoilPcie (s : State) (iova : Nat) : State :=
  if s.rel.pciePoison = 0 then s
  else { s with rel := { s.rel with pciePoison := s.rel.pciePoison - 1 } }.addLog
    { LogRec.none_ with cls := 2, outcome := 1, island := 212, domain := 17, flags := 1, address := iova }

/-- Poison of a host line after a device write of [iova, iova + n): a poisoned write sets it, a whole line clears it (R399). -/
def hostPoisonAfter (f iova n : Nat) (bad : Bool) (m : NMap Bool) (i : Nat) : NMap Bool :=
  let l := iova / 64 + i
  let whole := iova ≤ 64 * l && 64 * l + 64 ≤ iova + n
  if bad then NMap.set false m (hostLine f (64 * l)) true else if whole then NMap.set false m (hostLine f (64 * l)) false else m

/-- A device write to host memory (R49); an armed injection sends it poisoned (Table 19-6 kind 0x09). -/
def State.dmaWrite (s : State) (f iova : Nat) (bs : List Byte) (poison : Bool) : State :=
  if s.hostGone then s
  else
    let bad := poison || s.rel.pciePoison > 0
    let n := if bs.length = 0 then 0 else (iova + bs.length - 1) / 64 - iova / 64 + 1
    let s1 := (s.spoilPcie iova).setHostMem f (Memory.writeN (s.hostMem f) iova bs)
    { s1 with hostPoison := (List.range n).foldl (hostPoisonAfter f iova bs.length bad) s1.hostPoison }

/-! ### Sexton time (R364, R365) -/

/-- Output time in nanoseconds, which completion times carry (R365). -/
def State.nsTime (s : State) : Nat := s.sx.time / 4

/-! ### Reply records (R34–R37, Table 2-6) -/

/-- Ring size of a function in records. -/
def Fn.ringSize (f : Fn) : Nat := 2 ^ f.sizeLog2
/-- The ring is full (R37, R52) or disabled. -/
def Fn.ringBlocked (f : Fn) : Bool := !f.enable || (f.tail + 131072 - f.head) % 131072 ≥ f.ringSize
/-- IOVA of the ring. -/
def Fn.ringBase (f : Fn) : Nat := f.baseHi.toNat * 2 ^ 32 + f.baseLo.toNat / 4096 * 4096
/-- Count and time thresholds of HW_REPLY_MOD (Table 2-7). -/
def Fn.modCount (f : Fn) : Nat := let n := bits f.replyMod.toNat 8 0; if n = 0 then 1 else min n 256
def Fn.modTime (f : Fn) : Nat := min (bits f.replyMod.toNat 25 16) 1000

/-- The 32 bytes of a record at ring count `tail` (Table 2-6, R34): phase 1 on even passes. -/
def replyBytes (r : Reply) (mark ns tail size : Nat) : List Byte :=
  leBytes 2 r.tag ++ leBytes 2 r.status ++ leBytes 2 r.ctx ++ leBytes 2 mark
    ++ leBytes 1 (b2n (tail / size % 2 = 0) * 128 + b2n r.final * 64 + b2n r.origin * 32)
    ++ leBytes 5 ns ++ leBytes 2 r.step ++ fitBytes 16 r.result

/-- Raise the ring's vector (R36). -/
def Fn.raise (f : Fn) : Fn := { f with msix := f.msix + 1, sinceIrq := 0 }

/-- Write one record at TAIL (R34) and raise the vector where R36 says so. -/
def State.writeRecord (s : State) (n : Nat) (r : Reply) : State :=
  let f := s.fn n
  let pos := f.tail % f.ringSize
  let s1 := s.dmaWrite n (f.ringBase + 32 * pos) (replyBytes r f.mark s.nsTime f.tail f.ringSize) false
  let f1 := { f with tail := (f.tail + 1) % 131072, sinceIrq := f.sinceIrq + 1,
                     oldestAt := if f.sinceIrq = 0 then s.now else f.oldestAt }
  s1.setFn n (if r.status ≥ 0x100 ∨ f1.sinceIrq ≥ f.modCount ∨ f.modTime = 0 then f1.raise else f1)

/-- Write held records while the ring has room (R37). -/
def State.drainHeld : Nat → State → Nat → State
  | 0, s, _ => s
  | k + 1, s, n =>
    match (s.fn n).held with
    | [] => s
    | r :: rest => if (s.fn n).ringBlocked then s else drainHeld k ((s.setFn n { s.fn n with held := rest }).writeRecord n r) n

/-- Pass a record to a ring: discarded after host loss and for an unprovisioned function, written when there is room,
else held, else a device-origin record is dropped and counted and any other is owed (R37, R54, R65). -/
def State.reply (s : State) (n : Nat) (r : Reply) : State :=
  let f := s.fn n
  if s.hostGone || !(s.tenant n).provisioned then s
  else if f.held.isEmpty && !f.ringBlocked then s.writeRecord n r
  else if f.held.length < 256 then s.setFn n { f with held := f.held ++ [r] }
  else if r.origin then s.setFn n { f with noticeDrop := min 0xFFFF (f.noticeDrop + 1) }
  else s.setFn n { f with owed := f.owed ++ [r] }

/-- Records that found 256 others held take their turn again, oldest first: no record of a packet is lost (R35, R37). -/
def State.payOwed (s : State) (n : Nat) : State :=
  (s.fn n).owed.foldl (fun s r => s.reply n r) (s.setFn n { s.fn n with owed := [] })

/-- A device-origin record: tag 0, final (R31, R32, Table 3-13). -/
def State.notice (s : State) (n status : Nat) (result : List Byte) : State :=
  s.reply n { tag := 0, status := status, ctx := 0, final := true, origin := true, step := 0, result := result }

/-- The tenant's commands do not start and its window accepts nothing while 128 or more records are held (R37). -/
def State.stalled (s : State) (t : Nat) : Bool := (s.fn t).held.length ≥ 128

/-! ### Commands and their ends -/

/-- Scope of an opcode is C (Table 2-9). An opcode that the table does not list has no scope there: DESIGN CHOICE (log 112), it takes that
of its class, for its BAD_OPCODE record and as a previous packet of R26. -/
def scopeC (op : Nat) : Bool :=
  op = 0x0004 || op = 0x0006 || op = 0x0007 || op / 0x1000 = 1 || op / 0x1000 = 2 || op / 0x1000 = 3
    || (op / 0x1000 = 4 && op < 0x4020) || op / 0x1000 = 9

/-- A status with which a command kills its context (Table 2-14). -/
def kills (status : Nat) : Bool := status = stPoison || status = stOverrun || status = stTierFailed

/-- A command that has been accepted but has not started. -/
def Cmd.unstarted (c : Cmd) : Bool :=
  match c.stage with
  | .accepted | .granted => true
  | _ => false

/-- A step counter as records carry it. -/
def State.stepOf (s : State) (t c : Nat) : Nat := (s.ctx t c).step.toNat % 65536

/-- The record of a command (Table 2-6). -/
def State.cmdReply (s : State) (c : Cmd) (final : Bool) : Reply :=
  { tag := if c.entry = .remote then 0 else c.tag, status := c.status, ctx := if scopeC c.opcode then c.ctx else 0,
    final := final, origin := c.entry = .remote, step := if scopeC c.opcode then s.stepOf c.tenant c.ctx else 0,
    result := c.result }

/-- MCTP response of a management-port command: its record with accept mark 0, then what follows it (R38, R43). No ring gives the
record a phase: DESIGN CHOICE (log 113), the phase bit is 0. -/
def State.respond (s : State) (r : Reply) (trailer : List Byte) : State :=
  { s with mctp := (replyBytes r 0 s.nsTime 1 1 ++ trailer) :: s.mctp }

/-- End a command with a status and result, once. A management-port command answers at once (R38); any other waits to be
posted (R196). -/
def State.finish (s : State) (id status : Nat) (result : List Byte) : State :=
  match s.cmd? id with
  | none => s
  | some c0 =>
    let c := { c0 with status := status, result := result, stage := Stage.done }
    if c0.stage = .done then s
    else match c.entry with
    | .mgmt => (s.respond (s.cmdReply c true) (if status < 0x100 then c.trailer else [])).dropCmd id
    | _ => s.setCmd c

/-- The accepted commands of a context that have not started end with CONTEXT_DEAD, reason 0x00 (R182). -/
def State.endUnstarted (s : State) (t c : Nat) : State :=
  { s with cmds := s.cmds.map fun d =>
      if d.tenant = t ∧ d.ctx = c ∧ scopeC d.opcode ∧ d.unstarted ∧ d.opcode ≠ 0x0006 ∧ d.opcode ≠ 0x0007 then
        { d with stage := .done, status := stContextDead, result := [0], signals := [] }
      else d }

/-- A context dies: live becomes dead, closing stays closing, one being reset stays live; its unstarted commands end
(Table 3-12, R59, R60, R182). -/
def State.kill (s : State) (t c : Nat) : State :=
  let x := s.ctx t c
  let resetting := s.cmds.any fun d => d.tenant = t && d.ctx = c && d.opcode = 0x0007 && d.stage ≠ .done
  match x.st with
  | .live => if resetting then s else (s.setCtx t c { x with st := .dead }).endUnstarted t c
  | .closing => s.endUnstarted t c
  | _ => s

/-- End a command and let the context die where the status kills (Table 2-14). -/
def State.complete (s : State) (id status : Nat) (result : List Byte) : State :=
  match s.cmd? id with
  | none => s
  | some c =>
    let s1 := s.finish id status result
    if kills status && scopeC c.opcode && c.entry ≠ .mgmt then s1.kill c.tenant c.ctx else s1

/-- Count a command that ended with TIER_FAILED, and the poisoned line that ended one with POISON_CONSUMED, reason 0x00 (Table 8-9): a bound
fault (0x10) and an abandoned round (0x11) read none. -/
def State.countTier (s : State) (t c status : Nat) (result : List Byte) : State :=
  if status = stTierFailed then s.bump (aTI t c 0x28) 1
  else if status = stPoison ∧ leNat (result.take 1) = 0 then s.bump (aTI t c 0x20) 1 else s

/-- A command end with its log record where it consumed poison (Table 19-5 class 0x03). -/
def State.fail (s : State) (id status : Nat) (result : List Byte) : State :=
  match s.cmd? id with
  | none => s
  | some c =>
    let s1 := s.countTier c.tenant c.ctx status result
    let s2 := if status = stPoison then s1.addLog (cmdLog 3 5 { c with status := status }) else s1
    s2.complete id status result

/-- Check 9 at a start: the context is live; dead is allowed for CONTEXT_RESET and CONTEXT_CLOSE (R58). -/
def State.contextCheck (s : State) (op t c : Nat) : Option Fail :=
  if !scopeC op then none
  else if c ≥ (s.tenant t).contexts then failWith stContextDead 2
  else match (s.ctx t c).st with
    | .live => none
    | .dead => if op = 0x0006 ∨ op = 0x0007 then none else failWith stContextDead 0
    | .closed => failWith stContextDead 1
    | .closing => failWith stContextDead 1

/-- Check 9 when a granted command starts: a command accepted before CONTEXT_CLOSE still runs in the closing context, and
CONTEXT_CLOSE and CONTEXT_RESET act on the context they changed themselves. -/
def State.contextAtStart (s : State) (c : Cmd) : Option Fail :=
  if !scopeC c.opcode then none
  else match (s.ctx c.tenant c.ctx).st with
    | .live => none
    | .closing => none
    | .dead => if c.opcode = 0x0006 ∨ c.opcode = 0x0007 then none else failWith stContextDead 0
    | .closed => failWith stContextDead 1

/-- Parameter field: `n` bytes at offset `o`. -/
def Cmd.p (c : Cmd) (o n : Nat) : Nat := fieldAt c.params o n

/-! ### References a command names (R158) -/

/-- Parameter offsets of the memory references of an opcode. -/
def refOffsets (op n : Nat) : List Nat :=
  match op with
  | 0x1002 | 0x1004 | 0x1011 | 0x1012 | 0x1013 | 0x1014 | 0x1020 | 0x2003 | 0x2011 | 0x4001 | 0x9001 | 0x9003 => [0]
  | 0x1003 => [0, 8]
  | 0x1010 => [0, 16, 36]
  | 0x2001 => (List.range 13).map (8 * ·)
  | 0x2002 => (List.range 8).map fun b => 80 + 16 * b
  | 0x2004 => 0 :: (List.range n).map fun i => 32 + 16 * i
  | 0x2005 => [0, 8]
  | 0x2010 => [0, 16, 24, 32, 40]
  | 0x2013 => [0, 8, 48]
  | 0x4010 => [0, 8, 16, 24, 32, 64]
  | 0x4011 => [0, 8, 16, 24, 32]
  | 0x7002 => [8, 16]
  | _ => []

/-- A command names handle `h`. -/
def Cmd.names (c : Cmd) (h : Nat) : Bool :=
  (c.opcode ≠ 0x7002 || c.p 4 1 = c.tenant) && (refOffsets c.opcode (c.p 14 1)).any fun o => c.p o 8 / 2 ^ 40 % 2 ^ 24 == h

/-- Handles of the objects in a region: those homed in an import of the tenant, or an export's object. -/
def State.regionHandles (s : State) (t side num : Nat) : List Nat :=
  if side = 0 then (s.tenant t).objs.filterMap fun e => match e.2 with
      | some o => if o.home = 3 ∧ o.imp = num then some e.1 else none
      | none => none
  else match NMap.get none s.fabric.exports num with
    | some e => [e.handle]
    | none => []

/-- A started OWNERSHIP_TRANSFER holds back later commands of its tenant that name an object of its region (Table 10-8 step 1). -/
def State.heldBack (s : State) (c : Cmd) : Bool :=
  s.cmds.any fun d => d.opcode = 0x4004 && d.stage = .waiting && d.tenant = c.tenant && d.id < c.id
    && (s.regionHandles d.tenant (d.p 0 1) (d.p 2 2)).any c.names

/-- Opcodes Steward interprets (Table 2-1). -/
def stewardOp (op : Nat) : Bool := op / 0x1000 = 0 || op / 0x1000 = 7 || op / 0x1000 = 8 || op / 0x1000 = 0xE

/-- During a hot restart packets of the classes Steward interprets are held (R455). -/
def State.stewardHeld (s : State) (c : Cmd) : Bool := stewardOp c.opcode && s.st.hot.isSome

/-- A coreless command that is granted starts: check 9 and its own checks are judged again (R33); where they pass, its
effect is made by `body`, which ends it, leaves it waiting, or leaves it started until what it reads has come. -/
def runCoreless (op : Nat) (check : State → Cmd → Option Fail) (body : State → Cmd → State) (id : Nat) (s : State) : State :=
  match s.cmd? id with
  | none => s
  | some c =>
    if c.opcode = op ∧ c.stage = .granted ∧ !(c.entry ≠ .mgmt && s.stalled c.tenant) ∧ !s.heldBack c ∧ !s.stewardHeld c then
      match s.contextAtStart c <|> check s c with
      | some f => (s.setCmd { c with signals := [] }).finish id f.1 f.2
      | none =>
        let c := { c with stage := .started, startedAt := s.now }
        body (s.setCmd c) c
    else if c.opcode = op ∧ c.stage = .started then body s c
    else s

/-- When the step in progress began: the start of its first packet, none before (R203). -/
def State.stepStart (s : State) (t c : Nat) : Option Nat :=
  let begun (m : Option Nat) (d : Cmd) : Option Nat :=
    if d.program ∧ d.tenant = t ∧ d.ctx = c ∧ !d.unstarted then some (min (m.getD d.startedAt) d.startedAt) else m
  (s.ctx t c).stepping.bind fun p => s.cmds.foldl begun p.2

/-- A command leaves its result for an event to bring. -/
def State.await (s : State) (id : Nat) : State :=
  match s.cmd? id with
  | none => s
  | some c => s.setCmd { c with stage := .waiting }

/-- OK with result bytes. -/
def State.ok (s : State) (id : Nat) (result : List Byte) : State := s.finish id stOK result

/-- Parameter bytes o … o + n − 1 are zero (reserved). -/
def zeroAt (bs : List Byte) (o n : Nat) : Bool := ((bs.drop o).take n).all (· == 0)

/-- Function whose host memory a command's IOVAs lie in: its window's function; the physical function for the rest. -/
def Cmd.fn (c : Cmd) : Nat :=
  match c.entry with
  | .vf => c.tenant
  | _ => 0

/-- A fresh free value (log 4): the word, and the state with the draw counted. -/
def State.draw (s : State) : Word × State := (Config.freeWord s.free, { s with free := s.free + 1 })

end Sys2Proof.Machine
end

