-- ==== Sys2Proof/Machine/Window.lean ====
section
/-! DEFINITION. CRC-32C (R25), the command window (R28–R32), the reply ring's registers (R52) and the heartbeat register (R62). -/
namespace Sys2Proof.Machine

/-- One bit of the reflected CRC-32C register. -/
def crcBit (c : Nat) : Nat := if c % 2 = 1 then Nat.xor (c / 2) 0x82F63B78 else c / 2

/-- One byte into the CRC-32C register. -/
def crcByte (c : Nat) (b : Byte) : Nat :=
  crcBit (crcBit (crcBit (crcBit (crcBit (crcBit (crcBit (crcBit (Nat.xor c b.toNat))))))))

/-- CRC-32C (R25). -/
def crc32c (bs : List Byte) : Nat := Nat.xor (bs.foldl crcByte 0xFFFFFFFF) 0xFFFFFFFF

/-- Bytes of the stream at positions p … p + n − 1 (R28: offset p mod 65,536). -/
def Fn.stream (f : Fn) (p n : Nat) : List Byte := (List.range n).map fun i => Memory.read f.window ((p + i) % 65536)

/-- All (any) of the offsets of stream positions p … p + n − 1 are in a set. -/
def allIn (m : NMap Bool) (p n : Nat) : Bool := (List.range n).all fun i => NMap.get false m ((p + i) % 65536)
def anyIn (m : NMap Bool) (p n : Nat) : Bool := (List.range n).any fun i => NMap.get false m ((p + i) % 65536)

/-- Clear the offsets of stream positions p … p + n − 1. -/
def clearIn (m : NMap Bool) (p n : Nat) : NMap Bool := (List.range n).foldl (fun m i => NMap.set false m ((p + i) % 65536) false) m

/-- The three seal tests of R28 on a whole packet whose seal word starts at stream position `sealPos`. -/
def sealOk (bs : List Byte) (sealPos : Nat) : Bool :=
  let n := bs.length
  fieldAt bs (n - 8) 2 == fieldAt bs 6 2 && fieldAt bs (n - 6) 2 == sealPos / 65536 % 65536
    && fieldAt bs (n - 4) 4 == crc32c (bs.take (n - 4))

/-- Free discarded packets at the head of the stream (R28, R30): their bytes count into the accept mark. -/
def Fn.skipBad (f : Fn) : Fn :=
  let bad := f.submitted.takeWhile (·.bad)
  { f with submitted := f.submitted.dropWhile (·.bad),
           mark := (f.mark + bad.foldl (fun a p => a + p.bytes.length / 16) 0) % 65536 }

/-- A record of a packet that fails before it becomes a command: its tag, its context for scope C (R33, R35). -/
def State.failRecord (s : State) (n tag status ctx step : Nat) (result : List Byte) : State :=
  s.reply n { tag := tag, status := status, ctx := ctx, final := true, origin := false, step := step, result := result }

/-- Context and step fields of a record for header bytes. -/
def State.headCtx (s : State) (n : Nat) (hdr : List Byte) : Nat × Nat :=
  if scopeC (fieldAt hdr 0 2) then (fieldAt hdr 8 2, s.stepOf n (fieldAt hdr 8 2)) else (0, 0)

/-- One evaluation at the expected header, if its moment has come (R28, R29): a length out of range halts the window with
cause 0b10; a packet whose seal fails is discarded with BAD_SEAL, and the accept mark passes it unless R37 stops the mark; else it is
submitted. `cur` holds the offsets the TLP now
landing touches: they count as touching the next seal word (log 6). -/
def evalOne (s : State) (n : Nat) (cur : NMap Bool) : Option State :=
  let f := s.fn n
  if f.halted || !allIn f.written f.expect 16 then none
  else
    let hdr := f.stream f.expect 16
    let units := fieldAt hdr 4 2
    let cs := s.headCtx n hdr
    if units < 2 ∨ units > 256 then
      some ((s.setFn n { f with halted := true, haltCause := 2, ready := false }).failRecord n (fieldAt hdr 6 2) stBadLength cs.1 cs.2 [])
    else
      let len := 16 * units
      let sealPos := f.expect + len - 8
      if anyIn f.touched sealPos 8 then
        let bs := f.stream f.expect len
        let ok := sealOk bs sealPos && !anyIn f.poisoned f.expect len
        let f1 := { f with written := clearIn f.written f.expect len, touched := cur, expect := (f.expect + len) % 2 ^ 32,
                           submitted := f.submitted ++ [{ bytes := bs, pos := f.expect, bad := !ok }] }
        some (if ok then s.setFn n f1
          else (s.setFn n (if s.stalled n then f1 else f1.skipBad)).failRecord n (fieldAt hdr 6 2) stBadSeal cs.1 cs.2 [])
      else none

/-- Evaluate packets until none is ready. -/
def evalLoop : Nat → State → Nat → NMap Bool → State
  | 0, s, _, _ => s
  | k + 1, s, n, cur =>
    match evalOne s n cur with
    | some s1 => evalLoop k s1 n cur
    | none => s

/-- Offset `o` belongs to a submitted packet that has not been accepted (R31). -/
def Fn.holds (f : Fn) (o : Nat) : Bool :=
  f.submitted.any fun p => !p.bad && (o + 65536 - p.pos % 65536) % 65536 < p.bytes.length

/-- An event of Table 3-15 sets its sticky bit of the AER uncorrectable error status: 12 poisoned TLP, 14 completion timeout, 15 completer
abort, 20 unsupported request. The spec gives no positions; these are PRESUMED from the base specification (log 114). -/
def State.aerEvent (s : State) (b : Nat) : State := { s with link := { s.link with aer := s.link.aer ||| 2 ^ b } }

/-- A write TLP lands in a window (R28–R31, R54); a poisoned one is reported through AER (R67). -/
def windowWrite (fn off : Nat) (data : List Byte) (poisoned : Bool) (s0 : State) : State :=
  let s := if poisoned ∧ fn < 16 then s0.aerEvent 12 else s0
  let f := s.fn fn
  if fn > 15 || !(s.tenant fn).provisioned || f.halted || !f.ready || off + data.length > 65536 || data.isEmpty || !s.pw.ready then s
  else if (List.range data.length).any (fun i => f.holds (off + i)) then
    (s.setFn fn { f with halted := true, haltCause := 1, ready := false }).notice fn stWindowOverrun (leBytes 4 off)
  else
    let offs := List.range data.length
    let mark (m : NMap Bool) (v : Bool) : NMap Bool := offs.foldl (fun m i => NMap.set false m (off + i) v) m
    let f1 := { f with window := Memory.writeN f.window off data, written := mark f.written true,
                       touched := mark f.touched true, poisoned := mark f.poisoned poisoned }
    evalLoop 4097 (s.setFn fn f1) fn (mark [] true)

/-- WINDOW_WRITE. -/
def execWindowWrite (fn off : Nat) (data : List Byte) (poisoned : Bool) (s : State) : Host.Outcome State Fault Refusal :=
  .next (windowWrite fn off data poisoned s)

/-- A window's lap, mark, version and halted state at their starting values (R54, R63 step 7). -/
def Fn.restart (f : Fn) : Fn :=
  { f with window := [], written := [], touched := [], poisoned := [], expect := 0, submitted := [], mark := 0, ready := true,
           halted := false, haltCause := 0, resync := false, version := 0x10, lastT := none }

/-- Steps 2 to 5 of R32, once every submitted packet has been accepted. -/
def finishResync (s : State) (n : Nat) : State :=
  let f := s.fn n
  let lap := (f.expect / 65536 + 1) % 65536
  let f1 := { f with expect := lap * 65536, mark := lap * 4096 % 65536, written := [], touched := [], poisoned := [],
                     halted := false, haltCause := 0, ready := true, resync := false }
  (s.setFn n f1).notice n stOK (leBytes 2 lap)

/-- HW_WIN_CTL.RESYNC written 1 (R32): with packets still to accept, READY reads 0 until the last one is accepted. -/
def hwWinCtlResync (fn : Nat) (s : State) : State :=
  if fn > 15 then s
  else if (s.fn fn).submitted.isEmpty then finishResync s fn
  else s.setFn fn { s.fn fn with ready := false, resync := true }

/-- HW_WIN_CTL_RESYNC. -/
def execHwWinCtlResync (fn : Nat) (s : State) : Host.Outcome State Fault Refusal := .next (hwWinCtlResync fn s)

/-- A write of HW_RING_CFG (Table 3-5, R52). -/
def ringCfgWrite (n : Nat) (v : Word) (s : State) : State :=
  let f := s.fn n
  let en := v.toNat.testBit 31
  let vec := bits v.toNat 21 16
  let sz := bits v.toNat 4 0
  let f1 := { f with vector := if (n = 0 ∨ vec < 8) then vec else f.vector,
                     sizeLog2 := if f.enable then f.sizeLog2 else if 8 ≤ sz ∧ sz ≤ 16 then sz else f.sizeLog2, enable := en }
  let f2 := if en && !f.enable then { f1 with tail := 0 } else f1
  ((s.setFn n f2).drainHeld 256 n).payOwed n

/-- HW_RING_CFG_ENABLE: ENABLE changes from 0 to 1: TAIL becomes 0 and the held records are written. -/
def execHwRingCfgEnable (fn : Nat) (v : Word) (s : State) : Host.Outcome State Fault Refusal :=
  .next (if fn < 16 then ringCfgWrite fn v s else s)

/-- A write of HW_RING_HEAD (R52): ignored where (TAIL − HEAD) would exceed the ring size. -/
def hwRingHeadWrite (fn : Nat) (v : Word) (s : State) : State :=
  let f := s.fn fn
  let h := v.toNat % 2 ^ 17
  if fn > 15 || (f.tail + 131072 - h) % 131072 > f.ringSize then s
  else ((s.setFn fn { f with head := h }).drainHeld 256 fn).payOwed fn

/-- HW_RING_HEAD_WRITE. -/
def execHwRingHeadWrite (fn : Nat) (v : Word) (s : State) : Host.Outcome State Fault Refusal := .next (hwRingHeadWrite fn v s)

/-- A write of HW_HEARTBEAT, whatever its value: HB_EXPIRED clears and the period restarts (R62, Tables 3-7, 3-8). -/
def hwHeartbeatWrite (fn : Nat) (_v : Word) (s : State) : State :=
  if fn > 15 then s
  else (s.setFn fn { s.fn fn with hbExpired := false }).setTenant fn { s.tenant fn with hbStart := some s.now }

/-- HW_HEARTBEAT_WRITE. -/
def execHwHeartbeatWrite (fn : Nat) (v : Word) (s : State) : Host.Outcome State Fault Refusal := .next (hwHeartbeatWrite fn v s)

/-- The oldest record since the last interrupt has waited the time threshold (R36). -/
def replyTimeThreshold (fn : Nat) (s : State) : State :=
  let f := s.fn fn
  if fn < 16 ∧ f.sinceIrq > 0 ∧ s.now ≥ f.oldestAt + usec f.modTime then s.setFn fn f.raise else s

/-- REPLY_TIME_THRESHOLD. -/
def execReplyTimeThreshold (fn : Nat) (s : State) : Host.Outcome State Fault Refusal := .next (replyTimeThreshold fn s)

end Sys2Proof.Machine
end

