-- ==== Sys2Proof/Machine/Quince.lean ====
section
/-! DEFINITION. Quince block compression (R169–R171): map entries, the decoder, and one encoder among the valid ones. -/
namespace Sys2Proof.Machine

/-- Map entry of a zero block (Table 8-7, reset). -/
def MapEntry.zero : MapEntry := { st := 2, sectors := 0, poison := false, check := 0 }

/-- The 64 bits of a map entry (Table 8-7). -/
def MapEntry.bits (e : MapEntry) : Nat := e.st * 2 ^ 62 + e.sectors * 2 ^ 58 + b2n e.poison * 2 ^ 57 + e.check

/-- A map entry from its 64 bits. -/
def MapEntry.ofBits (n : Nat) : MapEntry :=
  { st := Sys2Proof.bits n 63 62, sectors := Sys2Proof.bits n 61 58, poison := n.testBit 57, check := n % 2 ^ 32 }

/-- Code lengths of an image's table: 4 bits per symbol (Table 8-8, R89). -/
def codeLengths (img : List Byte) (symbols : Nat) : List Nat :=
  (List.range symbols).map fun s => (fieldAt img (4 + s / 2) 1) / 2 ^ (4 * (s % 2)) % 16

/-- Symbols with a code, ordered by length then value: (length, symbol). -/
def codeOrder (lens : List Nat) : List (Nat × Nat) :=
  (List.range 16).flatMap fun l => if l = 0 then [] else
    ((List.range lens.length).filter fun s => lens.getD s 0 == l).map fun s => (l, s)

/-- Canonical codes (R170): the first is all zeros; each later one is the previous plus 1, shifted by the increase in length. -/
def assignCodes : Option (Nat × Nat) → List (Nat × Nat) → List (Nat × Nat × Nat)
  | _, [] => []
  | none, (l, s) :: r => (l, 0, s) :: assignCodes (some (l, 0)) r
  | some (pl, pc), (l, s) :: r => let c := (pc + 1) * 2 ^ (l - pl); (l, c, s) :: assignCodes (some (l, c)) r

/-- Σ 2^(−length) > 1. -/
def oversubscribed (lens : List Nat) : Bool :=
  lens.foldl (fun a l => if l = 0 then a else a + 2 ^ (15 - l)) 0 > 2 ^ 15

/-- Read one symbol, most significant bit first, from the bit list: the symbol and what is left. -/
def readSymbol (codes : List (Nat × Nat × Nat)) : Nat → Nat → Nat → List Bool → Option (Nat × List Bool)
  | 0, _, _, _ => none
  | _, _, _, [] => none
  | f + 1, len, code, b :: bs =>
    let code := 2 * code + b2n b
    match codes.find? fun e => e.1 == len + 1 && e.2.1 == code with
    | some e => some (e.2.2, bs)
    | none => readSymbol codes f (len + 1) code bs

/-- Read `n` symbols. -/
def readSymbols (codes : List (Nat × Nat × Nat)) : Nat → List Bool → Option (List Nat)
  | 0, _ => some []
  | n + 1, bs =>
    match readSymbol codes 15 0 0 bs with
    | none => none
    | some (s, rest) => (readSymbols codes n rest).map (s :: ·)

/-- Bits of bytes, bit 0 first (R170). -/
def bitsOf (bs : List Byte) : List Bool := bs.flatMap fun b => (List.range 8).map fun i => b.toNat.testBit i

/-- The 4,096 bytes of a compressed block from its image and entry, or none where it is delivered poisoned (R170). -/
def quinceDecode (e : MapEntry) (img : List Byte) : Option (List Byte) :=
  let img := img.take ((e.sectors + 1) * 256)
  let mode := fieldAt img 0 1
  let syms := if mode = 1 then 16 else 256
  let t := if mode = 1 then 8 else 128
  if mode ≠ 1 ∧ mode ≠ 2 then none
  else
    let lens := codeLengths img syms
    if oversubscribed lens then none
    else
      match readSymbols (assignCodes none (codeOrder lens)) (if mode = 1 then 8192 else 4096) (bitsOf (img.drop (4 + t))) with
      | none => none
      | some ss =>
        let out := packBits (if mode = 1 then 4 else 8) ss
        if crc32c out = e.check then some out else none

/-- A package of the length-limited construction: weight and the symbols in it. -/
abbrev Package := Nat × List Nat

/-- Insert by weight, keeping earlier entries first among equals. -/
def insertPackage (p : Package) : List Package → List Package
  | [] => [p]
  | q :: r => if p.1 < q.1 then p :: q :: r else q :: insertPackage p r

/-- Merge packages into a list ordered by weight. -/
def mergePackages (a b : List Package) : List Package := b.foldl (fun l p => insertPackage p l) a

/-- Pair neighbours. -/
def pairPackages : List Package → List Package
  | p :: q :: r => (p.1 + q.1, p.2 ++ q.2) :: pairPackages r
  | _ => []

/-- The lists of the construction after `n` levels. -/
def packageLevels (leaves : List Package) : Nat → List Package
  | 0 => []
  | n + 1 => mergePackages leaves (pairPackages (packageLevels leaves n))

/-- Code lengths at most 15 over symbol counts (R171). -/
def huffmanLengths (counts : List Nat) : List Nat :=
  let used := (List.range counts.length).filter fun s => counts.getD s 0 > 0
  let leaves := used.foldl (fun l s => insertPackage (counts.getD s 0, [s]) l) []
  if used.length = 1 then (List.range counts.length).map fun s => if used.contains s then 1 else 0
  else
    let chosen := ((packageLevels leaves 15).take (2 * (used.length - 1))).flatMap Prod.snd
    (List.range counts.length).map fun s => chosen.count s

/-- Bits of a code, most significant first. -/
def codeBits (l c : Nat) : List Bool := (List.range l).map fun i => c.testBit (l - 1 - i)

/-- The image of a block in an alphabet (1 byte, 2 nibble; Table 8-8). -/
def quinceImage (alphabet : Nat) (block : List Byte) : List Byte :=
  let nib := alphabet = 2
  let syms := if nib then block.flatMap (fun b => [b.toNat % 16, b.toNat / 16]) else block.map BitVec.toNat
  let n := if nib then 16 else 256
  let lens := huffmanLengths ((List.range n).map fun s => syms.count s)
  let codes := assignCodes none (codeOrder lens)
  let stream := syms.flatMap fun s => match codes.find? fun e => e.2.2 == s with
    | some e => codeBits e.1 e.2.1
    | none => []
  [if nib then 1 else 2, 0, 0, 0] ++ packBits 4 lens ++ packBits 1 (stream.map b2n)

/-- What L2 stores for a block on write-back (R171): map entry and slot bytes; `poisoned`: a block that holds a poisoned line is
written raw (Table 19-4). -/
def quinceEncode (alphabet : Nat) (block : List Byte) (poisoned : Bool) : MapEntry × List Byte :=
  let raw : MapEntry := { st := 0, sectors := 0, poison := false, check := 0 }
  if block.all (· == 0) ∧ !poisoned then (MapEntry.zero, [])
  else if alphabet = 0 ∨ poisoned then (raw, block)
  else
    let img := quinceImage alphabet block
    let sectors := ceilDiv img.length 256
    if sectors ≥ 16 then (raw, block) else ({ st := 1, sectors := sectors - 1, poison := false, check := crc32c block }, img)

end Sys2Proof.Machine
end

