-- ==== Sys2Proof/Machine/Memory.lean ====
section
/-! DEFINITION. Memory references and objects as commands read and write them (R154–R162, R166–R171, R226, R227, R397–R399),
posted fabric operations (R220–R224) and the atomic operations of Table 10-7. -/
namespace Sys2Proof.Machine

/-! ### References (R154) -/

def refHandle (r : Nat) : Nat := r / 2 ^ 40 % 2 ^ 24
def refOff (r : Nat) : Nat := r % 2 ^ 40
/-- A reference with handle 0 and a non-zero offset is a non-zero reserved field. -/
def refOk (r : Nat) : Bool := refHandle r ≠ 0 || refOff r = 0
def mkRef (h : Nat) : Nat := h * 2 ^ 40

/-- Storage and map area of an object (R156). -/
def Obj.storage (o : Obj) : Nat := roundUp o.size 4096
def Obj.mapArea (o : Obj) : Nat := if o.compress then roundUp (o.size / 512) 4096 else 0
/-- A complete copy stands above the home (R159). -/
def Obj.copied (o : Obj) : Bool := o.level < o.home
/-- Codes of levels: a T2 or T1 copy. -/
def Obj.init : Obj :=
  { size := 0, home := 2, compress := false, alphabet := 0, die := 0, imp := 0, base := 0, charged := 0, level := 2, moving := 0,
    target := 0, promos := [], pins := [], data := [], store := [], dirty := [], hole := [], epochs := [], poison := [], blocks := [], waiting := [],
    incomplete := false }

/-! ### Atomic operations (Table 10-7) -/

/-- Element width in bytes of an atomic operation; 0 where reserved. -/
def atomicWidth (op : Nat) : Nat :=
  match op with
  | 0x01 | 0x04 | 0x05 | 0x08 | 0x09 | 0x0C | 0x0D | 0x10 => 4
  | 0x02 | 0x06 | 0x07 | 0x0A | 0x0B | 0x11 => 8
  | 0x03 | 0x12 => 16
  | _ => 0

/-- CAS writes address pairs (R225). -/
def isCas (op : Nat) : Bool := op = 0x10 || op = 0x11 || op = 0x12
/-- Payload bytes per element. -/
def atomicPayload (op : Nat) : Nat := if isCas op then 2 * atomicWidth op else atomicWidth op

/-- MIN.F32 and MAX.F32 by R135's order; a NaN gives the canonical NaN. -/
def fmin32 (x y : Word) : Word :=
  if (dec32 x).isNan || (dec32 y).isNan then 0x7FC00000 else if Fl.lt0 (dec32 y) (dec32 x) then y else x
def fmax32 (x y : Word) : Word :=
  if (dec32 x).isNan || (dec32 y).isNan then 0x7FC00000 else if Fl.lt0 (dec32 x) (dec32 y) then y else x

/-- LADD.128 (Table 10-7): VALUEs add modulo 2¹⁰⁰, SPECIALs combine by R92, bits 127:102 become 0. -/
def ladd (x p : Nat) : Nat :=
  (x % 2 ^ 100 + p % 2 ^ 100) % 2 ^ 100 + joinSpecial (x / 2 ^ 100 % 4) (p / 2 ^ 100 % 4) * 2 ^ 100

/-- The effect of one atomic on element x with payload p (Table 10-7); a CAS payload holds expected, then new. -/
def atomicApply (op x p : Nat) : Nat :=
  let s32 (f : Int → Int → Int) := (BitVec.ofInt 32 (f (toSigned 32 x) (toSigned 32 p))).toNat
  let s64 (f : Int → Int → Int) := (BitVec.ofInt 64 (f (toSigned 64 x) (toSigned 64 p))).toNat
  let cas (w : Nat) := if x = p % 2 ^ w then p / 2 ^ w % 2 ^ w else x
  match op with
  | 0x01 => (x + p) % 2 ^ 32
  | 0x02 => (x + p) % 2 ^ 64
  | 0x03 => ladd x p
  | 0x04 => s32 min
  | 0x05 => s32 max
  | 0x06 => s64 min
  | 0x07 => s64 max
  | 0x08 | 0x0A => min x p
  | 0x09 | 0x0B => max x p
  | 0x0C => (fmin32 (BitVec.ofNat 32 x) (BitVec.ofNat 32 p)).toNat
  | 0x0D => (fmax32 (BitVec.ofNat 32 x) (BitVec.ofNat 32 p)).toNat
  | 0x10 => cas 32
  | 0x11 => cas 64
  | 0x12 => cas 128
  | _ => x

/-- Apply a run of payload bytes written at byte `o` of a region that starts at object byte `r` (R224, R225), element by element. The
element of a CAS pair lies at half the pair's byte, counted in the region: DESIGN CHOICE (log 128), where region and object start apart. -/
def atomicRun (op r : Nat) (m : Memory) (o : Nat) : Nat → List Byte → Memory
  | 0, _ => m
  | f + 1, bs =>
    let pw := atomicPayload op
    let w := atomicWidth op
    if bs.length < pw ∨ pw = 0 then m
    else
      let at_ := r + if isCas op then o / 2 else o
      let x := leNat (Memory.readN m at_ w)
      atomicRun op r (Memory.writeN m at_ (leBytes w (atomicApply op x (leNat (bs.take pw))))) (o + pw) f (bs.drop pw)

/-! ### Lines -/

/-- A line as a read sees it: 64 bytes (more for several lines), poison, and why it cannot be read. -/
abbrev Line := List Byte × Bool × Option Fail

def Line.bad (f : Option Fail) : Line := (List.replicate 64 0, false, f)

/-- The reader that a move of an object is, beside the commands; 0 reads for the machine itself (log 127). -/
def moveReader (t h : Nat) : Nat := 2 ^ 64 + t * 2 ^ 24 + h

/-- What a read asks for: a line of a region through an import, a correction of a line of an object. -/
def askLine (imp line : Nat) : Fail := (stAsk, leBytes 1 0 ++ leBytes 4 imp ++ leBytes 8 line)
def askEcc (h line : Nat) : Fail := (stAsk, leBytes 1 1 ++ leBytes 4 h ++ leBytes 8 line)

/-- A line fetched for a reader (R227). -/
def State.fetched (s : State) (rd node line : Nat) : Option Fetched :=
  s.fabric.lines.find? fun l => l.reader = rd && l.node = node && l.line = line

/-- Line `x` of an object's storage at its T3 home: as it was fetched for the reader, else it must be asked for. A write-only import is a bound
fault (R235), a fenced module or a dead import TIER_FAILED 0x23, a region no longer imported 0x13 (R175, R253). What the machine itself reads
there is free (log 127). -/
def State.t3Line (s : State) (rd : Nat) (o : Obj) (x : Nat) : Line :=
  match NMap.get none s.fabric.imports o.imp with
  | none => Line.bad (failWith stTierFailed 0x13)
  | some i =>
    let line := (i.base + o.base) / 64 + x
    if i.copyWriter then Line.bad (failWith stPoison 0x10)
    else if s.fabric.fenced || i.dead then Line.bad (failWith stTierFailed 0x23)
    else if rd = 0 then ((List.range 64).map fun k => Config.freeByte (((s.now * 2 ^ 16 + i.node) * 2 ^ 42 + line) * 64 + k), false, none)
    else match s.fetched rd i.node line with
      | some l => (l.bytes, l.poison, none)
      | none => Line.bad (some (askLine o.imp line))

/-- One line after another; the first that cannot be read stops it. -/
def joinLines : List Line → Line
  | [] => ([], false, none)
  | (bs, p, none) :: r => let y := joinLines r; (bs ++ y.1, p || y.2.1, y.2.2)
  | (_, _, some f) :: _ => ([], false, some f)

/-! ### Home contents -/

/-- Line `x` of what the home stores. -/
def State.storedLine (s : State) (rd t : Nat) (o : Obj) (x : Nat) : Line :=
  if o.home = 4 then
    if s.link.up then (Memory.readN (s.hostMem t) (o.base + 64 * x) 64, NMap.get false s.hostPoison (hostLine t (o.base + 64 * x)), none)
    else Line.bad (failWith stTierFailed 4)
  else if o.home = 3 then s.t3Line rd o x
  else (Memory.readN o.store (64 * x) 64, false, none)

/-- Stored bytes [off, off + n) of the home. -/
def State.homeRead (s : State) (rd t : Nat) (o : Obj) (off n : Nat) : Line :=
  let y := joinLines ((List.range ((off + n - 1) / 64 - off / 64 + 1)).map fun i => s.storedLine rd t o (off / 64 + i))
  ((y.1.drop (off % 64)).take n, y.2.1, y.2.2)

/-- Map entry of a block (R169): in the home's map area, or the tier manager's; with it whether the entry reads poisoned, and why it cannot be
read. -/
def State.mapEntry (s : State) (rd t : Nat) (o : Obj) (b : Nat) : MapEntry × Bool × Option Fail :=
  if o.home = 2 then (NMap.get MapEntry.zero o.blocks b, false, none)
  else let y := s.homeRead rd t o (o.storage + 8 * b) 8; (MapEntry.ofBits (leNat y.1), y.2.1, y.2.2)

/-- A line as its home holds it, a compressed block decoded (R170): an entry with STATE 0b11 or SECTORS 15 is TIER_FAILED 0x05, whatever the
other field. -/
def State.homeLine (s : State) (rd t : Nat) (o : Obj) (line : Nat) : Line :=
  if !o.compress then s.homeRead rd t o (64 * line) 64
  else
    let m := s.mapEntry rd t o (line / 64)
    let e := m.1
    match m.2.2 with
    | some f => Line.bad (some f)
    | none =>
      if m.2.1 then (List.replicate 64 0, true, none)
      else if e.st = 3 ∨ e.sectors = 15 then Line.bad (failWith stTierFailed 5)
      else if e.poison then (List.replicate 64 0, true, none)
      else if e.st = 2 then (List.replicate 64 0, false, none)
      else if e.st = 0 then s.homeRead rd t o (64 * line) 64
      else
        let d := s.homeRead rd t o (4096 * (line / 64)) (256 * (e.sectors + 1))
        match d.2.2 with
        | some f => Line.bad (some f)
        | none => match quinceDecode e (fitBytes 3840 d.1) with
          | some bs => ((bs.drop (64 * (line % 64))).take 64, d.2.1, none)
          | none => (List.replicate 64 0, true, none)

/-- DRAM channel of a line of a T2 object: 4 KiB blocks alternate over both dies, 256 B sectors over a die's 64 channels
(R157, T2 channels; log 13). East 0–63, west 64–127. -/
def Obj.channel (o : Obj) (line : Nat) : Nat :=
  let b := line / 64
  let die := if o.die = 1 then 0 else if o.die = 2 then 1 else b % 2
  let inDie := if o.die = 0 then b / 2 * 16 + line / 4 % 16 else line / 4
  64 * die + inDie % 64

/-- Key of an object's line in the map of injected DRAM errors. -/
def dramKey (t h line : Nat) : Nat := t * 2 ^ 64 + h * 2 ^ 34 + line

/-- Log record of a DRAM line (R401): island of the die's controller. -/
def dramLog (cls outcome t h line : Nat) (o : Obj) (inj : Bool) : LogRec :=
  let ch := o.channel line
  { LogRec.none_ with cls := cls, outcome := outcome, island := 144 + ch / 4, domain := 10 + ch / 64, tenant := t,
                      flags := b2n inj, address := mkRef h + 64 * line }

/-- A read of a T2 line, by a command, a move or patrol scrub, finds an error (R166): a single bit is corrected and counted, a double bit
counted and the line poisoned; both are logged, and an injected error is used up. -/
def State.eccFound (s : State) (t h line : Nat) (double inj : Bool) : State :=
  match s.obj t h with
  | none => s
  | some o =>
    let die := o.channel line / 64
    let s1 := { s with rel := { s.rel with dram := NMap.set 0 s.rel.dram (dramKey t h line) 0 } }
    if double then ((s1.bump (aTID die 0x10) 1).setObj t h (some { o with poison := NMap.set false o.poison line true })).addLog
      (dramLog 2 1 t h line o inj)
    else (s1.bump (aTID die 0x08) 1).addLog (dramLog 1 0 t h line o inj)

/-- Bytes of a line with those the module does not hold (`hole`) taken from the home. -/
def fillHole (hole : Nat) (own home : List Byte) : List Byte :=
  (List.range 64).map fun i => if hole.testBit i then home.getD i 0 else own.getD i 0

/-- The line is read from the channels of T2: the object's complete copy, or its home, lies there and L2 holds no line in its place. -/
def Obj.inDram (o : Obj) (line : Nat) : Bool := o.level = 2 && (o.copied || !(NMap.get false o.dirty line && NMap.get 0 o.hole line = 0))

/-- A line as reader `rd` sees it (R157, R159, R166, R170, R227): from a copy or a dirty line above the home, else from the home. One on a failed
channel cannot be read (R167); an injected DRAM error is met, and corrected or poisoned, before the line is read. -/
def State.readLine (s : State) (rd t h : Nat) (o : Obj) (line : Nat) : Line :=
  let p := NMap.get false o.poison line
  let own := Memory.readN o.data (64 * line) 64
  let hole := NMap.get 0 o.hole line
  let dirty := NMap.get false o.dirty line
  let inj := NMap.get 0 s.rel.dram (dramKey t h line)
  if o.inDram line && NMap.get false s.rel.channels (o.channel line) then Line.bad (failWith stTierFailed 2)
  else if o.inDram line && inj ≠ 0 && rd ≠ 0 then Line.bad (some (askEcc h line))
  else if o.copied || (dirty && hole = 0) then (own, p || (o.inDram line && inj = 2), none)
  else
    let x := s.homeLine rd t o line
    (if dirty then fillHole hole own x.1 else x.1, p || x.2.1 || (o.inDram line && inj = 2), x.2.2)

/-- What reading a range of an object gives. -/
structure Rd where
  fail : Option Fail
  bytes : List Byte
  poison : Bool
  deriving Repr

def Rd.bad (status reason : Nat) : Rd := { fail := failWith status reason, bytes := [], poison := false }
/-- A bound fault (R155). -/
def Rd.bound : Rd := Rd.bad stPoison 0x10

/-- A FREE of the object has started before command `rd` was accepted and waits for what came before it: to that command the handle is not
held (R158). -/
def State.freeing (s : State) (rd t h : Nat) : Bool :=
  rd < 2 ^ 64 && s.cmds.any fun d => d.opcode = 0x1002 && d.stage = .waiting && d.tenant = t && d.id < rd && refHandle (d.p 0 8) = h

/-- Read `n` bytes at offset `off` of a tenant's object for a reader (R155): the first failing line ends the read. -/
def State.readObj (s : State) (rd t h off n : Nat) : Rd :=
  match s.obj t h with
  | none => Rd.bound
  | some o =>
    if o.incomplete || s.freeing rd t h || off + n > o.size then Rd.bound
    else if n = 0 then { fail := none, bytes := [], poison := false }
    else
      let l0 := off / 64
      let y := joinLines ((List.range ((off + n - 1) / 64 - l0 + 1)).map fun i => s.readLine rd t h o (l0 + i))
      { fail := y.2.2, bytes := if y.2.2.isSome then [] else (y.1.drop (off % 64)).take n, poison := y.2.1 && y.2.2.isNone }

/-- Read through a reference. -/
def State.readRef (s : State) (rd t r off n : Nat) : Rd := s.readObj rd t (refHandle r) (refOff r + off) n

/-- Poisoned lines among those that the spans (reference, offset, bytes) touch, each line once: what a command that reads on past
poison adds to TI_POISON (Table 8-9). -/
def State.poisonedLines (s : State) (rd t : Nat) (spans : List (Nat × Nat × Nat)) : Nat :=
  let lines := (spans.flatMap fun x =>
    let a := refOff x.1 + x.2.1
    if x.2.2 = 0 then [] else ((List.range (ceilDiv (a + x.2.2) 64)).drop (a / 64)).map fun l => (refHandle x.1, l)).eraseDups
  lines.countP fun p => (s.readRef rd t (mkRef p.1) (64 * p.2) 64).poison

/-! ### Packets onto ports (R248, R249) -/

def aWF (off : Nat) : Nat := 0x04000000 + off
def aWP (p off : Nat) : Nat := 0x04001000 + p * 0x100 + off

/-- The port is up (Table 11-12). -/
def WfPort.live (p : WfPort) : Bool := p.st = 2 || p.st = 3
def State.wfPort (s : State) (p : Nat) : WfPort := NMap.get WfPort.init s.fabric.ports p
def State.setWfPort (s : State) (p : Nat) (x : WfPort) : State :=
  { s with fabric := { s.fabric with ports := NMap.set WfPort.init s.fabric.ports p x } }

/-- Key of a source, destination and class among the ports in use. -/
def pathKey (src dst cls : Nat) : Nat := src * 2 ^ 17 + 2 * dst + cls

/-- Live port of a packet's route entry (R249): the one its stream uses while that lives, else the hash's choice. Entries for nodes that are no
members are ignored. -/
def State.routePort (s : State) (src dst cls : Nat) : Option Nat :=
  let live := if NMap.get false s.fabric.members dst then
      (setBits 8 (NMap.get 0 s.fabric.routes (2 * dst + cls))).filter fun p => (s.wfPort p).live else []
  let used := NMap.get 0 s.fabric.paths (pathKey src dst cls)
  if used > 0 ∧ live.contains (used - 1) then some (used - 1) else live[Config.routeHash src dst live.length % live.length]?

/-- Space of a port's ingress buffer is free again, its credit to be returned (R243). -/
def State.freeIngress (s : State) (port vc units : Nat) : State :=
  if port ≥ 8 then s
  else
    let x := s.wfPort port
    let n := min units (NMap.get 0 x.ingress vc)
    s.setWfPort port { x with ingress := NMap.set 0 x.ingress vc (NMap.get 0 x.ingress vc - n),
                              owed := NMap.set 0 x.owed vc (NMap.get 0 x.owed vc + n) }

/-- A packet joins a port's queue behind those that came no later (R245). -/
def queueByAge (l : List OutPkt) (q : OutPkt) : List OutPkt := (l.takeWhile fun r => r.at_ ≤ q.at_) ++ q :: (l.dropWhile fun r => r.at_ ≤ q.at_)

/-- Queue a packet of class `cls` at the live port of its route entry; without one it is discarded, and leaves the ingress buffer (R249). -/
def State.forward (s : State) (vc cls : Nat) (q : OutPkt) : State :=
  match s.routePort q.src q.dst cls with
  | none => (s.freeIngress q.from_ vc (ceilDiv q.bytes 32)).bump (aWF 0x818) 1
  | some p =>
    let x := s.wfPort p
    let s1 := s.setWfPort p { x with out := NMap.set [] x.out vc (queueByAge (NMap.get [] x.out vc) q) }
    { s1 with fabric := { s1.fabric with paths := NMap.set 0 s1.fabric.paths (pathKey q.src q.dst cls) (p + 1) } }

/-- A packet with `payload` bytes for node `dst` meets an armed poison of its port (Table 19-6 kind 0x08): it leaves poisoned, which
is logged. -/
def State.spoilWf (s : State) (dst payload : Nat) : Bool × State :=
  match (if dst = s.fabric.node ∨ payload = 0 then none else s.routePort s.fabric.node dst 0) with
  | none => (false, s)
  | some p =>
    let n := NMap.get 0 s.rel.wfPoison p
    if n = 0 then (false, s)
    else (true, { s with rel := { s.rel with wfPoison := NMap.set 0 s.rel.wfPoison p (n - 1) } }.addLog
      { LogRec.none_ with cls := 2, outcome := 1, island := 200 + p, domain := 15, flags := 1 })

/-- A packet of this module leaves for node `dst` on a virtual channel (Table 11-1); one for the module itself crosses no port
(R211). Its header is 32 bytes, its payload whole 32-byte units (R239). -/
def State.launch (s : State) (vc dst payload : Nat) : State :=
  if dst = s.fabric.node then s
  else s.forward vc 0 { bytes := 32 + roundUp payload 32, src := s.fabric.node, dst := dst, from_ := 8, at_ := s.now, losses := 0 }

/-- Virtual channel of a message the fabric engine sends on its own (Table 11-1). -/
def SentKind.channel : SentKind → Nat
  | .signal | .lease | .status => 3
  | .writeBackAsked | .ownerTold | .released | .resent => 0
  | _ => 1

/-- Something passes from this module to itself (R211). -/
def State.loopIn (s : State) (x : Loop) : State := { s with fabric := { s.fabric with loop := s.fabric.loop ++ [x] } }

/-- Send a message; one to this module itself crosses no port (R211). -/
def State.send (s : State) (m : Sent) : State :=
  let (bad, s) := s.spoilWf m.node m.data.length
  let m := { m with poison := m.poison || bad }
  let s1 := { s with fabric := { s.fabric with sent := m :: s.fabric.sent } }
  if m.node = s.fabric.node then s1.loopIn (.answer m) else s1.launch m.kind.channel m.node m.data.length

/-! ### Posted operations (R220–R224) -/

/-- A stream to a node, fresh where none stands. -/
def State.stream (s : State) (node : Nat) : StreamOut :=
  (NMap.get none s.fabric.out node).getD { epoch := 0, next := 0, acked := 0, pending := [], lastAck := s.now }

/-- Lines fetched from [off, off + n) of a node's fabric space are read again after a write to it (R221). -/
def State.dropFetched (s : State) (node off n : Nat) : State :=
  { s with fabric := { s.fabric with lines := s.fabric.lines.filter fun l =>
      !(l.node = node && off < 64 * l.line + 64 && 64 * l.line < off + n) } }

/-- Issue one operation into the stream to `node`: it takes the next sequence number (R220). An atomic travels on its own virtual channel
(Table 11-1). -/
def State.post (s : State) (node t c cmd kind : Nat) (p : FabPkt) : State :=
  let (bad, s) := s.spoilWf node p.data.length
  let st := s.stream node
  let p := { p with src := s.fabric.node, epoch := st.epoch, seq := st.next, poison := p.poison || bad }
  let o : Outstanding := { seq := st.next, tenant := t, ctx := c, cmd := cmd, kind := kind, offset := p.offset, issuedAt := s.now,
                           sentAt := s.now, pkt := p }
  let st1 := { st with next := (st.next + 1) % 2 ^ 32, pending := st.pending ++ [o],
                       lastAck := if st.pending.isEmpty then s.now else st.lastAck }
  let s1 := { s with fabric := { s.fabric with out := NMap.set none s.fabric.out node (some st1) } }
  let s2 := if kind ≤ 2 then s1.dropFetched node p.offset p.size else s1
  if node = s.fabric.node then s2.loopIn (.op o) else s2.launch (if kind = 1 then 2 else 0) node p.data.length

/-- An operation of `n` enabled bytes from byte `lo` of a block of `size` bytes (R219). -/
def blockPkt (i : Import) (block size lo epoch : Nat) (bs : List Byte) (poison : Bool) : FabPkt :=
  { src := 0, epoch := 0, seq := 0, offset := block, key := i.key, size := size, enable := (2 ^ bs.length - 1) * 2 ^ lo,
    data := List.replicate lo 0 ++ bs ++ List.replicate (size - lo - bs.length) 0, poison := poison, ownEpoch := epoch, port := 8 }

/-- The block with which a write of `n` bytes at `off` goes on: whole aligned blocks of 256, 128 and 64 B, else the smallest block of 8, 16, 32 or
64 B of its line that holds the bytes (R219: the spec leaves the split open, log 129). A poisoned write goes line by line, for its one poison
bit (Table 19-4). -/
def blockSize (off n : Nat) (poison : Bool) : Nat :=
  let k := min n (64 - off % 64)
  if off % 256 = 0 ∧ n ≥ 256 ∧ !poison then 256
  else if off % 128 = 0 ∧ n ≥ 128 ∧ !poison then 128
  else ([8, 16, 32].find? fun b => off % b + k ≤ b).getD 64

/-- Split a write at region offset `off` into operations and post them. -/
def State.postLines (s : State) (i : Import) (t c cmd kind epoch : Nat) : Nat → Nat → List Byte → Bool → State
  | 0, _, _, _ => s
  | f + 1, off, bs, poison =>
    if bs.isEmpty then s
    else
      let b := blockSize off bs.length poison
      let n := b - off % b
      State.postLines (s.post i.node t c cmd kind (blockPkt i (off / b * b) b (off % b) epoch (bs.take n) poison)) i t c cmd kind epoch f
        (off + n) (bs.drop n) poison

/-- Poison lines of a region without changing their bytes: stores with no byte enabled (Table 2-14, R219). -/
def State.postPoison (s : State) (i : Import) (t c cmd kind epoch : Nat) (lines : List Nat) : State :=
  lines.foldl (fun (s : State) l => s.post i.node t c cmd kind (blockPkt i (64 * l) 64 0 epoch [] true)) s

/-- Loads and probes whose answers the response store keeps room for (R244). -/
def State.reserved (s : State) : Nat :=
  s.fabric.out.foldl (fun a e => match e.2 with | some x => a + x.pending.countP fun o => o.kind = 4 || o.kind = 9 | none => a) 0

/-- The response store has room for another answer. -/
def State.answerRoom (s : State) : Bool := s.reserved ≤ Config.responseRoom

/-- Load a line of a region for a reader, once: numbered in the stream as every operation, and only with room for its answer (R219, R220,
R244). -/
def State.ask (s : State) (t c rd imp line : Nat) : State :=
  match NMap.get none s.fabric.imports imp with
  | none => s
  | some i =>
    if (s.stream i.node).pending.any (fun o => o.kind = 9 && o.cmd = rd && o.offset = 64 * line) || !s.answerRoom then s
    else s.post i.node t c rd 9 { blockPkt i (64 * line) 64 0 0 [] false with data := [] }

/-- See to what a read of a tenant's object asks for. -/
def State.seeTo (s : State) (t c rd : Nat) (f : Fail) : State :=
  if fieldAt f.2 0 1 = 0 then s.ask t c rd (fieldAt f.2 1 4) (fieldAt f.2 5 8)
  else
    let h := fieldAt f.2 1 4
    let line := fieldAt f.2 5 8
    s.eccFound t h line (NMap.get 0 s.rel.dram (dramKey t h line) = 2) true

/-- What the body that just ran command `id` asks for. -/
def State.asks (s : State) (id : Nat) : Option Fail :=
  match s.cmd? id with
  | some c => if c.status = stAsk then some (c.status, c.result) else none
  | none => none

/-- Run a command's body; what a read of it asks for is seen to instead of the body's effect. A corrected line is read at once, a line of
another module when it has come: the command's event runs the body then. -/
def readingFor (body : State → Cmd → State) (c : Cmd) : Nat → State → State
  | 0, s => body s c
  | k + 1, s =>
    match (body s c).asks c.id with
    | none => body s c
    | some f => if fieldAt f.2 0 1 = 0 then s.seeTo c.tenant c.ctx c.id f else readingFor body c k (s.seeTo c.tenant c.ctx c.id f)

/-- A body that reads objects. -/
def reading (body : State → Cmd → State) (s : State) (c : Cmd) : State := readingFor body c (s.rel.dram.length + 1) s

/-! ### Writes -/

/-- Bring a line into the contents above the home before it is modified there. -/
def State.liftLine (s : State) (rd t h : Nat) (o : Obj) (line : Nat) : Obj :=
  if o.copied || NMap.get false o.dirty line then o
  else
    let x := s.readLine rd t h o line
    { o with data := Memory.writeN o.data (64 * line) x.1, poison := NMap.set false o.poison line (x.2.1 || x.2.2.isSome) }

/-- Poison of the lines of [off, off + n) after a write (R399): a whole-line write replaces it, a partial one keeps what was
set; a poisoned write sets it. -/
def poisonAfter (m : NMap Bool) (off n : Nat) (poison : Bool) : NMap Bool :=
  if n = 0 then m
  else (List.range ((off + n - 1) / 64 - off / 64 + 1)).foldl (fun m i =>
    let l := off / 64 + i
    let whole := off ≤ 64 * l && 64 * l + 64 ≤ off + n
    if poison then NMap.set false m l true else if whole then NMap.set false m l false else m) m

/-- Lines of a byte range. -/
def linesOf (off n : Nat) : List Nat := if n = 0 then [] else (List.range ((off + n - 1) / 64 - off / 64 + 1)).map (off / 64 + ·)

/-- Exports of a tenant's object. -/
def State.exportsOf (s : State) (t h : Nat) : List Export :=
  s.fabric.exports.filterMap fun e => match e.2 with
    | some x => if x.tenant = t ∧ x.handle = h then some x else none
    | none => none

/-- How a write reaches an object. -/
inductive WriteWay
  /-- it fails: a bound fault, or a tier failure with its cause -/
  | fail (f : Option Fail)
  /-- into the contents above the home, the lines dirty -/
  | cached
  /-- into the home's local storage -/
  | store
  /-- into host memory -/
  | host
  /-- posted to the region's home -/
  | post (i : Import)
  /-- as the region's atomic operation on local contents: the operation, and where the region starts in the object -/
  | atomic (op base : Nat)

def WriteWay.bound : WriteWay := .fail (failWith stPoison 0x10)

/-- A payload that suits an atomic operation at object byte `o` (R224–R226). -/
def atomicAligned (op o n : Nat) (determinism : Bool) : Bool :=
  atomicPayload op ≠ 0 && o % atomicPayload op = 0 && n % atomicPayload op = 0 && !(determinism && isCas op)

/-- R155, R162, R226, R227, R235: which way a write of `n` bytes at `off` of a T3 object goes. A copy of a region that this module does not own is
a read-only snapshot. -/
def State.remoteWay (s : State) (o : Obj) (off n : Nat) (determinism : Bool) : WriteWay :=
  match NMap.get none s.fabric.imports o.imp with
  | none => .fail (failWith stTierFailed 0x13)
  | some i =>
    if s.fabric.fenced || i.dead then .fail (failWith stTierFailed 0x23)
    else if i.copyWriter then .post i
    else if i.mode = 0 then (if i.owner = s.fabric.node then .cached else .bound)
    else if !i.write || o.copied then .bound
    else if i.mode = 2 then (if atomicAligned i.operation (o.base + off) n determinism then .post i else .bound)
    else .post i

/-- R155, R227, R235: which way a write of `n` bytes at `off` goes, of an object whose home is here or on the host. -/
def State.localWay (s : State) (o : Obj) (t h off n : Nat) (determinism : Bool) : WriteWay :=
  let plain := if o.copied || o.compress then WriteWay.cached else if o.home = 4 then .host else .store
  match (s.exportsOf t h).find? fun e => e.offset < off + n && off < e.offset + e.length with
  | some e =>
    if !e.complete then .bound
    else if e.mode = 0 ∧ e.owner ≠ s.fabric.node then .bound
    else if e.mode = 2 then (if atomicAligned e.operation (off - e.offset) n determinism then .atomic e.operation e.offset else .bound)
    else plain
  | none => plain

/-- Which way a write that crosses no region boundary goes. -/
def State.writeWay (s : State) (o : Obj) (t h off n : Nat) (determinism : Bool) : WriteWay :=
  if o.incomplete || off + n > o.size then .bound
  else if o.home = 3 then s.remoteWay o off n determinism else s.localWay o t h off n determinism

/-- Cut [off, off + n) of an object where its exported regions start and end (R224: a region's operation reaches no byte outside it). -/
def cutAt (es : List Export) : Nat → Nat → Nat → List (Nat × Nat)
  | 0, _, _ => []
  | f + 1, off, n =>
    if n = 0 then []
    else
      let stop := ((es.flatMap fun e => [e.offset, e.offset + e.length]).filter fun b => off < b && b < off + n).foldl min (off + n)
      (off, stop - off) :: cutAt es f stop (off + n - stop)

/-- A replayed command without SEND_REMOTE sends nothing to other modules (R417). -/
def State.muted (s : State) (t c cmd : Nat) : Bool :=
  match s.cmd? cmd with
  | some d => d.replayed && (match (s.ctx t c).replaying with | some r => !r.sendRemote | none => false)
  | none => false

/-- Lines of a write into contents above the home that must be brought there first: the lines a write covers in part, and of a compressible T3
object the whole blocks, so that writing them back reads nothing (R171). -/
def Obj.linesToLift (o : Obj) (off n : Nat) : List Nat :=
  if o.home = 3 ∧ o.compress ∧ !o.copied then ((linesOf off n).map (· / 64)).eraseDups.flatMap fun b => (List.range 64).map (64 * b + ·)
  else if o.home = 3 then []
  else (linesOf off n).filter fun l => !(off ≤ 64 * l && 64 * l + 64 ≤ off + n)

/-- Bytes of a line that [off, off + n) covers, 64 bits. -/
def coverMask (line off n : Nat) : Nat :=
  let lo := max off (64 * line) - 64 * line
  let hi := min (off + n) (64 * line + 64) - 64 * line
  (2 ^ (hi - lo) - 1) * 2 ^ lo

/-- Mark a line of an object modified by a write of [off, off + n), under the ownership epoch `epoch`. -/
def Obj.modify (o : Obj) (epoch off n : Nat) (line : Nat) : Obj :=
  let old := if NMap.get false o.dirty line then NMap.get 0 o.hole line else if o.home = 3 ∧ !o.copied ∧ !o.compress then 2 ^ 64 - 1 else 0
  { o with dirty := NMap.set false o.dirty line true, hole := NMap.set 0 o.hole line (old - Nat.land old (coverMask line off n)),
           epochs := if o.home = 3 then NMap.set 0 o.epochs line epoch else o.epochs }

/-- A write into the contents above the home; a line that must be brought there and cannot be read ends it. -/
def State.cacheWrite (s : State) (rd t h : Nat) (o : Obj) (off : Nat) (bs : List Byte) (poison : Bool) : State × Option Fail :=
  let need := (o.linesToLift off bs.length).filter fun l => !o.copied && !NMap.get false o.dirty l
  match need.findSome? fun l => (s.readLine rd t h o l).2.2 with
  | some f => (s, some f)
  | none =>
    let epoch := match NMap.get none s.fabric.imports o.imp with | some i => i.epoch | none => 0
    let o1 := need.foldl (fun o l => { s.liftLine rd t h o l with dirty := NMap.set false o.dirty l true,
                                                                  epochs := if o.home = 3 then NMap.set 0 o.epochs l epoch else o.epochs }) o
    let o2 := (linesOf off bs.length).foldl (fun o l => o.modify epoch off bs.length l) o1
    (s.setObj t h (some { o2 with data := Memory.writeN o2.data off bs, poison := poisonAfter o2.poison off bs.length poison }), none)

/-! ### Home atomic units (R233, R234) -/

/-- Unit of a line. -/
def homeUnitOf (off : Nat) : Nat := Config.homeUnit (off / 64) % 8

/-- Entries of a unit whose operations are not yet absorbed. -/
def State.entries (s : State) (u : Nat) : List HomeEntry := (NMap.get [] s.fabric.units u).filter fun e => s.now < e.drained

/-- Absorb an operation into its line's entry, 1.25 ns after the last (R234). -/
def State.absorb (s : State) (u line : Nat) : State :=
  let es := s.entries u
  let es1 := if es.any (·.line = line) then es.map fun e => if e.line = line then { e with drained := e.drained + 5 } else e
    else es ++ [{ line := line, drained := s.now + 5 }]
  { s with fabric := { s.fabric with units := NMap.set [] s.fabric.units u es1 } }

/-- An operation on a line of this module's fabric space meets pending operations of that line. -/
def State.lineBusy (s : State) (off : Nat) : Bool := (s.entries (homeUnitOf off)).any (·.line = off / 64)

/-- Count an atomic applied, and folded into a pending value where its line had one; CAS never is (R225, R234). -/
def State.countAtomic (s : State) (op : Nat) (busy : Bool) : State :=
  if busy && !isCas op then (s.bump (aWF 0x030) 1).bump (aWF 0x038) 1 else s.bump (aWF 0x030) 1

/-- The exporter's own write to its atomic region passes through the home atomic units line by line, as an operation (R224, R234). -/
def State.atomicUnits (s : State) (op at_ n : Nat) : State :=
  (linesOf at_ n).foldl (fun (s : State) l => (s.countAtomic op (s.lineBusy (64 * l))).absorb (homeUnitOf (64 * l)) l) s

/-- Whole lines written clear the errors injected into them (R166). -/
def State.clearErrors (s : State) (t h off n : Nat) : State :=
  let whole := (linesOf off n).filter fun l => off ≤ 64 * l && 64 * l + 64 ≤ off + n
  if s.rel.dram.isEmpty then s
  else { s with rel := { s.rel with dram := whole.foldl (fun m l => NMap.set 0 m (dramKey t h l) 0) s.rel.dram } }

/-- One piece of a write takes its way (R155, R222, R399); a replayed command without SEND_REMOTE posts nothing (R417). -/
def State.writePiece (s : State) (t c cmd h : Nat) (o : Obj) (way : WriteWay) (off : Nat) (bs : List Byte) (poison : Bool) : State × Option Fail :=
  let o1 := { o with poison := poisonAfter o.poison off bs.length poison }
  match way with
  | .fail f => (s, f)
  | .store => ((s.setObj t h (some { o1 with store := Memory.writeN o.store off bs })).clearErrors t h off bs.length, none)
  | .host => (s.dmaWrite t (o.base + off) bs poison, none)
  | .atomic op base =>
    let run (m : Memory) := atomicRun op base m (off - base) bs.length bs
    let at_ := (((s.exportsOf t h).find? fun e => e.offset = base).map (·.base)).getD 0
    ((s.setObj t h (some (if o.copied then { o1 with data := run o.data } else { o1 with store := run o.store }))).atomicUnits op
      (at_ + (off - base)) bs.length, none)
  | .cached => s.cacheWrite cmd t h o off bs poison
  | .post i =>
    (if s.muted t c cmd then s
     else s.postLines i t c cmd (if i.mode = 2 ∧ !i.copyWriter then 1 else 0) i.epoch (bs.length + 1) (i.base + o.base + off) bs poison, none)

/-- Pieces of a write one after another, until one fails. -/
def State.writePieces (t c cmd h : Nat) (det : Bool) (off : Nat) (bs : List Byte) (poison : Bool) : List (Nat × Nat) → State → State × Option Fail
  | [], s => (s, none)
  | (x, n) :: rest, s =>
    match s.obj t h with
    | none => (s, failWith stPoison 0x10)
    | some o =>
      match s.writePiece t c cmd h o (s.writeWay o t h x n det) x ((bs.drop (x - off)).take n) poison with
      | (s1, none) => State.writePieces t c cmd h det off bs poison rest s1
      | r => r

/-- Write bytes into an object for a command (R155, R222, R399). The pieces between region boundaries are all permitted before one is written. -/
def State.writeObj (s : State) (t c cmd h off : Nat) (bs : List Byte) (poison determinism : Bool) : State × Option Fail :=
  match s.obj t h with
  | none => (s, failWith stPoison 0x10)
  | some o =>
    if bs.isEmpty then (s, none)
    else if o.incomplete || s.freeing cmd t h || off + bs.length > o.size then (s, failWith stPoison 0x10)
    else
      let es := s.exportsOf t h
      let ps := cutAt es (2 * es.length + 1) off bs.length
      match ps.findSome? fun p => match s.writeWay o t h p.1 p.2 determinism with | .fail f => f | _ => none with
      | some f => (s, some f)
      | none => State.writePieces t c cmd h determinism off bs poison ps s

/-- Part of a write by a command of a context that records lies in its own record ring. -/
def State.overRing (s : State) (t c cmd h off n : Nat) : Bool :=
  match (s.ctx t c).recording with
  | some r => cmd ≠ 0 && refHandle r.ring = h && off < r.bytes && 0 < n
  | none => false

/-- What such a write leaves in the bytes that overlap the ring is unspecified: free values (R416, log 4). -/
def State.ringBytes (s : State) (t c h off : Nat) (bs : List Byte) : List Byte :=
  let size := ((s.ctx t c).recording.map (·.bytes)).getD 0
  (List.range bs.length).map fun i =>
    if off + i < size then Config.freeByte ((s.free * 2 ^ 24 + h) * 2 ^ 40 + off + i) else bs.getD i 0

/-- Write through a reference. -/
def State.writeRef (s : State) (t c cmd r off : Nat) (bs : List Byte) (poison determinism : Bool) : State × Option Fail :=
  let h := refHandle r
  let o := refOff r + off
  if s.overRing t c cmd h o bs.length then
    { s with free := s.free + 1 }.writeObj t c cmd h o (s.ringBytes t c h o bs) poison determinism
  else s.writeObj t c cmd h o bs poison determinism

/-- Poison lines of [off, off + n) of an object without changing its bytes (Table 2-14): in host memory for a plain T4 home, at the region's home
where its writes are posted, else here; a line of an owned region is then modified without a byte of it held. -/
def State.poisonObj (s : State) (t h off n : Nat) : State :=
  match s.obj t h with
  | none => s
  | some o =>
    let ls := linesOf off (min n (o.size - off))
    let set (m : NMap Bool) := ls.foldl (fun m l => NMap.set false m l true) m
    if o.copied || o.compress then s.setObj t h (some { o with poison := set o.poison })
    else if o.home = 4 then
      if s.hostGone then s
      else { s with hostPoison := ls.foldl (fun m l => NMap.set false m (hostLine t (o.base + 64 * l)) true) s.hostPoison }
    else if o.home = 3 then
      match s.remoteWay o (64 * (off / 64)) 64 false, NMap.get none s.fabric.imports o.imp with
      | .post i, _ => s.postPoison i t 0 0 (if i.mode = 2 ∧ !i.copyWriter then 1 else 0) i.epoch (ls.map fun l => (i.base + o.base) / 64 + l)
      | .cached, some i => s.setObj t h (some { ls.foldl (fun o l => o.modify i.epoch 0 0 l) o with poison := set o.poison })
      | _, _ => s
    else s.setObj t h (some { o with poison := set o.poison })

/-- What a copy of an object above its home is made of, line by line, as reader `rd` sees it: its bytes, the poisoned lines, and what stops
it. -/
def State.snapshot (s : State) (rd t h : Nat) (o : Obj) : List (Nat × Line) :=
  (List.range (o.size / 64)).map fun l => (l, s.readLine rd t h o l)

/-- Encode and write back a block of a compressible object (R171): lines that cannot be read are poisoned. -/
def State.writeBackBlock (s : State) (t h b : Nat) (o : Obj) : State :=
  let ls := (List.range 64).map fun i => s.readLine (moveReader t h) t h o (64 * b + i)
  let bad (l : Line) : Bool := l.2.1 || l.2.2.isSome
  let r := quinceEncode o.alphabet (ls.flatMap (·.1)) (ls.any bad)
  let numbers := (List.range 64).map (64 * b + ·)
  let o1 := { o with dirty := numbers.foldl (fun m l => NMap.set false m l false) o.dirty,
                     poison := (numbers.zip ls).foldl (fun m x => NMap.set false m x.1 (bad x.2 && (o.home = 2 || o.copied))) o.poison }
  -- a raw block goes line by line, each with its poison (Table 19-4)
  let pieces : List (Nat × List Byte × Bool) := if r.1.st = 0 then (numbers.zip ls).map fun x => (64 * x.1, x.2.1, bad x.2) else [(4096 * b, r.2, false)]
  if o.home = 4 then
    (pieces.foldl (fun (s : State) p => s.dmaWrite t (o.base + p.1) p.2.1 p.2.2) (s.setObj t h (some o1))).dmaWrite t
      (o.base + o.storage + 8 * b) (leBytes 8 r.1.bits) false
  else if o.home = 3 then
    match NMap.get none s.fabric.imports o.imp with
    | some i =>
      let e := NMap.get 0 o.epochs (64 * b)
      (pieces.foldl (fun (s : State) p => s.postLines i t 0 0 2 e (p.2.1.length + 1) (i.base + o.base + p.1) p.2.1 p.2.2)
        (s.setObj t h (some o1))).postLines i t 0 0 2 e 9 (i.base + o.base + o.storage + 8 * b) (leBytes 8 r.1.bits) false
    | none => s.setObj t h (some o1)
  else s.setObj t h (some { o1 with store := Memory.writeN o.store (4096 * b) r.2, blocks := NMap.set MapEntry.zero o.blocks b r.1 })

/-- Runs of bytes a line holds: (offset in the line, bytes). -/
def heldRuns (hole : Nat) (bs : List Byte) : List (Nat × List Byte) :=
  ((List.range 64).foldl (fun (a : List (Nat × List Byte)) i =>
    if hole.testBit i then a
    else match a with
      | (o, l) :: r => if o + l.length = i then (o, l ++ [bs.getD i 0]) :: r else (i, [bs.getD i 0]) :: a
      | [] => [(i, [bs.getD i 0])]) []).reverse

/-- Write one modified line back to its home (R160, R171, R227, R228). For a compressible object its whole block is decoded, merged and
encoded. -/
def State.writeBackLine (s : State) (t h line : Nat) : State :=
  match s.obj t h with
  | none => s
  | some o =>
    if !NMap.get false o.dirty line then s
    else if o.compress then s.writeBackBlock t h (line / 64) o
    else
      let bytes := Memory.readN o.data (64 * line) 64
      let p := NMap.get false o.poison line
      let o1 := { o with dirty := NMap.set false o.dirty line false, hole := NMap.set 0 o.hole line 0 }
      if o.home = 4 then (s.setObj t h (some { o1 with poison := if o.copied then o.poison else NMap.set false o.poison line false })).dmaWrite t
        (o.base + 64 * line) bytes p
      else if o.home = 3 then
        let s1 := s.setObj t h (some { o1 with poison := if o.copied then o.poison else NMap.set false o.poison line false })
        match NMap.get none s.fabric.imports o.imp with
        | some i =>
          let e := NMap.get 0 o.epochs line
          let at_ := i.base + o.base + 64 * line
          let runs := heldRuns (NMap.get 0 o.hole line) bytes
          if runs.isEmpty then s1.postPoison i t 0 0 2 e [at_ / 64]
          else runs.foldl (fun (s : State) r => s.postLines i t 0 0 2 e (r.2.length + 1) (at_ + r.1) r.2 p) s1
        | none => s1
      else (s.setObj t h (some { o1 with store := Memory.writeN o.store (64 * line) bytes })).clearErrors t h (64 * line) 64

/-- Write back every modified line of an object. -/
def State.writeBackAll (s : State) (t h : Nat) : State :=
  match s.obj t h with
  | none => s
  | some o => (NMap.keys o.dirty).foldl (fun s l => s.writeBackLine t h l) s

end Sys2Proof.Machine
end

