-- ==== Sys2Proof/Machine/Packets.lean ====
section
/-! DEFINITION. Packets (R24): the opcode table's scopes, entries and lengths (Table 2-9), parsing, and checks 3 to 9 of Table 2-5. -/
namespace Sys2Proof.Machine

/-- Opcodes of protocol 1.0 and 1.1 (Table 2-9). -/
def opcodes : List Nat :=
  [0x0001, 0x0002, 0x0003, 0x0004, 0x0005, 0x0006, 0x0007,
   0x1001, 0x1002, 0x1003, 0x1004, 0x1010, 0x1011, 0x1012, 0x1013, 0x1014, 0x1020,
   0x2001, 0x2002, 0x2003, 0x2004, 0x2005, 0x2010, 0x2011, 0x2012, 0x2013,
   0x3001, 0x3002, 0x3003, 0x3004,
   0x4001, 0x4002, 0x4003, 0x4004, 0x4010, 0x4011, 0x4020, 0x4021,
   0x5001, 0x5002, 0x5003, 0x5010, 0x5011, 0x5020, 0x5030,
   0x6001, 0x6002, 0x6003, 0x6004, 0x6005,
   0x7001, 0x7002, 0x7003, 0x7004,
   0x8001, 0x8002, 0x8003, 0x8004, 0x8005,
   0x9001, 0x9002, 0x9003, 0x9004, 0x9005,
   0xE001, 0xE002, 0xE003, 0xE004, 0xE005, 0xE006, 0xE007]

/-- Opcodes that protocol 1.1 adds (R42). -/
def opcodes11 : List Nat := [0x2010, 0x2011, 0x2012, 0x2013]

/-- Check 4: assigned, and defined at the agreed version (R42). -/
def opDefined (op version : Nat) : Bool := opcodes.contains op && (!opcodes11.contains op || version != 0x10)

/-- Check 5: Table 2-9. -/
def entryAllowed (op : Nat) (e : Entry) : Bool :=
  let c := op / 0x1000
  match e with
  | .mgmt => [0x0001, 0x0002, 0x4020, 0x4021, 0x5001, 0x5002, 0x5003, 0x5020, 0x6001, 0x6002, 0x6003, 0x6004, 0x6005].contains op
      || c = 7 || c = 8 || c = 0xE
  | .pf => true
  | .vf => [0x0001, 0x0002, 0x0003, 0x0004, 0x0005, 0x0006, 0x0007, 0x6005, 0x8001, 0x8005, 0xE003].contains op
      || c = 1 || c = 2 || c = 3 || (c = 4 && op < 0x4020) || c = 9
  | .remote => [0x3001, 0x3004, 0x4020].contains op

/-- Parameter bytes of an opcode; for one whose length depends on its own fields, the fixed part (check 6). -/
def paramLen (op : Nat) (e : Entry) : Nat :=
  match op with
  | 0x0001 | 0x0003 | 0x0004 | 0x0006 | 0x0007 | 0x6005 | 0x9002 | 0x9005 => 0
  | 0x0002 => if e = .mgmt then 0 else 8
  | 0x1001 | 0x1003 | 0x1004 | 0x2004 | 0x4002 | 0x4020 | 0x4021 | 0x5030 | 0x6001 | 0x6003 | 0x6004
  | 0x7001 | 0x7002 | 0x7003 | 0x7004 | 0x8001 | 0x8004 | 0x9001 | 0x9004 | 0xE001 | 0xE006 => 32
  | 0x1010 | 0x2005 | 0x4001 | 0xE003 => 48
  | 0x2001 => 176
  | 0x2002 => 208
  | 0x2010 | 0x2011 | 0x2013 | 0x4011 => 64
  | 0x4010 => 80
  | 0x5001 => 56
  | 0xE007 => 40
  | _ => 16

/-- Opcodes whose parameter length depends on their own fields (check 6). -/
def lenVaries (op : Nat) : Bool := op = 0x2004 || op = 0x5010 || op = 0x5011

/-- Packet length of parameters and tokens, padded to 16 B (R24). -/
def packetLen (params tokens : Nat) : Nat := roundUp (16 + 4 * tokens + params + 8) 16

/-- A packet as a command not yet accepted: tokens and parameters cut out of its bytes (R24, Table 2-2). The parameters of an
opcode of variable length run up to the seal word. -/
def parseCmd (bs : List Byte) (e : Entry) (tenant : Nat) : Cmd :=
  let op := fieldAt bs 0 2
  let w := fieldAt bs 10 1
  let g := fieldAt bs 11 1
  let o := 16 + 4 * (w + g)
  let words (k n : Nat) : List Nat := (List.range n).map fun i => fieldAt bs (k + 4 * i) 4
  { id := 0, entry := e, tenant := tenant, ctx := fieldAt bs 8 2, opcode := op, flags := fieldAt bs 3 1,
    tag := fieldAt bs 6 2, waits := words 16 w, signals := words (16 + 4 * w) g,
    params := if lenVaries op then (bs.drop o).take (bs.length - 8 - o) else (bs.drop o).take (paramLen op e),
    stage := .accepted, acceptedAt := 0, acceptedOut := 0, startedAt := 0, core := none, queue := none, limit := 0, prev := none, program := false,
    replayed := false, signalled := false, disputed := 0, replay := none, image := [], atStep := 0, posts := [], status := 0, result := [], fence := [], since := 0, trailer := [], slowed := 0 }

/-- Header flags (Table 2-2). -/
def Cmd.wantsReply (c : Cmd) : Bool := c.flags.testBit 0
def Cmd.ordered (c : Cmd) : Bool := c.flags.testBit 1
def Cmd.determinism (c : Cmd) : Bool := c.flags.testBit 2
/-- The command runs checked: its flag, or CHECK_CONFIG's FORCE as it started (R388, R403). -/
def Cmd.checked (c : Cmd) : Bool := c.flags.testBit 3 || c.forced

/-- Check 6: counts, and the length its parameters require; on the management port the counts are reserved fields, left to check 7 (R38). `len`
is the header's length in bytes, `bytes` what is there. -/
def lengthOk (bs : List Byte) (e : Entry) : Bool :=
  let op := fieldAt bs 0 2
  let w := if e = .mgmt then 0 else fieldAt bs 10 1
  let g := if e = .mgmt then 0 else fieldAt bs 11 1
  let len := 16 * fieldAt bs 4 2
  w ≤ 6 && g ≤ 2 && len == bs.length
    && (if lenVaries op then len ≥ 16 + 4 * (w + g) + paramLen op e + 8 else len == packetLen (paramLen op e) (w + g))

/-- Check 7's generic part: flags, context bits, header bytes, token bits, padding; the management port names no token and
CONTEXT_RESET waits for nothing (R8, R27, R38, R60). -/
def headerReserved (bs : List Byte) (c : Cmd) : Bool :=
  c.flags < 16 && (if scopeC c.opcode then c.ctx < 64 else c.ctx = 0) && zeroAt bs 12 4
    && c.waits.all (· < 4096) && c.signals.all (· < 4096)
    && (c.entry ≠ .mgmt || (c.waits.isEmpty && c.signals.isEmpty))
    && (c.opcode ≠ 0x0007 || (!c.ordered && c.waits.isEmpty))
    && (lenVaries c.opcode ||
        (let o := 16 + 4 * (c.waits.length + c.signals.length) + c.params.length
         zeroAt bs o (bs.length - 8 - o)))

/-- Check 8: Table 0-2. -/
def unitAbsent (v : Variant) (c : Cmd) : Bool :=
  (!v.radio && c.opcode / 0x1000 = 5) || (!v.fabric && (c.opcode / 0x1000 = 4 || c.opcode = 0x3004))
    || ((c.opcode = 0x7001 || c.opcode = 0x7002 || c.opcode = 0x7003 || c.opcode = 0x7004) && fieldAt c.params 0 1 < 16
        && fieldAt c.params 0 1 ≥ 4 * v.ethPorts)

/-- Checks 3 to 8 of Table 2-5 in order; `resv` is the opcode's own reserved-field test. -/
def formChecks (s : State) (version : Nat) (bs : List Byte) (c : Cmd) (resv : State → Cmd → Bool) : Option Fail :=
  firstFail
    [ (c.opcode = 0x0001 || fieldAt bs 2 1 == version, (stVersion, [])),
      (opDefined c.opcode version, (stBadOpcode, [])),
      (entryAllowed c.opcode c.entry, (stNotPermitted, [])),
      (lengthOk bs c.entry, (stBadLength, [])),
      (headerReserved bs c && resv s c, (stReserved, [])),
      (!unitAbsent s.variant c, (stUnitAbsent, [])) ]

/-- Checks 3 to 10 of Table 2-5 in order; `opck` is the opcode's own checks. -/
def packetChecks (s : State) (version : Nat) (bs : List Byte) (c : Cmd) (resv : State → Cmd → Bool) (opck : State → Cmd → Option Fail) :
    Option Fail :=
  formChecks s version bs c resv <|> (if c.entry = .mgmt then none else s.contextCheck c.opcode c.tenant c.ctx) <|> opck s c

end Sys2Proof.Machine
end

