-- ==== Sys2Proof/Machine/Tier.lean ====
section
/-! DEFINITION. The tier manager: memory opcodes of class 0x1 (R154–R173), moves, trackers, write-back, and program objects. -/
namespace Sys2Proof.Machine

/-! ### Quotas -/

/-- Bytes a tenant is charged (R144, R156). -/
def Tenant.held (t : Tenant) : Nat :=
  t.objs.foldl (fun a e => a + match e.2 with | some o => o.charged | none => 0) t.programCharge

def Tenant.fits (t : Tenant) (bytes : Nat) : Bool := t.held + bytes ≤ t.quota * 2 ^ 20
/-- Objects and program objects held (R154). -/
def Tenant.objects (t : Tenant) : Nat := t.objs.length + t.programs.length

/-- The next handle: after the last assigned, from 1 after 0xFF_FFFF, skipping held ones (R154). -/
def nextHandle (t : Tenant) : Nat → Nat → Nat
  | 0, h => h
  | f + 1, h => let h := if h ≥ 0xFFFFFF then 1 else h + 1; if (NMap.get none t.objs h).isSome then nextHandle t f h else h

/-! ### Pinned lines (R163) -/

/-- Bytes of an object's lines on die `d`: both dies share a DIE 0b00 object by 4 KiB blocks, the east die's first (R157); Sloe has the east die
alone. -/
def Obj.dieBytes (o : Obj) (west : Bool) (d : Nat) : Nat :=
  if !west then (if d = 0 then o.storage else 0)
  else if o.die = 0 then (o.storage / 4096 + (1 - d)) / 2 * 4096 else if (o.die = 1) = (d = 0) then o.storage else 0

/-- Bytes of pinned T1 lines on a die, of tenant 0 or of tenants 1–15. -/
def State.pinnedBytes (s : State) (zero : Bool) (d : Nat) : Nat :=
  s.tenants.foldl (fun a e => if (e.1 = 0) = zero then
    e.2.objs.foldl (fun a x => match x.2 with
      | some o => if o.level = 1 ∧ !o.pins.isEmpty then a + o.dieBytes s.variant.west d else a
      | none => a) a else a) 0

/-- Pinning an object's T1 lines would pass the limit of R163. -/
def State.pinOver (s : State) (t : Nat) (o : Obj) : Bool :=
  (List.range 2).any fun d => s.pinnedBytes (t = 0) d + o.dieBytes s.variant.west d > (if t = 0 then 2 else 32) * 2 ^ 20
    && o.dieBytes s.variant.west d > 0

/-! ### ALLOC -/

def allocHome (c : Cmd) : Nat := c.p 8 1
def allocAttr (c : Cmd) : Nat := c.p 9 1

/-- Reserved fields of ALLOC (Table 8-2). -/
def resvAlloc (c : Cmd) : Bool :=
  let home := allocHome c
  zeroAt c.params 10 2 && zeroAt c.params 24 8 && 2 ≤ home && home ≤ 4 && allocAttr c < 32 && bits (allocAttr c) 3 2 ≠ 3
    && (home = 3 || c.p 12 4 = 0) && (home ≠ 2 || c.p 16 8 = 0)

/-- The object an ALLOC makes. -/
def allocObj (c : Cmd) : Obj :=
  let a := allocAttr c
  let o := { Obj.init with size := c.p 0 8, home := allocHome c, level := allocHome c, compress := a.testBit 0,
                           alphabet := if a.testBit 1 then 2 else 1, die := bits a 3 2, imp := c.p 12 4, base := c.p 16 8 }
  { o with charged := if o.home = 2 then o.storage + o.mapArea else 0 }

/-- Checks of ALLOC (Table 8-10). -/
def checkAlloc (s : State) (c : Cmd) : Option Fail :=
  let o := allocObj c
  let a := allocAttr c
  let imp := match NMap.get none s.fabric.imports o.imp with
    | some i => if i.tenant = c.tenant then some i else none
    | none => none
  let t := s.tenant c.tenant
  firstFail
    [ need (o.size % 4096 = 0 && 4096 ≤ o.size && o.size ≤ 2 ^ 39 && o.base % 4096 = 0) stShape 0x31,
      need ((s.variant.west || o.die ≠ 2) && (o.home ≠ 3 || imp.isSome)) stShape 0x32,
      need ((o.compress || !(a.testBit 1 || a.testBit 4)) && !(a.testBit 4 && o.home = 2)
        && !(o.compress && o.home = 3 && (match imp with | some i => i.mode = 1 | none => false))) stShape 0x33,
      need (o.home ≠ 3 || (match imp with | some i => o.base + o.storage + o.mapArea ≤ i.length | none => false)) stShape 0x34,
      need (t.fits o.charged) stNoResources 1,
      need (t.objects < 16384) stNoResources 2 ]

/-- A map of zero blocks as stored. -/
def zeroMap (n : Nat) : List Byte := (List.range n).flatMap fun _ => leBytes 8 MapEntry.zero.bits

/-- The object as it lies on this variant: with one compute die DIE 0b00 is that die. -/
def State.placed (s : State) (o : Obj) : Obj := if s.variant.west then o else { o with die := 1 }

/-- ALLOC (R156, R157). While the module is fenced it issues no fabric operation (R256): the map of a T3 home cannot be written. -/
def runAlloc (s : State) (c : Cmd) : State :=
  let o := allocObj c
  let t := s.tenant c.tenant
  let h := nextHandle t 16385 t.lastHandle
  let s1 := (s.setTenant c.tenant { t with lastHandle := h }).setObj c.tenant h (some (s.placed o))
  let entries := zeroMap (o.size / 4096)
  let s2 := if (allocAttr c).testBit 4 then
      (if o.home = 4 then s1.dmaWrite c.fn (o.base + o.storage) entries false
       else match NMap.get none s1.fabric.imports o.imp with
        | some i => s1.postLines i c.tenant c.ctx c.id (if i.mode = 2 then 1 else 0) i.epoch (entries.length + 1) (i.base + o.base + o.storage)
            entries false
        | none => s1)
    else s1
  if (allocAttr c).testBit 4 ∧ o.home = 3 ∧ s.fabric.fenced then s.fail c.id stTierFailed [0x23] else s2.ok c.id (leBytes 8 (mkRef h) ++ leBytes 8 o.charged)

/-- ALLOC. -/
def execOpAlloc (id : Nat) (s : State) : Host.Outcome State Fault Refusal := .next (runCoreless 0x1001 checkAlloc runAlloc id s)

/-! ### Moves (R159–R161) -/

/-- Highest level any promotion names, or the home. -/
def Obj.wanted (o : Obj) : Nat := o.promos.foldl (fun a e => min a e.2) o.home

/-- What stops a PIN at the level where it takes effect: the pinned-line limit (R163), then the pin count (Table 8-10, order 6). -/
def State.pinStop (s : State) (t : Nat) (o : Obj) (ctx : Nat) : Option Fail :=
  firstFail
    [ need (o.level ≠ 1 || !o.pins.isEmpty || !s.pinOver t o) stNoResources 3,
      need (NMap.get 0 o.pins ctx < 255) stNoResources 4 ]

/-- The level R159 asks for is not reached yet, and no pin holds the object where it is. -/
def Obj.sinks (o : Obj) : Bool := o.wanted > o.level && o.pins.isEmpty

/-- A command waiting on an object is due its reply: PROMOTE once the object lies at or above its level, EVICT once no lowering it allowed is
outstanding (Table 8-3), PIN at once. -/
def dueReply (s : State) (o : Obj) (w : Nat × Nat) : Bool :=
  match s.cmd? w.1 with
  | some c => if c.opcode = 0x1010 then o.level ≤ c.p 8 1 else if c.opcode = 0x1011 then !o.sinks else true
  | none => true

/-- The due reply of command `id`, `o` being its object as it no longer waits: a PIN counts now, or fails here where it would pass a limit. -/
def tierReply (s : State) (t h : Nat) (o : Obj) (id : Nat) : State :=
  match s.cmd? id with
  | some c =>
    if c.opcode = 0x1012 then
      match s.pinStop t o c.ctx with
      | some f => (s.setObj t h (some o)).fail id f.1 f.2
      | none => (s.setObj t h (some { o with pins := NMap.set 0 o.pins c.ctx (NMap.get 0 o.pins c.ctx + 1) })).ok id []
    else (s.setObj t h (some o)).ok id []
  | none => (s.setObj t h (some o)).ok id []

/-- Give the due replies of the commands that wait on an object, in order. -/
def tierReplies (s : State) (t h : Nat) : Nat → State
  | 0 => s
  | f + 1 =>
    match s.obj t h with
    | none => s
    | some o =>
      if o.moving ≠ 0 then s
      else
        match o.waiting.find? (dueReply s o) with
        | none => s
        | some w => tierReplies (tierReply s t h { o with waiting := o.waiting.filter (· ≠ w) } w.1) t h f

/-- With no move in progress: start the raise or lowering R159 asks for, else give the replies that are due. -/
def tierSettle (s : State) (t h : Nat) : State :=
  match s.obj t h with
  | none => s
  | some o =>
    if o.moving ≠ 0 then s
    else if o.wanted < o.level then
      s.setObj t h (some { o with moving := 1, target := o.wanted,
                                  charged := if o.wanted = 2 ∧ o.home > 2 then o.storage + o.mapArea else o.charged })
    else if o.sinks ∧ !(o.waiting.any fun w => match s.cmd? w.1 with | some c => c.opcode = 0x1012 | none => false) then
      s.setObj t h (some { o with moving := 2, target := o.wanted,
                                  charged := if o.wanted = 2 ∧ o.home > 2 then o.storage + o.mapArea else o.charged })
    else tierReplies s t h 1024

/-- A context that closes drops its promotions and pins; a lowering this allows follows at once (R162). -/
def State.dropHolds (s : State) (t c : Nat) : State :=
  ((s.tenant t).objs.map (·.1)).foldl (fun s h =>
    match s.obj t h with
    | none => s
    | some o =>
      if NMap.get 0 o.promos c = 0 ∧ NMap.get 0 o.pins c = 0 then s
      else tierSettle (s.setObj t h (some { o with promos := NMap.del c o.promos, pins := NMap.del c o.pins })) t h) s

/-- References of class 0x1 name a handle the tenant holds (Table 8-10, order 1). -/
def heldRef (s : State) (c : Cmd) (r : Nat) : Bool :=
  match s.obj c.tenant (refHandle r) with
  | some o => !o.incomplete && !s.freeing c.id c.tenant (refHandle r)
  | none => false

/-- Object of a reference, for checks after order 1. -/
def refObj (s : State) (c : Cmd) (r : Nat) : Obj := (s.obj c.tenant (refHandle r)).getD Obj.init

/-- The byte a reference names lies inside its object (Table 8-10, order 5; R155, log 109). -/
def offsetInside (s : State) (c : Cmd) (r : Nat) : Bool := refOff r < (refObj s c r).size

/-- The two checks of an opcode that carries one reference. -/
def refInObject (s : State) (c : Cmd) : List (Bool × Fail) :=
  [ need (heldRef s c (c.p 0 8)) stShape 0x30, need (offsetInside s c (c.p 0 8)) stShape 0x34 ]

/-- The opcodes a tier manager applies one at a time to an object (R160). -/
def tierOp (op : Nat) : Bool := [0x1002, 0x1010, 0x1011, 0x1012, 0x1013, 0x1020].contains op

/-- One of them, of the tenant and on the object, was accepted before `c`, may be applied and has not been (R160). -/
def State.behind (s : State) (c : Cmd) : Bool :=
  s.cmds.any fun d => tierOp d.opcode && d.tenant = c.tenant && d.id < c.id && refHandle (d.p 0 8) == refHandle (c.p 0 8)
    && (d.stage = .granted || d.stage = .started)

/-- A granted command of the tier manager takes its turn: those accepted before it on its object come first (R160). -/
def runTier (op : Nat) (check : State → Cmd → Option Fail) (body : State → Cmd → State) (id : Nat) (s : State) : State :=
  match s.cmd? id with
  | some c => if s.behind c then s else runCoreless op check body id s
  | none => s

/-- Table 8-6: descriptor of PROMOTE level 0x11 at parameter offset 16. -/
def streamStride (c : Cmd) : Int := toSigned 32 (c.p 24 4)
def streamCount (c : Cmd) : Nat := c.p 28 4
def streamLen (c : Cmd) : Nat := c.p 32 2
def streamMode (c : Cmd) : Nat := c.p 34 1
def streamLead (c : Cmd) : Nat := c.p 35 1

def resvPromote (c : Cmd) : Bool :=
  refOk (c.p 0 8) && zeroAt c.params 9 7
    && (if c.p 8 1 = 0x11 then refOk (c.p 16 8) && refOk (c.p 36 8) && streamMode c ≤ 1 && (streamMode c = 1 || c.p 36 8 = 0) && zeroAt c.params 44 4
        else zeroAt c.params 16 32)

/-- Every element of a strided stream lies inside the base's object (R164). -/
def streamInside (s : State) (c : Cmd) : Bool :=
  let o := refObj s c (c.p 16 8)
  let first : Int := refOff (c.p 16 8)
  let last := first + (streamCount c - 1 : Int) * streamStride c
  0 ≤ first && 0 ≤ last && first + 64 * streamLen c ≤ o.size && last + 64 * streamLen c ≤ o.size

def checkPromote (s : State) (c : Cmd) : Option Fail :=
  let r := c.p 0 8
  let l := c.p 8 1
  let o := refObj s c r
  firstFail
    [ need (heldRef s c r && (l ≠ 0x11 || (c.p 16 8 = r && (streamMode c = 0 || heldRef s c (c.p 36 8))))) stShape 0x30,
      need (l ≠ 0x11 || (streamStride c % 64 = 0 && 1 ≤ streamCount c && streamCount c ≤ 2 ^ 24 && 1 ≤ streamLen c
        && streamLen c ≤ 64 && 1 ≤ streamLead c)) stShape 0x31,
      need (l = 0x11 || l = 1 || (l = 2 && o.home > 2)) stShape 0x32,
      need (offsetInside s c r && (l ≠ 0x11 || (if streamMode c = 0 then streamInside s c
        else refOff (c.p 36 8) + 4 * streamCount c ≤ (refObj s c (c.p 36 8)).size))) stShape 0x34,
      need (l ≠ 2 || o.charged > 0 || (s.tenant c.tenant).fits (o.storage + o.mapArea)) stNoResources 1,
      need (l ≠ 1 || o.pins.isEmpty || o.level = 1 || !s.pinOver c.tenant o) stNoResources 3 ]

/-- Slice and trackers a stream may take (R163, R164): 14 and 15 of a slice serve tenant 0 only. -/
def trackerSlots (t slice : Nat) : List Nat := ((List.range 16).filter fun k => (k ≥ 14) = (t = 0)).map (16 * slice + ·)

/-- Arm a stream (R164): a free tracker, else the learned stream that advanced least recently, else it runs unprefetched and is counted.
Only trackers and counters change. -/
def armStream (s : State) (t addr kind cmd : Nat) (desc : List Byte) : State :=
  let slice := Config.sliceHash addr % 16
  let slots := trackerSlots t slice
  let tr : Tracker := { tenant := t, kind := kind, desc := desc, touchedEl := 0, touchedAt := s.now, cmd := cmd }
  let r : State := match slots.find? fun k => (NMap.get none s.trackers k).isNone with
  | some k => { s with trackers := NMap.set none s.trackers k (some tr) }
  | none =>
    let learned := slots.filter fun k => match NMap.get none s.trackers k with | some x => x.kind = 0 | none => false
    let best := learned.foldl (fun a k => match a with
      | none => some k
      | some j => if ((NMap.get none s.trackers k).getD tr).touchedAt < ((NMap.get none s.trackers j).getD tr).touchedAt then some k else some j) none
    match best with
    | some k => { s with trackers := NMap.set none s.trackers k (some tr) }
    | none => s.bump (aTID (slice / 8) 0x20) 1
  { s with trackers := r.trackers, ctr := r.ctr }

/-- Fields of a tracker's descriptor (Table 8-6). -/
def Tracker.count (x : Tracker) : Nat := fieldAt x.desc 12 4
def Tracker.indexed (x : Tracker) : Bool := x.kind = 1 && fieldAt x.desc 18 1 = 1

/-- Elements a tracker has reached once `n` have been touched: the lead beyond the last of them (R164). -/
def Tracker.reach (x : Tracker) (n : Nat) : Nat := if n = 0 then 0 else min x.count (n + fieldAt x.desc 19 1)

/-- Element `i` of an indexed stream lies outside the base's object (R164). -/
def State.elementOutside (s : State) (x : Tracker) (i : Nat) : Bool :=
  let r := s.readRef 0 x.tenant (fieldAt x.desc 20 8) (4 * i) 4
  let off : Int := refOff (fieldAt x.desc 0 8) + leNat r.bytes * toSigned 32 (fieldAt x.desc 8 4)
  match s.obj x.tenant (refHandle (fieldAt x.desc 0 8)) with
  | some o => r.fail.isNone && (off < 0 || off + 64 * fieldAt x.desc 16 2 > o.size)
  | none => false

/-- Reads of a command touch elements of an armed stream of its tenant. How many is a free value (log 4), of a descriptor stream as many as it
has left: the tracker reaches on, and skips and counts the indexed elements outside their object (R164). -/
def State.touchStream (s : State) (k : Nat) : State :=
  match NMap.get none s.trackers k with
  | none => s
  | some x =>
    let (w, s1) := s.draw
    let n := x.touchedEl + (if x.kind = 1 then w.toNat % (x.count - x.touchedEl + 1) else w.toNat)
    let new := ((List.range (x.reach n)).drop (x.reach x.touchedEl)).countP fun i => x.indexed && s.elementOutside x i
    let y := if n = x.touchedEl then x else { x with touchedEl := n, touchedAt := s.now }
    { s1 with trackers := NMap.set none s1.trackers k (some y) }.bump (aTID (k / 128) 0x20) new

/-- The streams that slices learn from a command's misses: how many, and where, is free (log 4). They lead by 8 elements (R163). -/
def State.learnStreams (s : State) (t : Nat) : State :=
  let (n, s1) := s.draw
  (List.range n.toNat).foldl (fun (s : State) _ =>
    let (a, r) := s.draw
    armStream r t a.toNat 0 0 (leBytes 19 a.toNat ++ [8])) s1

/-- What a command's reads do to the stream trackers; the streams of its own stager have reached their end (R163, R164). Only
trackers, counters and the count of free values change. -/
def State.streams (s : State) (c : Cmd) : State :=
  let mine := s.trackers.filterMap fun e => e.2.bind fun x => if x.tenant = c.tenant then some e.1 else none
  let s1 := (mine.foldl (fun (s : State) k => s.touchStream k) s).learnStreams c.tenant
  { s with
    free := s1.free
    ctr := s1.ctr
    trackers := s1.trackers.filter fun e => (e.2.map fun x => decide (x.cmd ≠ c.id)).getD false }

/-- Streams of the stager of a command that starts, one for each operand (R163). -/
def State.stage (s : State) (c : Cmd) (refs : List Nat) : State :=
  (refs.filter (· ≠ 0)).foldl (fun (s : State) r => armStream s c.tenant r 2 c.id (leBytes 8 r)) s

/-- Nanoseconds in which a command waited on host memory, behind decompression and at a controller: a free number of each (log 4), together
no more than it ran. Waits on the fabric are counted as its loads return. -/
def State.tierStalls (s : State) (c : Cmd) : State :=
  let (a, s1) := s.draw
  let (b, s2) := s1.draw
  let (d, s3) := s2.draw
  let t := (s.now - c.startedAt) / 4
  let x := a.toNat % (t + 1)
  let y := b.toNat % (t - x + 1)
  ((s3.bump (aTI c.tenant c.ctx 0) x).bump (aTI c.tenant c.ctx 0x10) y).bump (aTI c.tenant c.ctx 0x18) (d.toNat % (t - x - y + 1))

/-- PROMOTE (R160, R164). -/
def runPromote (s : State) (c : Cmd) : State :=
  let h := refHandle (c.p 0 8)
  if c.p 8 1 = 0x11 then (armStream s c.tenant (c.p 16 8) 1 0 ((c.params.drop 16).take 32)).ok c.id []
  else
    let o := refObj s c (c.p 0 8)
    let o1 := { o with promos := NMap.set 0 o.promos c.ctx (c.p 8 1), waiting := o.waiting ++ [(c.id, NMap.get 0 o.promos c.ctx)] }
    tierSettle ((s.setObj c.tenant h (some o1)).await c.id) c.tenant h

/-- PROMOTE. -/
def execOpPromote (id : Nat) (s : State) : Host.Outcome State Fault Refusal := .next (runTier 0x1010 checkPromote runPromote id s)

/-- One reference and 8 reserved bytes. -/
def resvRef8 (c : Cmd) : Bool := refOk (c.p 0 8) && zeroAt c.params 8 8

def checkEvict (s : State) (c : Cmd) : Option Fail := firstFail (refInObject s c)

/-- EVICT (R160, R161, Tables 8-3, 8-4). -/
def runEvict (s : State) (c : Cmd) : State :=
  let h := refHandle (c.p 0 8)
  let o := refObj s c (c.p 0 8)
  if NMap.get 0 o.promos c.ctx = 0 then s.ok c.id []
  else
    let others := NMap.del c.ctx o.promos
    let o1 := { o with promos := others }
    let same := others.any fun e => e.2 == o.level
    let pinned := !o.pins.isEmpty
    if same || pinned then
      (s.setObj c.tenant h (some o1)).finish c.id stDeferred
        (leBytes 1 (b2n same + 2 * b2n pinned) ++ leBytes 1 o.level ++ leBytes 2 others.length ++ leBytes 2 o.pins.length)
    else tierSettle ((s.setObj c.tenant h (some { o1 with waiting := o1.waiting ++ [(c.id, 0)] })).await c.id) c.tenant h

/-- EVICT. -/
def execOpEvict (id : Nat) (s : State) : Host.Outcome State Fault Refusal := .next (runTier 0x1011 checkEvict runEvict id s)

def checkPin (s : State) (c : Cmd) : Option Fail :=
  let o := refObj s c (c.p 0 8)
  firstFail (refInObject s c) <|> (if o.moving = 0 then s.pinStop c.tenant o c.ctx else none)

/-- PIN (Table 8-3): counted and answered once no raise or lowering is in progress; its limits are checked where it counts (log 110). -/
def runPin (s : State) (c : Cmd) : State :=
  let h := refHandle (c.p 0 8)
  let o := refObj s c (c.p 0 8)
  let s1 := (s.setObj c.tenant h (some { o with waiting := o.waiting ++ [(c.id, 0)] })).await c.id
  if o.moving ≠ 0 then s1 else tierSettle (tierReplies s1 c.tenant h 1024) c.tenant h

/-- PIN. -/
def execOpPin (id : Nat) (s : State) : Host.Outcome State Fault Refusal := .next (runTier 0x1012 checkPin runPin id s)

def checkUnpin (s : State) (c : Cmd) : Option Fail := firstFail (refInObject s c)

/-- UNPIN (Table 8-3): OK at once; a lowering it allows follows. -/
def runUnpin (s : State) (c : Cmd) : State :=
  let h := refHandle (c.p 0 8)
  let o := refObj s c (c.p 0 8)
  let n := NMap.get 0 o.pins c.ctx
  if n = 0 then s.ok c.id [1]
  else tierSettle ((s.setObj c.tenant h (some { o with pins := NMap.set 0 o.pins c.ctx (n - 1) })).ok c.id [0]) c.tenant h

/-- UNPIN. -/
def execOpUnpin (id : Nat) (s : State) : Host.Outcome State Fault Refusal := .next (runTier 0x1013 checkUnpin runUnpin id s)

/-- A command waits for the move of its object that has just failed: a PROMOTE for a raise to its level, an EVICT for a lowering. -/
def failsWith (s : State) (o : Obj) (op : Nat) (w : Nat × Nat) : Bool :=
  match s.cmd? w.1 with
  | some c => c.opcode = op && (op ≠ 0x1010 || c.p 8 1 = o.target)
  | none => false

/-- The commands that wait for a failed move, PROMOTE (`op` 0x1010) or EVICT (0x1011), end with its failure; a PROMOTE's context gets its
earlier promotion back (R175). -/
def tierFailAll (s : State) (t h : Nat) (why : Fail) (op : Nat) : Nat → State
  | 0 => s
  | f + 1 =>
    match s.obj t h with
    | none => s
    | some o =>
      match o.waiting.find? (failsWith s o op) with
      | none => s
      | some w =>
        let o1 := { o with waiting := o.waiting.filter (· ≠ w) }
        let o2 := match s.cmd? w.1 with
          | some c => if c.opcode = 0x1010 then { o1 with promos := NMap.set 0 o1.promos c.ctx w.2 } else o1
          | none => o1
        tierFailAll ((s.setObj t h (some o2)).fail w.1 why.1 why.2) t h why op f

/-- A raise fails: the object stays at its level with its earlier promotions, and who still waits is served from there (R175). -/
def raiseFail (s : State) (t h : Nat) (why : Fail) : State :=
  match s.obj t h with
  | none => s
  | some o =>
    if o.moving ≠ 1 then s
    else
      let o1 := { o with moving := 0, charged := if o.home = 2 then o.charged else if o.level = 2 then o.charged else 0 }
      tierSettle (tierFailAll (s.setObj t h (some o1)) t h why 0x1010 1024) t h

/-- A lowering fails: the copy stays in place with its charge; who waits for something else than the lowering is answered, and a raise may
follow (R175). -/
def lowerFail (s : State) (t h : Nat) (why : Fail) : State :=
  match s.obj t h with
  | none => s
  | some o =>
    let o0 := { o with moving := 0, charged := if o.home = 2 ∨ o.level = 2 then o.charged else 0 }
    let s1 := tierReplies (tierFailAll (s.setObj t h (some o0)) t h why 0x1011 1024) t h 1024
    match s1.obj t h with
    | none => s1
    | some o1 => if o1.wanted < o1.level then tierSettle s1 t h else s1

/-- Lines fetched for a reader are dropped (R227). -/
def State.dropReader (s : State) (rd : Nat) : State :=
  { s with fabric := { s.fabric with lines := s.fabric.lines.filter fun l => l.reader ≠ rd } }

/-- What stops a lowering from reading its T2 copy: a modified line on a failed channel (R167). -/
def State.copyStop (s : State) (o : Obj) : Option Fail :=
  if o.copied && (NMap.keys o.dirty).any fun l => o.inDram l && NMap.get false s.rel.channels (o.channel l) then failWith stTierFailed 2 else none

/-- What reading an object whole asks for, and what stops it otherwise. -/
def moveAsks (ls : List (Nat × Line)) : List Fail := ls.filterMap fun l => l.2.2.2.filter fun f => f.1 = stAsk
def moveStop (ls : List (Nat × Line)) : Option Fail := ls.findSome? fun l => l.2.2.2.filter fun f => f.1 ≠ stAsk

/-- A raise ends: the copy at its level is complete, or the move failed (R160, R175). Lines that first must come from another module or be
corrected are seen to instead; a line of a T2 home is then read at once, those of another module when they have come. -/
def raiseTry (t h : Nat) : Nat → State → State
  | 0, s => s
  | k + 1, s =>
    match s.obj t h with
    | none => s
    | some o =>
      if o.moving ≠ 1 then s
      else
        let rd := moveReader t h
        let ls := s.snapshot rd t h o
        match moveStop ls with
        | some f => raiseFail (s.dropReader rd) t h f
        | none =>
          if !(moveAsks ls).isEmpty then
            let s1 := (moveAsks ls).foldl (fun (s : State) f => s.seeTo t 0 rd f) s
            if o.home = 2 then raiseTry t h k s1 else s1
          else
            let o1 := { o with moving := 0, level := o.target,
                               data := ls.foldl (fun m l => Memory.writeN m (64 * l.1) l.2.1) [],
                               hole := [], poison := ls.foldl (fun m l => NMap.set false m l.1 l.2.2.1) o.poison }
            tierSettle (tierReplies ((s.dropReader rd).setObj t h (some o1)) t h 1024) t h

/-- RAISE_COMPLETE. -/
def raiseComplete (t h : Nat) (s : State) : State := raiseTry t h 2 s

/-- RAISE_COMPLETE. -/
def execRaiseComplete (tenant handle : Nat) (s : State) : Host.Outcome State Fault Refusal := .next (raiseComplete tenant handle s)

/-- What stops a write-back to an object's home (R175): a host link that is down, a module that is fenced. -/
def State.backStop (s : State) (o : Obj) : Option Fail :=
  if o.dirty.isEmpty then none
  else if o.home = 4 then (if s.link.up then none else failWith stTierFailed 4)
  else if o.home = 3 then (if s.fabric.fenced then failWith stTierFailed 0x23 else none)
  else none

/-- Write-back happens only while ownership of a T3 home lasts (R162, R227). -/
def State.owns (s : State) (o : Obj) : Bool :=
  if o.home = 3 then
    match NMap.get none s.fabric.imports o.imp with
    | some i => i.mode = 0 && i.owner = s.fabric.node && !i.dead
    | none => false
  else true

/-- A lowering ends: modified lines are back at the home, the upper copy and its charge are released (R160); or it failed and
the copy stays (R175). -/
def loweringComplete (t h : Nat) (s : State) : State :=
  match s.obj t h with
  | none => s
  | some o =>
    if o.moving ≠ 2 then s
    else match (if s.owns o then s.copyStop o <|> s.backStop o else none) with
    | some f => lowerFail s t h f
    | none =>
      let s1 := if s.owns o ∧ o.target = o.home then s.writeBackAll t h else s
      match s1.obj t h with
      | none => s1
      | some o1 =>
        let o2 := { o1 with moving := 0, level := o1.target, charged := if o1.home = 2 ∨ o1.target = 2 then o1.charged else 0 }
        let o3 := if o2.target = o2.home then { o2 with data := [], dirty := [], hole := [], epochs := [] } else o2
        let o4 := if o3.level = o3.home ∧ o3.home ≠ 2 then { o3 with poison := [] } else o3
        tierSettle (tierReplies (s1.setObj t h (some o4)) t h 1024) t h

/-- LOWERING_COMPLETE. -/
def execLoweringComplete (tenant handle : Nat) (s : State) : Host.Outcome State Fault Refusal :=
  .next (loweringComplete tenant handle s)

/-! ### COPY and FILL (R173) -/

def resvCopy (c : Cmd) : Bool := refOk (c.p 0 8) && refOk (c.p 8 8) && zeroAt c.params 24 8

def checkCopy (s : State) (c : Cmd) : Option Fail :=
  let a := c.p 0 8
  let b := c.p 8 8
  let n := c.p 16 8
  firstFail
    [ need (heldRef s c a && heldRef s c b) stShape 0x30,
      need (refOff a % 64 = 0 && refOff b % 64 = 0 && n % 64 = 0) stShape 0x31,
      need (refOff a + n ≤ (refObj s c a).size && refOff b + n ≤ (refObj s c b).size) stShape 0x34 ]

/-- Write lines one after another; the first that fails ends the run and poisons what is left (R155, R173). -/
def putLines (t c cmd r : Nat) (det : Bool) : Nat → List (List Byte × Bool) → State → State × Option Fail
  | _, [], s => (s, none)
  | off, (bs, p) :: rest, s =>
    match s.writeRef t c cmd r off bs p det with
    | (s1, none) => putLines t c cmd r det (off + 64) rest s1
    | (_, some f) => (s.poisonObj t (refHandle r) (refOff r + off) (64 * (rest.length + 1)), some f)

/-- Read lines from one state until one fails: the lines read and the failure. -/
def takeLines (s : State) (rd t r : Nat) : Nat → Nat → List (List Byte × Bool) × Option Fail
  | 0, _ => ([], none)
  | k + 1, off =>
    let x := s.readRef rd t r off 64
    match x.fail with
    | some f => ([], some f)
    | none => let y := takeLines s rd t r k (off + 64); ((x.bytes, x.poison) :: y.1, y.2)

/-- COPY: as if through an intermediate buffer; poison travels with its line and is counted (Table 8-9). -/
def runCopy (s : State) (c : Cmd) : State :=
  let n := c.p 16 8 / 64
  let src := takeLines s c.id c.tenant (c.p 0 8) n 0
  match putLines c.tenant c.ctx c.id (c.p 8 8) c.determinism 0 src.1 (s.bump (aTI c.tenant c.ctx 0x20) (src.1.countP (·.2))) with
  | (s1, some f) => s1.fail c.id f.1 f.2
  | (s1, none) =>
    match src.2 with
    | some f =>
      let done := 64 * src.1.length
      (s1.poisonObj c.tenant (refHandle (c.p 8 8)) (refOff (c.p 8 8) + done) (64 * n - done)).fail c.id f.1 f.2
    | none => s1.ok c.id (leBytes 4 (src.1.countP (·.2)))

/-- COPY. -/
def execOpCopy (id : Nat) (s : State) : Host.Outcome State Fault Refusal := .next (runCoreless 0x1003 checkCopy (reading runCopy) id s)

def resvFill (c : Cmd) : Bool := refOk (c.p 0 8) && zeroAt c.params 24 8

def checkFill (s : State) (c : Cmd) : Option Fail :=
  let a := c.p 0 8
  let n := c.p 8 8
  firstFail
    [ need (heldRef s c a) stShape 0x30,
      need (refOff a % 64 = 0 && n % 64 = 0) stShape 0x31,
      need (refOff a + n ≤ (refObj s c a).size) stShape 0x34 ]

/-- FILL: the 8-byte pattern over the range, clearing poison. -/
def runFill (s : State) (c : Cmd) : State :=
  let line := (List.range 8).flatMap fun _ => (c.params.drop 16).take 8
  match putLines c.tenant c.ctx c.id (c.p 0 8) c.determinism 0 (List.replicate (c.p 8 8 / 64) (line, false)) s with
  | (s1, some f) => s1.fail c.id f.1 f.2
  | (s1, none) => s1.ok c.id []

/-- FILL. -/
def execOpFill (id : Nat) (s : State) : Host.Outcome State Fault Refusal := .next (runCoreless 0x1004 checkFill (reading runFill) id s)

/-! ### TIER_QUERY and COMPRESS_HINT -/

def resvTierQuery (c : Cmd) : Bool := refOk (c.p 0 8) && (c.p 0 8 = 0 || c.p 8 8 = 0)

def checkTierQuery (s : State) (c : Cmd) : Option Fail :=
  let r := c.p 0 8
  firstFail [need (r ≠ 0 || c.p 8 8 % 64 = 0) stShape 0x0F, need (r = 0 || heldRef s c r) stShape 0x30,
    need (r = 0 || offsetInside s c r) stShape 0x34 ]

/-- The six counters of Table 8-9. -/
def tierCounters (s : State) (t x : Nat) : List Byte := (List.range 6).flatMap fun i => leBytes 8 (s.count (aTI t x (8 * i)))

/-- TIER_QUERY (Table 8-12). -/
def runTierQuery (s : State) (c : Cmd) : State :=
  if c.p 0 8 = 0 then
    (s.dmaWrite c.fn (c.p 8 8) (tierCounters s c.tenant c.ctx ++ List.replicate 16 0) false).ok c.id []
  else
    let o := refObj s c (c.p 0 8)
    let entries := if o.compress then (List.range (o.size / 4096)).map fun b => s.mapEntry c.id c.tenant o b else []
    match entries.findSome? fun e => e.2.2 with
    | some f => s.fail c.id f.1 f.2
    | none =>
      let blocks := entries.countP fun e => e.1.st == 1
      s.ok c.id (leBytes 1 o.home ++ leBytes 1 o.level ++ leBytes 1 o.moving ++ leBytes 1 (NMap.get 0 o.promos c.ctx)
        ++ leBytes 2 (NMap.get 0 o.pins c.ctx) ++ leBytes 2 o.promos.length ++ leBytes 2 o.pins.length ++ leBytes 2 0 ++ leBytes 4 blocks)

/-- TIER_QUERY. -/
def execOpTierQuery (id : Nat) (s : State) : Host.Outcome State Fault Refusal :=
  .next (runCoreless 0x1014 checkTierQuery (reading runTierQuery) id s)

def resvHint (c : Cmd) : Bool := refOk (c.p 0 8) && zeroAt c.params 9 7

def checkHint (s : State) (c : Cmd) : Option Fail :=
  firstFail
    [ need (heldRef s c (c.p 0 8)) stShape 0x30, need (c.p 8 1 ≤ 3) stShape 0x32,
      need (refObj s c (c.p 0 8)).compress stShape 0x33, need (offsetInside s c (c.p 0 8)) stShape 0x34 ]

/-- COMPRESS_HINT (R172): a new setting for blocks written afterwards, or every block re-encoded now. -/
def runHint (s : State) (c : Cmd) : State :=
  let h := refHandle (c.p 0 8)
  let o := refObj s c (c.p 0 8)
  if c.p 8 1 ≠ 3 then (s.setObj c.tenant h (some { o with alphabet := c.p 8 1 })).ok c.id []
  else match (s.snapshot c.id c.tenant h o).findSome? fun l => l.2.2.2 with
    | some f => s.fail c.id f.1 f.2
    | none =>
      if !s.owns o then s.fail c.id stPoison [0x10]
      else
        let lines := List.range (o.size / 64)
        let epoch := match NMap.get none s.fabric.imports o.imp with | some i => i.epoch | none => 0
        let o1 := lines.foldl (fun o l => s.liftLine c.id c.tenant h o l) o
        let o2 := lines.foldl (fun o l => o.modify epoch (64 * l) 64 l) o1
        ((s.setObj c.tenant h (some o2)).writeBackAll c.tenant h).ok c.id []

/-- COMPRESS_HINT. -/
def execOpCompressHint (id : Nat) (s : State) : Host.Outcome State Fault Refusal := .next (runTier 0x1020 checkHint (reading runHint) id s)

/-! ### Events of the tier manager and L2 -/

/-- A tracker retires after its last element, or after 100 µs without a touch (R164). A learned stream has no last element. -/
def trackerRetire (slice tracker : Nat) (s : State) : State :=
  let k := 16 * slice + tracker
  match NMap.get none s.trackers k with
  | none => s
  | some x =>
    if tracker < 16 ∧ (s.now ≥ x.touchedAt + usec 100 ∨ x.touchedEl ≥ x.count ∧ x.kind = 1) then
      { s with trackers := NMap.set none s.trackers k none }
    else s

/-- TRACKER_RETIRE. -/
def execTrackerRetire (slice tracker : Nat) (s : State) : Host.Outcome State Fault Refusal := .next (trackerRetire slice tracker s)

/-- L2 replaces a dirty line, writing it back to its home (R171, R227); a line under a T2 copy goes into that copy, and a line of a pinned T1
object is exempt (R159). -/
def l2WriteBack (t h line : Nat) (s : State) : State :=
  match s.obj t h with
  | none => s
  | some o =>
    if (s.backStop o).isSome || !s.owns o || (o.level = 2 && o.home > 2) || (o.level = 1 && !o.pins.isEmpty) then s
    else s.writeBackLine t h line

/-- L2_WRITE_BACK. -/
def execL2WriteBack (tenant handle line : Nat) (s : State) : Host.Outcome State Fault Refusal := .next (l2WriteBack tenant handle line s)

/-- An uncorrectable link error of a channel: counted and logged; the 16th within 1 ms marks the channel failed (R167). The line is delivered
poisoned to this read alone. -/
def State.linkError (s : State) (t h line : Nat) (o : Obj) : State :=
  let ch := o.channel line
  let times := (s.now :: NMap.get [] s.rel.linkBad ch).filter fun a => s.now < a + msec 1
  let s1 := (s.bump (aTID (ch / 64) 0x10) 1).addLog (dramLog 2 1 t h line o false)
  { s1 with rel := { s1.rel with linkBad := NMap.set [] s1.rel.linkBad ch times,
                                 channels := NMap.set false s1.rel.channels ch (times.length ≥ 16 || NMap.get false s1.rel.channels ch) } }

/-- Patrol scrub reads one T2 line (R166, R403): a single-bit error is corrected and counted, a double-bit error poisons it. An
injected error shows as its kind. An error of the channel's link leaves the stored line as it is. -/
def patrolScrub (t h line : Nat) (e : EccObs) (s : State) : State :=
  match s.obj t h with
  | none => s
  | some o =>
    let inj := NMap.get 0 s.rel.dram (dramKey t h line)
    let kind := if inj = 2 then EccObs.double else if inj = 1 then .single else e
    if (o.home ≠ 2 ∧ o.level ≠ 2) ∨ 64 * line ≥ o.storage ∨ NMap.get false s.rel.channels (o.channel line) then s
    else match kind with
      | .clean => s
      | .single => s.eccFound t h line false (inj > 0)
      | .double => s.eccFound t h line true (inj > 0)
      | .linkSingle => s.bump (aTID (o.channel line / 64) 0x18) 1
      | .linkDouble => s.linkError t h line o

/-- PATROL_SCRUB. -/
def execPatrolScrub (tenant handle line : Nat) (e : EccObs) (s : State) : Host.Outcome State Fault Refusal :=
  .next (patrolScrub tenant handle line e s)

end Sys2Proof.Machine
end

