-- ==== Sys2Proof/Machine/Cores.lean ====
section
/-! DEFINITION. Matrix cores as the Dispatcher and the core commands see them: eligibility (R185), the end of a command on its
core (R86, R187, R389–R394), reads that fail by poison (R398). -/
namespace Sys2Proof.Machine

/-- Opcodes that use a core (R185). -/
def coreOp (op : Nat) : Bool := op = 0x2001 || op = 0x2002 || op = 0x2004 || op = 0x2005 || op = 0x2013

/-- Core mask and run-limit fields of a core command; 0 where it has none (Tables 6-1, 7-12). -/
def Cmd.maskField (c : Cmd) : Nat := if c.opcode = 0x2001 then c.p 168 8 else if c.opcode = 0x2002 then c.p 8 8 else 0
def Cmd.limitField (c : Cmd) : Nat := if c.opcode = 0x2001 then c.p 160 4 else if c.opcode = 0x2002 then c.p 4 4 else 0

/-- Run limit L (R188): the field, or G. -/
def State.runLimit (s : State) (c : Cmd) : Nat := if c.limitField = 0 then s.guard else c.limitField

/-- Cores a command names: its mask within its tenant's (R185 condition 1). -/
def State.coreMask (s : State) (c : Cmd) : Nat :=
  let t := (s.tenant c.tenant).coreMask
  if c.maskField = 0 then t else Nat.land c.maskField t

/-- Core mask bits at or above the core count are reserved (R6). -/
def State.maskLegal (s : State) (m : Nat) : Bool := m < 2 ^ s.variant.cores

/-- R185 conditions 1 and 2. -/
def State.inMask (s : State) (c : Cmd) (k : Nat) : Bool :=
  k < s.variant.cores && (s.coreMask c).testBit k && !(s.core k).quarantined

/-- R185 conditions 1 to 3: also not being removed, its quarter powered. -/
def State.powered (s : State) (c : Cmd) (k : Nat) : Bool :=
  s.inMask c k && !(s.core k).removing && s.pw.on.testBit (k / 8)

/-- A core is radio-eligible (R192). -/
def State.radioCore (s : State) (k : Nat) : Bool := s.radioSet.testBit k

/-- R185: the core is eligible for the command. -/
def State.eligible (s : State) (c : Cmd) (k : Nat) : Bool := s.powered c k && !(s.radioCore k && s.runLimit c > s.guard)

/-- Core check of a core command (R125 check 3, R147 check 4): a present, unquarantined core. -/
def State.coreCheck (s : State) (c : Cmd) : Bool := (List.range 64).any fun k => s.inMask c k

/-- R185 as a command's checks finish: reason 0x01 when conditions 1 to 3 leave none, 0x02 when only the fourth does. -/
def State.placeCheck (s : State) (c : Cmd) : Option Fail :=
  firstFail
    [ need ((List.range 64).any fun k => s.powered c k) stNoResources 1,
      need ((List.range 64).any fun k => s.eligible c k) stNoResources 2 ]

/-- Read bytes that enter arithmetic: poison ends the command with POISON_CONSUMED (R398). -/
def State.consume (s : State) (rd t ref off n : Nat) : Except Fail (List Byte) :=
  let r := s.readRef rd t ref off n
  match r.fail with
  | some f => .error f
  | none => if r.poison then .error (stPoison, [0]) else .ok r.bytes

/-- Byte ranges of objects: (reference, offset, length). -/
abbrev Ranges := List (Nat × Nat × Nat)

/-- Poison every line of a command's outputs (Table 2-14). -/
def State.poisonRanges (s : State) (t : Nat) (rs : Ranges) : State :=
  rs.foldl (fun s r => s.poisonObj t (refHandle r.1) (refOff r.1 + r.2.1) r.2.2) s

/-- Write byte strings to (reference, offset); the first that fails ends the run (R155). -/
def writeAll (t c cmd : Nat) (det : Bool) : List (Nat × Nat × List Byte) → State → State × Option Fail
  | [], s => (s, none)
  | (r, o, bs) :: rest, s =>
    match s.writeRef t c cmd r o bs false det with
    | (s1, none) => writeAll t c cmd det rest s1
    | (s1, some f) => (s1, some f)

/-! ### The end of a command on its core -/

/-- The window of R187 in which a moment of Sexton time lies. -/
def State.window (s : State) : Nat := s.sx.time / msec 1

/-- Core time a command has used in the current window. -/
def State.windowTime (s : State) (c : Cmd) : Nat := min (s.now - c.startedAt) (s.sx.time % msec 1)

/-- Core time of a tenant on a die in the current window, commands still running included (R187). -/
def State.usedTime (s : State) (t die : Nat) : Nat :=
  let u := (s.tenant t).used
  let past := if u.1 = s.window then (if die = 0 then u.2.1 else u.2.2) else 0
  s.cmds.foldl (fun a c => match c.core with
    | some k => if c.tenant = t ∧ dieOf k = die ∧ (s.core k).running = some c.id then a + s.windowTime c else a
    | none => a) past

/-- Charge a command's core time to its tenant. -/
def State.chargeTime (s : State) (c : Cmd) (die : Nat) : State :=
  let x := s.tenant c.tenant
  let old := if x.used.1 = s.window then x.used.2 else (0, 0)
  let w := s.windowTime c
  s.setTenant c.tenant { x with used := (s.window, if die = 0 then (old.1 + w, old.2) else (old.1, old.2 + w)) }

/-- The core is idle: nothing of the command stays in it (R85, R128), and its context's last use is now (R191). -/
def State.releaseCore (s : State) (c : Cmd) : State :=
  match c.core with
  | none => s
  | some k =>
    let x := s.core k
    if x.running = some c.id then
      (s.chargeTime c (dieOf k)).setCore k
        { x with running := none, ve := none, mode := 0, split := 0,
                 residents := x.residents.map fun r => if r.tenant = c.tenant ∧ r.ctx = c.ctx then { r with lastUse := s.now } else r }
    else s

/-- The record of a check disagreement (class 0x04; detail: original core, replay core). -/
def checkLog (outcome : Nat) (c : Cmd) (original replay : Nat) (injected : Bool) : LogRec :=
  { cmdLog 4 outcome c with flags := b2n injected, detail := original + 256 * replay }

/-- A command fails on its core: its outputs are poisoned (Table 2-14). A replay that fails leaves its context live (Table 19-2). -/
def State.coreFail (s : State) (c : Cmd) (f : Fail) (outs : Ranges) : State :=
  let s1 := (s.releaseCore c).poisonRanges c.tenant outs
  if c.replay.isSome then s1.finish c.id f.1 f.2 else s1.fail c.id f.1 f.2

/-- Log record of an injected scratchpad error (Table 19-6 kinds 0x01, 0x02). -/
def scratchLog (k addr kind : Nat) : LogRec :=
  { LogRec.none_ with cls := kind, outcome := kind - 1, island := 2 * k + 1, domain := k / 8, flags := 1, address := addr }

/-- Bytes of a core's tenant scratchpad: a radio-eligible core keeps the rest as its carve-out (R189). -/
def State.scratch (s : State) (k : Nat) : Nat := if s.radioCore k then 0x180000 else 0x200000

/-- Scratchpad errors the command read: where operands lie in the tenant scratchpad is not stated, so whether it read them is a free
value (log 4); the carve-out holds none of them (R165, R192). Found, they are logged and gone: a single bit corrected, a double bit a
poisoned line (R389). Tells whether one was double. -/
def State.scratchRead (s : State) (k : Nat) : Bool × State :=
  let x := s.core k
  let mine := x.scratchErr.filter fun e => e.1 < s.scratch k
  if mine.isEmpty then (false, s)
  else
    let d := s.draw
    if d.1.toNat % 2 = 0 then (false, d.2)
    else (mine.any fun e => e.2 = 2,
      mine.foldl (fun s e => s.addLog (scratchLog k e.1 e.2))
        (d.2.setCore k { x with scratchErr := x.scratchErr.filter fun e => !decide (e.1 < s.scratch k) }))

/-! ### Checks (R389–R396) -/

/-- What a core command leaves to its end: its result, what its check column found (none where it compared nothing), the cycles in which
the vector engine reduced, converted or used a function unit, and its writes in order. -/
structure Work where
  result : List Byte := []
  verdict : Option Bool := none
  sampled : Nat := 0
  writes : List (Nat × Nat × List Byte) := []

/-- `n` cycles in which the shadow unit repeats an operation on one lane pair, the pairs in rotation, and compares bit for bit (R392).
Both units compute the function this model gives the operation, so only an armed mismatch (Table 19-6 kind 0x07) makes them differ; a
disagreement stops the rotation at its pair. Tells whether they differed. -/
def State.shadow (s : State) (k n : Nat) : Bool × State :=
  let x := s.core k
  if n = 0 then (false, s)
  else if x.inject.2.2 > 0 then
    (true, s.setCore k { x with inject := (x.inject.1, x.inject.2.1, x.inject.2.2 - 1), pair := (x.pair + 1) % 64 })
  else (false, s.setCore k { x with pair := (x.pair + n) % 64 })

/-- What a command's checks show: 0 agreement, else the kind of disagreement. A comparison of the check column takes place only for a checked
command and meets an armed offset (kind 0x05) or flipped bit (0x06); one that fails of itself is 10 (R390, R391). -/
def State.judge (s : State) (c : Cmd) (verdict : Option Bool) (sampled : Nat) : Nat × State :=
  let k := c.core.getD 0
  let x := s.core k
  if c.checked ∧ verdict.isSome ∧ x.inject.1 > 0 then (5, s.setCore k { x with inject := (x.inject.1 - 1, x.inject.2) })
  else if c.checked ∧ verdict.isSome ∧ x.inject.2.1 > 0 then
    (6, s.setCore k { x with inject := (x.inject.1, x.inject.2.1 - 1, x.inject.2.2) })
  else if c.checked ∧ verdict = some false then (10, s)
  else
    let (bad, s1) := s.shadow k sampled
    (if bad then 7 else 0, s1)

/-- A write to a reference stays on this module: it is not posted to another one (R222). -/
def State.staysHere (s : State) (t r : Nat) : Bool := ((s.obj t (refHandle r)).map (·.home)).getD 0 ≠ 3

/-- The bytes of a write whose command's check failed: which of them the core had stored, and with what values, is free (R396, log 4). -/
def freeWrite (base : Nat) (w : Nat × Nat × List Byte) : Nat × Nat × List Byte :=
  (w.1, w.2.1, (List.range w.2.2.length).map fun i =>
    Config.freeByte ((base * 2 ^ 24 + refHandle w.1) * 2 ^ 40 + refOff w.1 + w.2.1 + i))

/-- A check disagrees: the core stops. A checked command keeps the disputed item and waits for its replay; only its local output lines
can hold what it stored, and none of its remote writes has been issued (R222, R396). An unchecked one ends CHECK_UNRESOLVED (R394). -/
def State.disagree (s : State) (c : Cmd) (kind : Nat) (outs : Ranges) (writes : List (Nat × Nat × List Byte)) : State :=
  let s1 := s.releaseCore c
  if c.checked then
    let mine := (writes.filter fun w => s.staysHere c.tenant w.1).map (freeWrite s.free)
    let s2 := (writeAll c.tenant c.ctx c.id c.determinism mine { s1 with free := s1.free + 1 }).1.finish c.id stOK []
    match s2.cmd? c.id with
    | some d => s2.setCmd { d with disputed := kind }
    | none => s2
  else ((s1.poisonRanges c.tenant outs).addLog (checkLog 4 { c with status := stUnresolved } (c.core.getD 0xFF) 0xFF true)).finish c.id
    stUnresolved []

/-- The end of a command's work on its core; what its reads did to the tiers is counted. One that read a poisoned scratchpad line has consumed it (R398). Then its checks are judged, and
only after them its writes go out (R222) and it completes. `whole` and `cut` count the cycles of a command that ran to its end, or did
not. -/
def State.coreEnd (s : State) (c : Cmd) (w : Work) (outs : Ranges) (whole cut : State → State) : State :=
  let (bad, s) := ((s.streams c).tierStalls c).scratchRead (c.core.getD 0)
  if bad then (cut s).coreFail c (stPoison, [0]) outs
  else match s.judge c w.verdict w.sampled with
    | (0, s1) =>
      match writeAll c.tenant c.ctx c.id c.determinism w.writes s1 with
      | (s2, some f) => (cut s2).coreFail c f outs
      | (s2, none) => ((whole s2).releaseCore c).finish c.id stOK w.result
    | (kind, s1) => (cut s1).disagree c kind outs w.writes

/-- The command has reached its run limit (R188); time at a reduced clock counts as R426 gives. -/
def State.limitReached (s : State) (c : Cmd) : Bool := 16 * (s.now - c.startedAt) ≥ 16 * (40 * c.limit) + c.slowed

/-- Cycles of 2.1 GHz since the command started; time that did not accrue at a reduced clock is left out (R426). -/
def State.elapsed (s : State) (c : Cmd) : Nat := (16 * (s.now - c.startedAt) - c.slowed) * 21 / 640

/-- Cycles a unit waited for something this model does not time: a free number, at most those elapsed beyond `busy` (log 4). -/
def State.waited (s : State) (c : Cmd) (busy : Nat) : Nat × State :=
  let (w, s1) := s.draw
  (w.toNat % (s.elapsed c - busy + 1), s1)

/-- A core command that has just started runs: `body` acts on it. One that has reached its run limit only ends by it (R188). -/
def runCore (op : Nat) (body : State → Cmd → State) (id : Nat) (s : State) : State :=
  match s.cmd? id with
  | none => s
  | some c => if c.opcode = op ∧ c.stage = .started ∧ c.core.isSome ∧ !s.limitReached c then body s c else s

end Sys2Proof.Machine
end

