-- ==== Sys2Proof/Machine/Funcs.lean ====
section
/-! DEFINITION. The function units EXP2, LOG2, RCP, RSQ, TANH (R133) and the activation units (R134), computed in fixed point
with enough bits that the one rounding to FP32 is that of the exact mathematical value. -/
namespace Sys2Proof.Machine

/-- Bit-by-bit square root: the largest r with r² ≤ n, over the lowest `f` bits above `r`. -/
def isqrtAux (n : Nat) : Nat → Nat → Nat
  | 0, r => r
  | f + 1, r => let r' := r + 2 ^ f; isqrtAux n f (if r' * r' ≤ n then r' else r)

/-- floor(√n). -/
def isqrt (n : Nat) : Nat := isqrtAux n (bitLen n / 2 + 1) 0

/-- Fraction bits of the fixed-point evaluations. -/
def fixBits : Nat := 192

/-- Product of 2^(2^−i) over the set bits of a fraction of `n` bits, most significant first: `c` is 2^(2^−i) now, `a` the product. -/
def exp2Frac : Nat → Nat → Nat → Nat → Nat
  | 0, _, _, a => a
  | n + 1, frac, c, a =>
    let c' := isqrt (c * 2 ^ fixBits)
    exp2Frac n (frac % 2 ^ n) c' (if frac / 2 ^ n % 2 = 1 then a * c' / 2 ^ fixBits else a)

/-- EXP2 of a datum, before its one rounding (R133, Table 7-5). Below −150 the result is under half the smallest
subnormal; within 2⁻²⁶ of zero it is nearer 1 than to any neighbour. -/
def exp2Fl : Fl → Fl
  | .nan => .nan
  | .inf s => if s then .fin false 0 0 else .inf false
  | .fin s m e =>
    if m = 0 then .fin false 1 0
    else if (bitLen m : Int) + e ≤ -26 then .fin false 1 0
    else if (bitLen m : Int) + e > 9 then (if s then .fin false 0 0 else .inf false)
    else
      -- at 64 fraction bits every FP32 datum above 2⁻²⁶ is exact
      let v := Fl.at_ s m (e + 64) 0
      let n := v / 2 ^ 64
      let frac := (v % 2 ^ 64).toNat
      if frac = 0 then .fin false 1 n
      else .fin false (2 * exp2Frac 64 frac (2 * 2 ^ fixBits) (2 ^ fixBits) + 1) (n - fixBits - 1)

/-- Fraction bits of log₂ of `x` in [1, 2) held with `fixBits` bits, by repeated squaring. -/
def log2Bits : Nat → Nat → Nat → Nat
  | 0, _, a => a
  | n + 1, x, a =>
    let y := x * x / 2 ^ (2 * fixBits)
    if y ≥ 2 * 2 ^ (2 * fixBits) then log2Bits n (y / 2) (2 * a + 1) else log2Bits n y (2 * a)

/-- LOG2 (R133, Table 7-5). -/
def log2Fl : Fl → Fl
  | .nan => .nan
  | .inf s => if s then .nan else .inf false
  | .fin s m e =>
    if m = 0 then .inf true
    else if s then .nan
    else
      let l := bitLen m - 1
      let n : Int := l + e
      if m = 2 ^ l then Fl.ofInt n 0
      else
        let f := log2Bits 100 (m * 2 ^ (2 * fixBits - l)) 0
        Fl.ofInt (2 * (n * 2 ^ 100 + f) + 1) (-101)

/-- RCP (R133, Table 7-5). -/
def rcpFl : Fl → Fl
  | .nan => .nan
  | .inf s => .fin s 0 0
  | .fin s m e =>
    if m = 0 then .inf s
    else
      let q := 2 ^ 128 / m
      .fin s (2 * q + (if q * m = 2 ^ 128 then 0 else 1)) (-e - 129)

/-- RSQ (R133, Table 7-5). -/
def rsqFl : Fl → Fl
  | .nan => .nan
  | .inf s => if s then .nan else .fin false 0 0
  | .fin s m e =>
    if m = 0 then .inf s
    else if s then .nan
    else
      let odd := e % 2 = 1
      let m' := if odd then 2 * m else m
      let e' := if odd then e - 1 else e
      let r := isqrt (2 ^ 160 / m')
      .fin false (2 * r + (if r * r * m' = 2 ^ 160 then 0 else 1)) (-(e' / 2) - 81)

/-- Σ xⁿ/n! from term `n` on, fixed point with `fixBits` bits. -/
def expTaylor : Nat → Nat → Nat → Nat → Nat
  | 0, _, _, _ => 0
  | f + 1, n, x, t => t + expTaylor f (n + 1) x (t * x / 2 ^ fixBits / n)

/-- Square a fixed-point number `n` times. -/
def squareFix : Nat → Nat → Nat
  | 0, a => a
  | n + 1, a => squareFix n (a * a / 2 ^ fixBits)

/-- TANH (R133, Table 7-5): (E − 1)/(E + 1) with E = e^(2x). Below 2⁻¹² the value rounds to x; from 10 up to ±1. -/
def tanhFl : Fl → Fl
  | .nan => .nan
  | .inf s => .fin s 1 0
  | .fin s m e =>
    if m = 0 then .fin s 0 0
    else if (bitLen m : Int) + e ≤ -12 then .fin s m e
    else if Fl.cmp (.fin false m e) (.fin false 10 0) ≥ 0 then .fin s 1 0
    else
      -- x is exact at 64 fraction bits; u = 2x / 2^10
      let u := (Fl.at_ false m (e + 64) 0).toNat * 2 ^ (fixBits - 64) / 2 ^ 9
      let big := squareFix 10 (expTaylor 40 1 u (2 ^ fixBits))
      let q := (big - 2 ^ fixBits) * 2 ^ fixBits / (big + 2 ^ fixBits)
      .fin s (2 * q + 1) (-(fixBits : Int) - 1)

/-- The five function units on FP32 words. -/
def exp2u (w : Word) : Word := enc32 (exp2Fl (dec32 w))
def log2u (w : Word) : Word := enc32 (log2Fl (dec32 w))
def rcpu (w : Word) : Word := enc32 (rcpFl (dec32 w))
def rsqu (w : Word) : Word := enc32 (rsqFl (dec32 w))
def tanhu (w : Word) : Word := enc32 (tanhFl (dec32 w))

/-- The constants of R134. -/
def cL2E : Word := 0x3FB8AA3B
def cK0 : Word := 0x3F4C422A
def cK1 : Word := 0x3D372713
/-- 1.0, 0.5 and the canonical NaN in FP32. -/
def one32 : Word := 0x3F800000
def half32 : Word := 0x3F000000
def nan32 : Word := 0x7FC00000
def inf32 : Word := 0x7F800000
def ninf32 : Word := 0xFF800000

/-- The sign bit flipped; a NaN gives the canonical NaN. -/
def neg32 (w : Word) : Word := enc32 (dec32 w).neg

/-- RELU in a format: x if x > 0, else +0; NaN gives NaN (R134). -/
def reluFl (x : Fl) : Fl := if x.isNan then .nan else if Fl.cmp x (.fin false 0 0) > 0 then x else .fin false 0 0

/-- SILU (R134): its steps, −∞ gives −0. -/
def silu32 (x : Word) : Word :=
  if x = ninf32 then 0x80000000
  else
    let a := mul32 x cL2E
    let b := exp2u (neg32 a)
    let c := add32 one32 b
    mul32 x (rcpu c)

/-- GELU (R134): its steps, −∞ gives −0. -/
def gelu32 (x : Word) : Word :=
  if x = ninf32 then 0x80000000
  else
    let u := mul32 x x
    let v := mul32 u x
    let w := mul32 cK1 v
    let z := add32 x w
    let t := mul32 cK0 z
    let h := tanhu t
    let g := add32 one32 h
    let p := mul32 half32 x
    mul32 p g

/-- SWIGLU (R134): gate, up. -/
def swiglu32 (g u : Word) : Word := mul32 (silu32 g) u

end Sys2Proof.Machine
end

