-- ==== Sys2Proof/Machine/Chain.lean ====
section
/-! DEFINITION. MATMUL_CHAIN: its parameters and checks (R109–R126), the product in both accumulation classes (R88–R102), its
prologues and epilogues (R111–R122), its check column (R390, R391), its cycle counts (R69–R81) and its completion (R127). -/
namespace Sys2Proof.Machine

/-! ### Parameters (Table 6-1) -/

namespace Cmd

def chA (c : Cmd) : Nat := c.p 0 8
def chB (c : Cmd) : Nat := c.p 8 8
def chAScales (c : Cmd) : Nat := c.p 16 8
def chBScales (c : Cmd) : Nat := c.p 24 8
def chDest (c : Cmd) : Nat := c.p 32 8
def chDestScales (c : Cmd) : Nat := c.p 40 8
def chBias (c : Cmd) : Nat := c.p 48 8
def chResidual (c : Cmd) : Nat := c.p 56 8
def chGate (c : Cmd) : Nat := c.p 64 8
def chStatIn (c : Cmd) : Nat := c.p 72 8
def chStatOut (c : Cmd) : Nat := c.p 80 8
def chIndex (c : Cmd) : Nat := c.p 88 8
def chMask (c : Cmd) : Nat := c.p 96 8
def chM (c : Cmd) : Nat := c.p 104 2
def chN (c : Cmd) : Nat := c.p 106 2
def chK (c : Cmd) : Nat := c.p 108 4
def chKBase (c : Cmd) : Nat := c.p 112 4
/-- K_TOTAL, 0 meaning K_BASE + K (R98). -/
def chKTotal (c : Cmd) : Nat := if c.p 116 4 = 0 then c.chKBase + c.chK else c.p 116 4
def chScaleA (c : Cmd) : Word := BitVec.ofNat 32 (c.p 120 4)
def chScaleB (c : Cmd) : Word := BitVec.ofNat 32 (c.p 124 4)
def chPrologue (c : Cmd) : Nat := c.p 128 1 % 8
def chList (c : Cmd) : Nat := c.p 129 1
/-- Epilogue step Ek is in the list. -/
def chE (c : Cmd) (k : Nat) : Bool := c.chList.testBit k
def chACode (c : Cmd) : Nat := c.p 130 1 % 16
def chBCode (c : Cmd) : Nat := c.p 130 1 / 16
def chOut (c : Cmd) : Nat := c.p 131 1
def chAct (c : Cmd) : Nat := bits (c.p 132 1) 2 1
def chSat (c : Cmd) : Bool := (c.p 132 1).testBit 0
def chSideA (c : Cmd) : Nat := bits (c.p 133 1) 7 6
def chSideGate (c : Cmd) : Nat := bits (c.p 133 1) 5 4
def chSideRes (c : Cmd) : Nat := bits (c.p 133 1) 3 2
def chSideBias (c : Cmd) : Nat := bits (c.p 133 1) 1 0
def chParts (c : Cmd) : Nat := c.p 134 1 % 16
def chEps (c : Cmd) : Word := BitVec.ofNat 32 (c.p 136 4)
def chColBase (c : Cmd) : Nat := c.p 140 4
def chSwiglu (c : Cmd) : Bool := c.chE 3 && c.chAct = 3
/-- Output width (R111). -/
def chNout (c : Cmd) : Nat := if c.chSwiglu then c.chN / 2 else c.chN
/-- COL_TOTAL, 0 meaning COL_BASE + output width. -/
def chColTotal (c : Cmd) : Nat := if c.p 144 4 = 0 then c.chColBase + c.chNout else c.p 144 4
def chGathers (c : Cmd) : Bool := c.chPrologue = 3 || c.chPrologue = 4

end Cmd

/-- Class of an operand pair (Table 5-3): 0 exact, 1 canonical MX, 2 canonical 16-bit; none where not listed. -/
def pairClass (a b : Nat) : Option Nat :=
  let mx (c : Nat) := 8 ≤ c && c ≤ 0xD
  if a ≤ 6 ∧ b ≤ 6 then some 0
  else if mx a ∧ mx b then some 1
  else if (a ≥ 0xE ∧ (b ≤ 6 ∨ b ≥ 0xE)) ∨ (b ≥ 0xE ∧ a ≤ 6) then some 2
  else none

/-- Array mode of a pair (Table 5-3): 0 8-bit, 1 4-bit, 2 16-bit. -/
def pairMode (a b : Nat) : Nat :=
  let narrow (c : Nat) := c = 1 || c = 6
  if a ≥ 0xE ∨ b ≥ 0xE then 2 else if (narrow a && narrow b) || (a = 0xC && b = 0xC) then 1 else 0

/-- Store step of an output code (Table 6-2); none for a reserved code. -/
def storeStep (out : Nat) : Option Nat :=
  if out ≤ 1 then some 0 else if out ≤ 5 then some 1 else if 8 ≤ out ∧ out ≤ 0xD then some 5 else none

/-- Bits of an output element (Table 6-2). -/
def outBits (out : Nat) : Nat :=
  match out with
  | 0 => 32
  | 1 => 128
  | 2 | 3 => 16
  | 4 | 5 => 8
  | _ => operandBits out

/-- Bits and value of a SIDE format (Table 6-1). -/
def sideBits (f : Nat) : Nat := if f = 0 then 32 else 16
def sideDec (f code : Nat) : Fl := if f = 0 then fp32.dec code else if f = 1 then bf16.dec code else fp16.dec code

/-- Bytes of `n` packed elements of `w` bits (R89). -/
def packedLen (w n : Nat) : Nat := ceilDiv (w * n) 8

/-- Width of a stored element of A: SIDE source format under P5 (R113). -/
def Cmd.chABits (c : Cmd) : Nat := if c.chPrologue = 5 then sideBits c.chSideA else operandBits c.chACode
/-- Packed row length of A; 0 under P4, which has none. -/
def Cmd.chALen (c : Cmd) : Nat :=
  match c.chPrologue with
  | 1 => packedLen c.chABits c.chM
  | 4 => 0
  | _ => packedLen c.chABits c.chK
def Cmd.chBLen (c : Cmd) : Nat :=
  if c.chPrologue = 2 then packedLen (operandBits c.chBCode) c.chN else packedLen (operandBits c.chBCode) c.chK
def Cmd.chDLen (c : Cmd) : Nat := packedLen (outBits c.chOut) c.chNout
def Cmd.chRLen (c : Cmd) : Nat := packedLen (sideBits c.chSideRes) c.chNout
/-- A stride field, its 0 meaning packed. -/
def strideOr (f packed : Nat) : Nat := if f = 0 then packed else f
def Cmd.chAStride (c : Cmd) : Nat := strideOr (c.p 148 4) c.chALen
def Cmd.chBStride (c : Cmd) : Nat := strideOr (c.p 152 4) c.chBLen
def Cmd.chDStride (c : Cmd) : Nat := strideOr (c.p 156 4) c.chDLen
def Cmd.chRStride (c : Cmd) : Nat := strideOr (c.p 156 4) c.chRLen

/-- Reserved fields of MATMUL_CHAIN (Table 6-1, R125). -/
def resvChain (s : State) (c : Cmd) : Bool :=
  (List.range 13).all (fun i => refOk (c.p (8 * i) 8)) && bits (c.p 128 1) 7 3 = 0 && c.chACode ≠ 7 && c.chBCode ≠ 7
    && (storeStep c.chOut).isSome && c.p 132 1 < 8 && c.chSideA ≠ 3 && c.chSideGate ≠ 3 && c.chSideRes ≠ 3 && c.chSideBias ≠ 3
    && c.p 134 1 < 16 && zeroAt c.params 135 1 && zeroAt c.params 164 4 && s.maskLegal (c.p 168 8)
    && (match pairClass c.chACode c.chBCode with
        | some 1 | some 2 => c.p 120 8 = 0
        | _ => true)

/-- K_BASE and K_TOTAL within R98. -/
def kLegal (base k total : Nat) : Bool := base % 32 = 0 && total % 32 = 0 && total ≤ 65536 && base + k ≤ total

/-- [k0, k1) is aligned in the class's leaf units (R100). -/
def kAligned (cls k0 k1 total : Nat) : Bool :=
  let u := if cls = 1 then 32 else 1
  cls = 0 || (k0 % u = 0 && isNode (k0 / u) (ceilDiv k1 u) (ceilDiv total u))

/-- First reason of Table 5-8 that applies. -/
def chainShape (c : Cmd) : Option Fail :=
  firstFail
    [ need (1 ≤ c.chM && c.chM ≤ 4096) stShape 1,
      need (c.chN % 16 = 0 && 16 ≤ c.chN && c.chN ≤ 1024) stShape 2,
      need (c.chK % 32 = 0 && 32 ≤ c.chK && c.chK ≤ 65536) stShape 3,
      need (kLegal c.chKBase c.chK c.chKTotal) stShape 4,
      need (pairClass c.chACode c.chBCode).isSome stShape 5,
      need (c.chOut ≠ 1 || (pairClass c.chACode c.chBCode = some 0 && c.chList = 1)) stShape 6 ]

/-- Codes P1, P4 and P2 permit: element width 8 or 16 bits (Table 6-4). -/
def wideCode (a : Nat) : Bool := [0x0, 0x2, 0x3, 0x8, 0x9, 0xD, 0xE, 0xF].contains a
/-- Codes P5 permits. -/
def scaleCode (a : Nat) : Bool := [0x0, 0x2, 0x3, 0xE, 0xF].contains a
/-- Code of an MX operand. -/
def mxCode (a : Nat) : Bool := 8 ≤ a && a ≤ 0xD

/-- A stride is 0 or a multiple of 16 B not below the packed row length. -/
def strideOk (f len : Nat) : Bool := f = 0 || (len ≤ f && f % 16 = 0)

/-- First reason of Table 6-13 that applies. -/
def chainMenu (c : Cmd) : Option Fail :=
  let p := c.chPrologue
  let e (k : Nat) := c.chE k
  let stores := b2n (e 0) + b2n (e 1) + b2n (e 5)
  firstFail
    [ need (p ≤ 5) stChainRejected 1,
      need (stores = 1 && (match storeStep c.chOut with | some k => e k | none => false)) stChainRejected 2,
      need (!(e 2 && e 3)) stChainRejected 3,
      need (!((p = 1 || p = 4) && !wideCode c.chACode) && !(p = 2 && !wideCode c.chBCode)) stChainRejected 4,
      need (!(p = 5 && !scaleCode c.chACode)) stChainRejected 5,
      need (!(c.chSwiglu && c.chN % 32 ≠ 0) && !(e 5 && c.chNout % 32 ≠ 0)) stChainRejected 6,
      need (!(c.chGathers && c.chIndex = 0) && !(p = 5 && c.chStatIn = 0) && !(e 5 && c.chDestScales = 0)
        && !((e 2 || e 3) && c.chBias = 0) && !(e 6 && c.chGate = 0) && !(e 4 && c.chResidual = 0) && !(e 7 && c.chStatOut = 0)
        && !(mxCode c.chACode && c.chAScales = 0) && !(mxCode c.chBCode && c.chBScales = 0)) stChainRejected 7,
      need ((c.chGathers || c.chIndex = 0) && (p = 5 || (c.chStatIn = 0 && c.chSideA = 0 && c.chParts = 0 && c.p 136 4 = 0))
        && (e 5 || c.chDestScales = 0) && (e 2 || e 3 || (c.chBias = 0 && c.chSideBias = 0))
        && (e 6 || (c.chGate = 0 && c.chSideGate = 0)) && (e 4 || (c.chResidual = 0 && c.chSideRes = 0))
        && (e 7 || (c.chStatOut = 0 && c.p 140 8 = 0)) && (e 3 || c.chAct = 0)
        && (mxCode c.chACode || c.chAScales = 0) && (mxCode c.chBCode || c.chBScales = 0)) stChainRejected 8,
      need (!(p = 5 && !(1 ≤ c.chParts && c.chParts ≤ 8)) && !(e 7 && !(c.chColBase % 16 = 0
        && c.chColBase + c.chNout ≤ c.chColTotal && c.chColTotal ≤ 65536))) stChainRejected 9,
      need (strideOk (c.p 148 4) c.chALen && strideOk (c.p 152 4) c.chBLen && strideOk (c.p 156 4) c.chDLen
        && (!e 4 || strideOk (c.p 156 4) c.chRLen) && !(p = 4 && c.p 148 4 = 0)) stChainRejected 0xA ]

/-- Checks of MATMUL_CHAIN in order (Table 6-12), and R185's placement. -/
def checkChain (s : State) (c : Cmd) : Option Fail :=
  let cls := (pairClass c.chACode c.chBCode).getD 0
  let det := c.determinism
  chainShape c <|> chainMenu c <|> firstFail
    [ need (s.coreCheck c) stNoResources 1,
      need (!det || (if cls = 0 then (c.chK = c.chKTotal || c.chOut = 1) else kAligned cls c.chKBase (c.chKBase + c.chK) c.chKTotal)) stSplit 1,
      need (!det || !c.chE 7 || isNode c.chColBase (c.chColBase + c.chNout) c.chColTotal) stSplit 2 ]
    <|> s.placeCheck c

/-! ### Reading the operands -/

/-- Elements of `w` bits packed into bytes (R89). -/
def unpack (w n : Nat) (bs : List Byte) : List Nat := (List.range n).map fun i => streamBits bs (w * i) w

/-- Rows masked by the row mask (R80). -/
def chainMask (s : State) (c : Cmd) : Except Fail (List Bool) :=
  if c.chMask = 0 then .ok (List.replicate c.chM false)
  else (s.consume c.id c.tenant c.chMask 0 (ceilDiv c.chM 8)).map fun bs => (List.range c.chM).map fun i => streamBits bs i 1 = 1

/-- Index list under P3 and P4, tile row to stored row or column. -/
def chainIndex (s : State) (c : Cmd) : Except Fail (List Nat) :=
  if c.chGathers then (s.consume c.id c.tenant c.chIndex 0 (4 * c.chM)).map fun bs => unpack 32 c.chM bs
  else .ok (List.range c.chM)

/-- Tile rows fed, each with the stored row or column it takes (R73, R80, R112). -/
def chainFed (s : State) (c : Cmd) : Except Fail (List (Nat × Nat)) := do
  let mask ← chainMask s c
  let index ← chainIndex s c
  .ok ((List.range c.chM).filterMap fun i =>
    let x := index.getD i 0
    if mask.getD i false ∨ (c.chGathers ∧ x = 0xFFFFFFFF) then none else some (i, x))

/-- Byte `n` of the source lies beyond its object's end (R112). -/
def chainBeyond (s : State) (c : Cmd) (n : Nat) : Bool :=
  match s.obj c.tenant (refHandle c.chA) with
  | some o => refOff c.chA + n > o.size
  | none => false

/-- The element codes of one tile row of A, K of them (Table 6-3, R112). `x` is the stored row or column. Under P4 a row lies beyond the object's
end where the element it names does: DESIGN CHOICE (log 121), the rest of its stride may run past the end. -/
def chainARow (s : State) (c : Cmd) (x : Nat) : Except Fail (List Nat) :=
  let w := c.chABits
  if c.chPrologue = 1 ∨ c.chPrologue = 4 then
    if c.chPrologue = 4 ∧ (x + 1) * (w / 8) > c.chAStride then .error (stPoison, [0])
    else (List.range c.chK).mapM fun k =>
      if c.chPrologue = 4 ∧ chainBeyond s c (k * c.chAStride + (x + 1) * (w / 8)) then .error (stPoison, [0])
      else (s.consume c.id c.tenant c.chA (k * c.chAStride + x * (w / 8)) (w / 8)).map fun bs => leNat bs
  else if c.chPrologue = 3 ∧ chainBeyond s c (x * c.chAStride + c.chALen) then .error (stPoison, [0])
  else (s.consume c.id c.tenant c.chA (x * c.chAStride) c.chALen).map (unpack w c.chK)

/-- Scale bytes of a row of A or a column of B: one per block of 32 K values. -/
def chainScales (s : State) (c : Cmd) (ref row : Nat) (mx : Bool) : Except Fail (List Nat) :=
  if mx then (s.consume c.id c.tenant ref (row * (c.chK / 32)) (c.chK / 32)).map fun bs => bs.map (·.toNat) else .ok []

/-- B as N columns of K element codes (Table 6-3). -/
def chainB (s : State) (c : Cmd) : Except Fail (List (List Nat)) :=
  let w := operandBits c.chBCode
  if c.chPrologue = 2 then do
    let rows ← (List.range c.chK).mapM fun k => (s.consume c.id c.tenant c.chB (k * c.chBStride) c.chBLen).map (unpack w c.chN)
    .ok ((List.range c.chN).map fun n => rows.map fun r => r.getD n 0)
  else (List.range c.chN).mapM fun n => (s.consume c.id c.tenant c.chB (n * c.chBStride) c.chBLen).map (unpack w c.chK)

/-- A vector of `n` elements in a SIDE format, widened exactly. -/
def chainVector (s : State) (c : Cmd) (ref off f n : Nat) : Except Fail (List Fl) :=
  (s.consume c.id c.tenant ref off (packedLen (sideBits f) n)).map fun bs => (unpack (sideBits f) n bs).map (sideDec f)

/-! ### Canonical merge (R103) -/

/-- A partial: its range of leaves and its value. -/
abbrev Part := Nat × Nat × Word

/-- Value of node (l, j) of a tree over `n` leaves whose parts are node values. -/
def mergeNode (n : Nat) (ps : List Part) : Nat → Nat → Option Word
  | 0, j => (ps.find? fun p => p.1 = j ∧ p.2.1 = j + 1).map (·.2.2)
  | l + 1, j =>
    let lo := j * 2 ^ (l + 1)
    let hi := min n (lo + 2 ^ (l + 1))
    match ps.find? fun p => p.1 = lo ∧ p.2.1 = hi with
    | some p => some p.2.2
    | none =>
      if ps.any fun p => lo ≤ p.1 ∧ p.2.1 ≤ hi then
        match mergeNode n ps l (2 * j), mergeNode n ps l (2 * j + 1) with
        | some a, some b => some (add32 a b)
        | some a, none => some a
        | none, b => b
      else none

/-- Insert a part by its start, after parts that start no later. -/
def insertPart (p : Part) : List Part → List Part
  | [] => [p]
  | q :: qs => if p.1 < q.1 then p :: q :: qs else q :: insertPart p qs

/-- Parts in order of their starts. -/
def sortParts (ps : List Part) : List Part := ps.foldl (fun a p => insertPart p a) []

/-- Every part meets the next. -/
def contiguous : List Part → Bool
  | p :: q :: r => p.2.1 == q.1 && contiguous (q :: r)
  | _ => true

/-- Canonical merge of partials over a tree of `n` leaves: by node where all are node values whose union is a node cover,
else in rank order (R103). -/
def canonMerge (n : Nat) (ps : List Part) : Option Word :=
  let qs := sortParts ps
  let lo := (qs.head?.map (·.1)).getD 0
  let hi := (qs.getLast?.map (·.2.1)).getD 0
  if qs.all (fun p => isNode p.1 p.2.1 n) && contiguous qs && isNode lo hi n then
    match (List.range 18).find? fun l => lo % 2 ^ l = 0 ∧ hi = min (lo + 2 ^ l) n with
    | some l => mergeNode n qs l (lo / 2 ^ l)
    | none => none
  else canonFold add32 17 (qs.map fun p => some p.2.2)

/-! ### The product -/

/-- P5's row scale (R113) from the row's statistic entries. -/
def rowScale (eps : Word) (entries : List (List Byte)) : Word :=
  let d := entries.foldl (fun a e => a + fieldAt e 12 2) 0
  if entries.any fun e => fieldAt e 14 1 % 2 = 0 then nan32
  else
    let parts := entries.map fun e => (fieldAt e 8 4, fieldAt e 8 4 + fieldAt e 12 2, BitVec.ofNat 32 (fieldAt e 0 4))
    let sum := (canonMerge d parts).getD 0
    let mean := if d = 0 then Config.meanOfNone sum else enc32 ((dec32 sum).divNat d)
    rsqu (add32 mean eps)

/-- A row of A as operand values (R71, R113): codes into values, P5's scaling and conversion first. -/
def rowValues (c : Cmd) (scale : Word) (codes : List Nat) : List Fl :=
  if c.chPrologue = 5 then
    codes.map fun e =>
      let p := enc32 ((sideDec c.chSideA e).mul (dec32 scale))
      match elementFmt c.chACode with
      | some f => f.dec (convert f c.chSat p)
      | none => operandDec 0 (convertInt8 p)
  else codes.map (operandDec c.chACode)

/-- Exact sum of products (R91, R92). -/
def longDot (xs ys : List Fl) : Long := (xs.zip ys).foldl (fun a p => a.add (Long.ofFl (p.1.mul p.2))) Long.zero

/-- Neighbouring leaves of the 16-bit class: two exact products summed and rounded once (R94, R95). -/
def pairSums : List Fl → List Word
  | a :: b :: r => enc32 (a.add b) :: pairSums r
  | [a] => [enc32 a]
  | [] => []

/-- MX leaf of a block (R94). -/
def mxLeaf (xs ys : List Fl) (sa sb : Nat) : Word :=
  if sa = 0xFF ∨ sb = 0xFF then nan32
  else enc32 ((longDot xs ys).toFl.scale ((sa : Int) - 127 + sb - 127))

/-- Block `b` of 32. -/
def block32 {α : Type} (xs : List α) (b : Nat) : List α := (xs.drop (32 * b)).take 32

/-- One output of the product: its long accumulator (exact class), or its FP32 value (canonical classes, R95, R102). -/
def dotProduct (c : Cmd) (xs ys : List Fl) (sa sb : List Nat) : Long × Word :=
  match pairClass c.chACode c.chBCode with
  | some 1 =>
    let leaves := (List.range (c.chK / 32)).map fun b =>
      some (mxLeaf (block32 xs b) (block32 ys b) (sa.getD b 0xFF) (sb.getD b 0xFF))
    (Long.zero, (canonSum (c.chKBase / 32) leaves).getD 0)
  | some 2 => (Long.zero, (canonSum (c.chKBase / 2) ((pairSums ((xs.zip ys).map fun p => p.1.mul p.2)).map some)).getD 0)
  | _ => let l := longDot xs ys; (l, l.scaled c.chScaleA c.chScaleB)

/-! ### The epilogue -/

/-- Activation of E3 other than SwiGLU. -/
def activation (a : Nat) (x : Word) : Word := if a = 0 then enc32 (reluFl (dec32 x)) else if a = 1 then gelu32 x else silu32 x

/-- SwiGLU over groups of 32 columns (R116). -/
def pairSwiglu (ys : List Word) : List Word :=
  (List.range (ys.length / 2)).map fun j => swiglu32 (ys.getD (32 * (j / 16) + j % 16) 0) (ys.getD (32 * (j / 16) + 16 + j % 16) 0)

/-- The arithmetic steps of a row in the order of Table 6-5 (R115). -/
def arithmetic (c : Cmd) (bias : List Fl) (gate : Fl) (residual : List Fl) (ys : List Word) : List Word :=
  let addTo (v : List Fl) (ys : List Word) : List Word := (ys.zip v).map fun p => enc32 ((dec32 p.1).add p.2)
  let y1 := if c.chE 2 || c.chE 3 then addTo bias ys else ys
  let y2 := if c.chSwiglu then pairSwiglu y1 else if c.chE 3 then y1.map (activation c.chAct) else y1
  let y3 := if c.chE 6 then y2.map fun y => enc32 ((dec32 y).mul gate) else y2
  if c.chE 4 then addTo residual y3 else y3

/-- What a row stores: element codes and, under E5, block scales (Table 6-2, R117). -/
def rowCodes (c : Cmd) (ys : List (Long × Word)) : List Nat × List Nat :=
  let ws := ys.map (·.2)
  match c.chOut with
  | 0 => (ws.map (convert fp32 c.chSat), [])
  | 1 => (ys.map fun y => leNat y.1.toBytes, [])
  | 2 => (ws.map (convert bf16 c.chSat), [])
  | 3 => (ws.map (convert fp16 c.chSat), [])
  | 4 => (ws.map (convert e4m3 c.chSat), [])
  | 5 => (ws.map (convert e5m2 c.chSat), [])
  | code =>
    let qs := (List.range (ws.length / 32)).map fun b => mxQuantise code c.chSat ((block32 ws b).map dec32)
    (qs.flatMap (·.2), qs.map (·.1))

/-- The stored value of output `n`, widened exactly (R122). -/
def storedValue (c : Cmd) (codes scales : List Nat) (n : Nat) : Fl :=
  let code := codes.getD n 0
  match c.chOut with
  | 0 => fp32.dec code
  | 2 => bf16.dec code
  | 3 => fp16.dec code
  | 4 => e4m3.dec code
  | 5 => e5m2.dec code
  | out => mxValue out code (scales.getD (n / 32) 0xFF)

/-- A statistic entry (Table 6-7, R121, R122). -/
def statEntry (c : Cmd) (xs : List Fl) : List Byte :=
  let sq := xs.map fun x => some (enc32 (x.mul x))
  let amax := if xs.any (·.isNan) then nan32
    else enc32 (xs.foldl (fun a x => if Fl.cmp a x.abs < 0 then x.abs else a) (.fin false 0 0))
  leBytes 4 ((canonSum c.chColBase sq).getD 0).toNat ++ leBytes 4 amax.toNat ++ leBytes 4 c.chColBase ++ leBytes 2 c.chNout
    ++ leBytes 1 1 ++ [0]

/-! ### A whole command -/

/-- Output areas of tile rows (R127). -/
def rowRanges (c : Cmd) (rows : List Nat) : Ranges :=
  rows.flatMap fun i =>
    (c.chDest, i * c.chDStride, c.chDLen)
      :: (if c.chE 5 then [(c.chDestScales, i * (c.chNout / 32), c.chNout / 32)] else [])
      ++ (if c.chE 7 then [(c.chStatOut, 16 * i, 16)] else [])

/-- Outputs of a command: of its unmasked rows, or of every row where its mask and index list cannot be read (R127). -/
def chainOutputs (s : State) (c : Cmd) : Ranges :=
  match chainFed s c with
  | .ok rows => rowRanges c (rows.map (·.1))
  | .error _ => rowRanges c (List.range c.chM)

/-- One fed tile row: its A operand values and block scales, its product, and the codes and block scales it stores. -/
structure ChainRow where
  tile : Nat
  a : List Fl
  aScales : List Nat
  prods : List (Long × Word)
  codes : List Nat
  scales : List Nat

/-- The operands of B, a column at a time: values and block scales. -/
abbrev ChainB := List (List Fl × List Nat)

/-- Columns of B with their scales, then each fed row (R71, R112–R117). The spec gives the reads no order, and the first that fails ends the
command: DESIGN CHOICE (log 117), the mask, the index list, B, its scales and the bias, then row by row statistics, A, its scales, gate and
residual; every input is read before any output is written. -/
def chainRows (s : State) (c : Cmd) (fed : List (Nat × Nat)) : Except Fail (ChainB × List ChainRow) := do
  let bCodes ← chainB s c
  let bVals := bCodes.map fun col => col.map (operandDec c.chBCode)
  let bScales ← (List.range c.chN).mapM fun n => chainScales s c c.chBScales n (mxCode c.chBCode)
  let bias ← if c.chE 2 || c.chE 3 then chainVector s c c.chBias 0 c.chSideBias c.chN else .ok []
  let rows ← fed.mapM fun (i, x) => do
    let entries ← if c.chPrologue = 5 then
        (List.range c.chParts).mapM fun j => s.consume c.id c.tenant c.chStatIn (16 * c.chM * j + 16 * i) 16
      else .ok []
    let codes ← chainARow s c x
    let aScales ← chainScales s c c.chAScales x (mxCode c.chACode)
    let gate ← if c.chE 6 then chainVector s c c.chGate (i * (sideBits c.chSideGate / 8)) c.chSideGate 1 else .ok []
    let residual ← if c.chE 4 then chainVector s c c.chResidual (i * c.chRStride) c.chSideRes c.chNout else .ok []
    let xs := rowValues c (rowScale c.chEps entries) codes
    let prods := (bVals.zip bScales).map fun b => dotProduct c xs b.1 aScales b.2
    let ys := if c.chOut = 1 then prods
      else (arithmetic c bias (gate.headD .nan) residual (prods.map (·.2))).map fun w => (Long.zero, w)
    let st := rowCodes c ys
    .ok { tile := i, a := xs, aScales := aScales, prods := prods, codes := st.1, scales := st.2 }
  .ok (bVals.zip bScales, rows)

/-- Byte ranges a chain reads besides its residual, for R118's overlaps. -/
def chainInputs (c : Cmd) (fed : List (Nat × Nat)) : Ranges :=
  let mx (r n : Nat) : Ranges := if r = 0 then [] else [(r, 0, n * (c.chK / 32))]
  let aRows := if c.chPrologue = 1 ∨ c.chPrologue = 4 then
      (List.range c.chK).map fun k => (c.chA, k * c.chAStride, max c.chALen (if c.chPrologue = 4 then c.chAStride else 0))
    else fed.map fun r => (c.chA, r.2 * c.chAStride, c.chALen)
  let bRows := (List.range (if c.chPrologue = 2 then c.chK else c.chN)).map fun n => (c.chB, n * c.chBStride, c.chBLen)
  aRows ++ bRows ++ mx c.chAScales c.chM ++ mx c.chBScales c.chN
    ++ (if c.chBias = 0 then [] else [(c.chBias, 0, packedLen (sideBits c.chSideBias) c.chN)])
    ++ (if c.chGate = 0 then [] else [(c.chGate, 0, packedLen (sideBits c.chSideGate) c.chM)])
    ++ (if c.chIndex = 0 then [] else [(c.chIndex, 0, 4 * c.chM)])
    ++ (if c.chMask = 0 then [] else [(c.chMask, 0, ceilDiv c.chM 8)])
    ++ (if c.chStatIn = 0 then [] else [(c.chStatIn, 0, 16 * c.chM * c.chParts)])
    ++ (if c.chResidual = 0 ∨ c.chResidual = c.chDest then []
        else fed.map fun r => (c.chResidual, r.1 * c.chRStride, c.chRLen))

/-- Elements of `w` bits whose place overlaps an input hold free values (R118, log 4). -/
def freeElements (base : Nat) (inputs : Ranges) (ref off w : Nat) (codes : List Nat) : List Nat :=
  let lo := 8 * (refOff ref + off)
  let hits := inputs.filter fun r => refHandle r.1 = refHandle ref ∧ 8 * (refOff r.1 + r.2.1) < lo + w * codes.length
    ∧ lo < 8 * (refOff r.1 + r.2.1 + r.2.2)
  if hits.isEmpty then codes
  else (List.range codes.length).map fun j =>
    if hits.any fun r => 8 * (refOff r.1 + r.2.1) < lo + w * (j + 1) ∧ lo + w * j < 8 * (refOff r.1 + r.2.1 + r.2.2) then
      leNat ((List.range 16).map fun b => Config.freeByte ((base * 2 ^ 24 + refHandle ref) * 2 ^ 48 + 16 * (lo + w * j) + b)) % 2 ^ w
    else codes.getD j 0

/-- A row's codes and scales with R118's free values in them. -/
def freeRow (c : Cmd) (base : Nat) (inputs : Ranges) (r : ChainRow) : ChainRow :=
  { r with codes := freeElements base inputs c.chDest (r.tile * c.chDStride) (outBits c.chOut) r.codes,
           scales := freeElements base inputs c.chDestScales (r.tile * (c.chNout / 32)) 8 r.scales }

/-- Columns of a pass: 64 in 16-bit mode, else 128 (R73). -/
def passCols (c : Cmd) : Nat := if pairMode c.chACode c.chBCode = 2 then 64 else 128

/-- Outputs of a pass. -/
def passOuts (c : Cmd) : Nat := if c.chSwiglu then passCols c / 2 else passCols c

/-- What a row writes for pass `p`: its stored elements and block scales (R119); after its last pass its statistic entry (R121). -/
def passWrites (c : Cmd) (last : Bool) (p : Nat) (r : ChainRow) : List (Nat × Nat × List Byte) :=
  let n := passOuts c
  let w := outBits c.chOut
  (c.chDest, r.tile * c.chDStride + p * n * w / 8, packBits w ((r.codes.drop (p * n)).take n))
    :: (if c.chE 5 then [(c.chDestScales, r.tile * (c.chNout / 32) + p * n / 32,
        ((r.scales.drop (p * n / 32)).take (n / 32)).flatMap (leBytes 1))] else [])
    ++ (if c.chE 7 && last then [(c.chStatOut, 16 * r.tile, statEntry c ((List.range c.chNout).map (storedValue c r.codes r.scales)))] else [])

/-- The writes of a command: pass after pass, and within a pass in feed order (R119). -/
def chainWrites (c : Cmd) (rows : List ChainRow) : List (Nat × Nat × List Byte) :=
  let passes := ceilDiv c.chN (passCols c)
  (List.range passes).flatMap fun p => rows.flatMap (passWrites c (p + 1 == passes) p)

/-! ### The check column (R390, R391) -/

/-- Exact sum of values. -/
def sumFl (xs : List Fl) : Fl := xs.foldl Fl.add (.fin false 0 0)

/-- An operand's values with each block's scale (MX), else the values. -/
def scaledValues (vals : List Fl) (scales : List Nat) : List Fl :=
  if scales.isEmpty then vals
  else (List.range vals.length).map fun k => (vals.getD k .nan).scale ((scales.getD (k / 32) 0 : Int) - 127)

/-- Lane weights summed over the columns of a pass: lane k's exact cₖ, and its sum of magnitudes. -/
def laneSums (k : Nat) (cols : List (List Fl)) : List (Fl × Fl) :=
  (List.range k).map fun i => let ws := cols.map fun col => col.getD i (.fin false 0 0); (sumFl ws, sumFl (ws.map Fl.abs))

/-- Exact class: the sum of the pass's long accumulators equals Σₖ aₖ cₖ (R390). Where an accumulator holds NaN or an infinity there is no
exact sum: DEDUCED (log 118), the row is not compared, as R391 says of the other class. -/
def exactAgrees (a : List Fl) (lanes : List (Fl × Fl)) (prods : List (Long × Word)) : Option Bool :=
  let sum := (prods.map (·.1)).foldl Long.add Long.zero
  let chk := longDot a (lanes.map (·.1))
  if sum.special ≠ 0 ∨ chk.special ≠ 0 then none else some (sum.value == chk.value)

/-- A value held in a window of 56 bits below the leading bit `top`, and truncated there (R391; DEDUCED, log 118: the value of the finished sum is
truncated, towards zero). -/
def window56 (top : Int) : Fl → Fl
  | .fin s m e => if e ≥ top - 56 then .fin s m e else .fin s (m / 2 ^ (top - 56 - e).toNat) (top - 56)
  | x => x

/-- Canonical class: |S − C| ≤ (d + 2) · 2⁻²⁴ · Ā with d = ceil(log₂ K) + 1; a row whose outputs include a NaN or an infinity, or
whose C or Ā is not finite, is not compared (R391). -/
def canonAgrees (k : Nat) (a : List Fl) (lanes : List (Fl × Fl)) (prods : List (Long × Word)) : Option Bool :=
  let outs := prods.map fun p => dec32 p.2
  let c := sumFl ((a.zip lanes).map fun p => p.1.mul p.2.1)
  let m := sumFl ((a.zip lanes).map fun p => p.1.abs.mul p.2.2)
  if outs.all Fl.isFin && c.isFin && m.isFin then
    let top := m.floorLog2
    let cw := if m.isZero then c else window56 top c
    let mw := if m.isZero then m else window56 top m
    let d := bitLen (k - 1) + 1
    some (decide (Fl.cmp ((sumFl outs).sub cw).abs ((mw.mul (.fin false (d + 2) (-24)))) ≤ 0))
  else none

/-- What the check column finds for a command: whether every compared row and pass agrees; none where no row was compared (R80: masked
rows are never fed, so never checked). -/
def chainVerdict (c : Cmd) (b : ChainB) (rows : List ChainRow) : Option Bool :=
  let n := passCols c
  let one (p : Nat) : List (Option Bool) :=
    let lanes := laneSums c.chK (((b.drop (p * n)).take n).map fun x => scaledValues x.1 x.2)
    rows.map fun r =>
      let a := scaledValues r.a r.aScales
      let prods := (r.prods.drop (p * n)).take n
      if pairClass c.chACode c.chBCode = some 0 then exactAgrees a lanes prods else canonAgrees c.chK a lanes prods
  let found := ((List.range (ceilDiv c.chN n)).flatMap one).filterMap id
  if found.isEmpty then none else some (found.all id)

/-! ### Cycles (R73–R79) -/

/-- What the cycle account of a command holds (R79), how many of its stalls lie after the last row fed so far, and the folds selected. -/
structure Cycles where
  fed : Nat
  drain : Nat
  weight : Nat
  tail : Nat
  feed : Nat := 0
  lateDrain : Nat := 0
  lateWeight : Nat := 0
  sel : Nat := 0
  deriving Repr

def Cycles.busy (y : Cycles) : Nat := y.fed + y.drain + y.weight + y.feed + y.tail

/-- Split factor (R73). -/
def splitOf (mode k : Nat) : Nat :=
  let ka := if mode = 1 then 256 else 128
  if k ≤ ka / 4 then 4 else if k ≤ ka / 2 then 2 else 1

/-- Drain rate (Table 4-4). -/
def drainRate (c : Cmd) : Nat := if c.chList = 1 then (if c.chOut = 1 then 64 else 256) else if c.chList = 2 then 512 else 128

/-- Folds of a command in order: rows, load time, last chunk of its pass (R73, R75). -/
def folds (c : Cmd) (rows : Nat) : List (Nat × Nat × Bool) :=
  let mode := pairMode c.chACode c.chBCode
  let ka := if mode = 1 then 256 else 128
  let nc := if mode = 2 then 64 else 128
  let v := if mode = 1 then 2 else 1
  let s := splitOf mode c.chK
  let chunks := ceilDiv c.chK ka
  (List.range (ceilDiv c.chN nc)).flatMap fun _ => (List.range (ceilDiv rows 128)).flatMap fun b => (List.range chunks).map fun k =>
    let lanes := if s > 1 then ceilDiv c.chK v else ceilDiv (min (c.chK - k * ka) ka) v
    (min 128 (rows - 128 * b), ceilDiv lanes 2, k + 1 == chunks)

/-- One cycle at B after another: `left` rows of the fold at hand, which is not selected yet where `first`; `load` cycles until the weights
the loader is at are in their bank; `fifo` results waiting in the drain; `pipe` last-chunk rows on their way to stage C, newest first. The
row at B was issued into the skew stage a cycle earlier, and its room judged then: with the five rows between B and T3 counted and the one
at C just entered (R69, R70, R77, R78). A fold is selected as soon as its bank is loaded, and the loader goes on to the next one in that cycle
(R73). DESIGN CHOICE (log 119): a row partly taken by the drain counts as a whole row of the 32, and a bubble counts as one while the drain
FIFO is full wherever R78's test finds no room, for the folds too that are no last chunk and are not held back by it. -/
def arrayRun (s nc d : Nat) : Nat → List (Nat × Nat × Bool) → Nat → Bool → Nat → Nat → List Nat → Cycles → Cycles
  | 0, _, _, _, _, _, _, y => y
  | fuel + 1, fs, left, first, load, fifo, pipe, y =>
    let fifo1 := fifo - d + (pipe.getD 5 0) * nc
    let pipe1 := pipe.take 5
    match fs with
    | [] => y
    | (_, _, last) :: rest =>
      let g := min s left
      let room : Bool := decide (ceilDiv fifo1 nc + pipe1.foldl (· + ·) 0 + g ≤ 32)
      let selected := !first || load = 0
      let load1 := (if first && selected then (rest.head?.map (·.2.1)).getD 0 else load) - 1
      let y0 := if first && selected then { y with sel := y.sel + 1 } else y
      if selected && (room || !last) then
        let y1 := { y0 with fed := y0.fed + 1, lateDrain := 0, lateWeight := 0 }
        let pipe2 := (if last then g else 0) :: pipe1
        if left ≤ s then arrayRun s nc d fuel rest ((rest.head?.map (·.1)).getD 0) true load1 fifo1 pipe2 y1
        else arrayRun s nc d fuel fs (left - s) false load1 fifo1 pipe2 y1
      else
        let y1 := if !room then { y0 with drain := y0.drain + 1, lateDrain := y0.lateDrain + 1 }
          else { y0 with weight := y0.weight + 1, lateWeight := y0.lateWeight + 1 }
        arrayRun s nc d fuel fs left (first && !selected) load1 fifo1 (0 :: pipe1) y1

/-- Cycle account of a command that feeds `rows` rows and never waits for staging, cut off after `limit` cycles. -/
def chainCycles (c : Cmd) (rows limit : Nat) : Cycles :=
  let mode := pairMode c.chACode c.chBCode
  let fs := folds c rows
  let w0 := (fs.head?.map (·.2.1)).getD 0
  let m0 := (fs.head?.map (·.1)).getD 0
  let y := arrayRun (splitOf mode c.chK) (if mode = 2 then 64 else 128) (drainRate c) limit fs m0 true w0 0 [0, 0, 0, 0, 0, 0]
    { fed := 0, drain := 0, weight := 0, tail := 0 }
  if rows = 0 then y else { y with tail := 5 }

/-- A bound on the cycles of a command. -/
def cycleBound (c : Cmd) (rows : Nat) : Nat := ((folds c rows).map fun f => f.1 * 4 + f.2.1 + 64).foldl (· + ·) 64

/-- Add to a core's counters: cycles, masked rows, MACs, cycles that serve the drain (R79, R80, R87). -/
def State.countArray (s : State) (k : Nat) (y : Cycles) (masked macs epi : Nat) : State :=
  ((((((((s.bump (aMC k 0x10) y.busy).bump (aMC k 0x18) y.fed).bump (aMC k 0x20) y.feed).bump (aMC k 0x28) y.weight).bump
    (aMC k 0x30) y.drain).bump (aMC k 0x38) y.tail).bump (aMC k 0x40) masked).bump (aMC k 0x48) macs).bump (aVE k 0x10) epi |>.bump (aVE k 0x30) epi

/-- Epilogue cycles of a command that fed `rows` rows. -/
def epilogueCycles (c : Cmd) (rows : Nat) : Nat := if c.chList = 1 ∨ c.chList = 2 then 0 else ceilDiv (rows * c.chN) 128

/-- Count a completed command; the cycles its feeder waited for staged A data are free (R79). -/
def State.countChain (s : State) (k : Nat) (c : Cmd) (rows : Nat) (y : Cycles) (macs : Nat) : State :=
  let (n, s1) := s.waited c y.busy
  s1.countArray k { y with feed := n } (c.chM - rows) macs (epilogueCycles c rows)

/-- Useful MACs of one row of each fold, in the order of `folds` (R87). -/
def foldMacs (c : Cmd) (rows : Nat) : List Nat :=
  let mode := pairMode c.chACode c.chBCode
  let ka := if mode = 1 then 256 else 128
  let nc := if mode = 2 then 64 else 128
  (List.range (ceilDiv c.chN nc)).flatMap fun p => (List.range (ceilDiv rows 128)).flatMap fun _ =>
    (List.range (ceilDiv c.chK ka)).map fun k => min (c.chK - k * ka) ka * min (c.chN - p * nc) nc

/-- MACs of the first `n` cycles that feed, `s` rows a cycle. -/
def fedMacs (s : Nat) : List ((Nat × Nat × Bool) × Nat) → Nat → Nat
  | [], _ => 0
  | (f, q) :: rest, n =>
    let t := ceilDiv f.1 s
    if n ≤ t then min f.1 (s * n) * q else f.1 * q + fedMacs s rest (n - t)

/-- Count a command that ends early, `limit` cycles after its first weight write: every cycle after its last broadcast is TAIL (R79), its
MACs are those it fed (R87). Free values: the cycles its feeder waited for staged data, the cycles until the core is idle, at most 16 (R86), the
masked rows it had skipped and the results the drain had served. -/
def State.countEarly (s : State) (c : Cmd) (rows limit : Nat) : State :=
  let (idle, s1) := s.draw
  let (masked, s2) := s1.draw
  let (epi, s3) := s2.draw
  let (dry, s4) := s3.draw
  let feed := dry.toNat % (limit + 1)
  let y := chainCycles c rows (limit - feed)
  let whole := chainCycles c rows (cycleBound c rows)
  let after := limit - feed - y.fed - y.drain - y.weight
  let late := if y.fed = 0 then { y with tail := 0 }
    else if y.fed = whole.fed then { y with tail := after }
    else { y with drain := y.drain - y.lateDrain, weight := y.weight - y.lateWeight, tail := y.lateDrain + y.lateWeight }
  s4.countArray (c.core.getD 0) { late with tail := late.tail + idle.toNat % 17, feed := feed } (masked.toNat % (c.chM - rows + 1))
    (fedMacs (splitOf (pairMode c.chACode c.chBCode) c.chK) ((folds c rows).zip (foldMacs c rows)) y.fed)
    (epi.toNat % (epilogueCycles c rows + 1))

/-- Count a command that fails: after how many of its cycles is a free value. -/
def State.countFailed (s : State) (c : Cmd) (rows : Nat) : State :=
  let (w, s1) := s.draw
  s1.countEarly c rows (w.toNat % (cycleBound c rows + 1))

/-- Cycles in which the epilogue converts, uses a function unit or reduces: those of a list on the vector engine that holds E1, E3, E5 or
E7 (R392; DEDUCED, log 120). -/
def sampledCycles (c : Cmd) (rows : Nat) : Nat :=
  if c.chE 1 || c.chE 3 || c.chE 5 || c.chE 7 then epilogueCycles c rows else 0

/-- The work of a MATMUL_CHAIN (R127): its writes in order and what its check column finds; the draws counted at `base` stand for R118's
free elements. -/
def chainWork (s : State) (c : Cmd) (fed : List (Nat × Nat)) : Except Fail Work :=
  (chainRows s c fed).map fun p =>
    let rows := p.2.map (freeRow c s.free (chainInputs c fed))
    { verdict := if c.checked then chainVerdict c p.1 p.2 else none, sampled := sampledCycles c fed.length,
      writes := chainWrites c rows }

/-- MATMUL_CHAIN on its core (R127). One whose cycles at 2.1 GHz pass its run limit only ends by it (R188). -/
def runChain (s : State) (c : Cmd) : State :=
  let outs := chainOutputs s c
  match chainFed s c with
  | .error f => s.coreFail c f outs
  | .ok fed =>
    let rows := fed.length
    let y := chainCycles c rows (cycleBound c rows)
    let whole (s : State) : State := s.countChain (c.core.getD 0) c rows y (rows * c.chN * c.chK)
    if y.busy > 21 * c.limit then s
    else if fed.isEmpty then s.coreEnd c {} [] whole id
    else match chainWork s c fed with
      | .error f => (s.countFailed c rows).coreFail c f outs
      | .ok w => { s with free := s.free + 1 }.coreEnd c w outs whole (fun s => s.countFailed c rows)

/-- MATMUL_CHAIN. -/
def execOpMatmulChain (id : Nat) (s : State) : Host.Outcome State Fault Refusal := .next (runCore 0x2001 (reading runChain) id s)

end Sys2Proof.Machine
end

