-- ==== Sys2Proof/Machine/Tiles.lean ====
section
/-! DEFINITION. Vector instructions as pure functions of a vector engine's state: fields of the four formats (Tables 7-2a to
7-2d), element arithmetic (R129–R135), reductions, stacks, scans and top-k (R138–R142), scalar instructions (R132). -/
namespace Sys2Proof.Machine

/-! ### Fields -/

def veFormat (w : Dbl) : Nat := bits w.toNat 63 62
/-- OP: 8 bits in formats T and X, 6 bits in M and F. -/
def veOp (w : Dbl) : Nat := if veFormat w < 2 then bits w.toNat 61 54 else bits w.toNat 61 56
def veType (w : Dbl) : Nat := bits w.toNat 53 51
def tVD (w : Dbl) : Nat := bits w.toNat 50 46
def tVA (w : Dbl) : Nat := bits w.toNat 45 41
def tVB (w : Dbl) : Nat := bits w.toNat 40 36
def tVC (w : Dbl) : Nat := bits w.toNat 35 31
def tQP (w : Dbl) : Nat := bits w.toNat 30 28
def tZero (w : Dbl) : Bool := w.toNat.testBit 27
def tQD (w : Dbl) : Nat := bits w.toNat 26 24
def tBMode (w : Dbl) : Nat := bits w.toNat 23 22
def tSat (w : Dbl) : Bool := w.toNat.testBit 21
def tSrc (w : Dbl) : Nat := bits w.toNat 20 18
def xQP (w : Dbl) : Nat := bits w.toNat 35 33
def xQD (w : Dbl) : Nat := bits w.toNat 32 30
def xQS (w : Dbl) : Nat := bits w.toNat 29 27
def xDir (w : Dbl) : Bool := w.toNat.testBit 26
def xExcl (w : Dbl) : Bool := w.toNat.testBit 25
def xPos (w : Dbl) : Nat := bits w.toNat 24 21
def xKm1 (w : Dbl) : Nat := bits w.toNat 20 15
def xSX (w : Dbl) : Nat := bits w.toNat 14 11
def xCin (w : Dbl) : Bool := w.toNat.testBit 10
def mVD (w : Dbl) : Nat := bits w.toNat 55 51
def mQP (w : Dbl) : Nat := bits w.toNat 50 48
def mBind (w : Dbl) : Nat := bits w.toNat 47 45
def mSA (w : Dbl) : Nat := bits w.toNat 44 41
def mSC (w : Dbl) : Nat := bits w.toNat 40 37
def mFmt (w : Dbl) : Nat := bits w.toNat 36 33
def mSat (w : Dbl) : Bool := w.toNat.testBit 32
def mBsc (w : Dbl) : Nat := bits w.toNat 31 29
def mQD (w : Dbl) : Nat := bits w.toNat 28 26
def mImm (w : Dbl) : Nat := w.toNat % 2 ^ 26
def fSD (w : Dbl) : Nat := bits w.toNat 55 52
def fSA (w : Dbl) : Nat := bits w.toNat 51 48
def fSB (w : Dbl) : Nat := bits w.toNat 47 44
def fImm (w : Dbl) : Nat := w.toNat % 2 ^ 32

/-! ### Registers (Table 7-1) -/

def Tile.zero : Tile := Vector.replicate 256 0
/-- Tile from a function of the element number 16 r + c. -/
def mkTile (f : Nat → Word) : Tile := Vector.ofFn fun i : Fin 256 => f i.val
def Tile.el (t : Tile) (i : Nat) : Word := t[i]?.getD 0

namespace Ve

def tile (v : Ve) (n : Nat) : Tile := v.tiles[n]?.getD Tile.zero
def setTile (v : Ve) (n : Nat) (t : Tile) : Ve := { v with tiles := v.tiles.setIfInBounds n t }
/-- Q0 reads all ones. -/
def pred (v : Ve) (n : Nat) : BitVec 256 := if n = 0 then BitVec.allOnes 256 else v.preds[n]?.getD 0
/-- Writes to Q0 are discarded. -/
def setPred (v : Ve) (n : Nat) (p : BitVec 256) : Ve := if n = 0 then v else { v with preds := v.preds.setIfInBounds n p }
/-- S0 reads 0. -/
def scalar (v : Ve) (n : Nat) : Dbl := if n = 0 then 0 else v.scalars[n]?.getD 0
/-- Writes to S0 are discarded. -/
def setScalar (v : Ve) (n : Nat) (x : Dbl) : Ve := if n = 0 then v else { v with scalars := v.scalars.setIfInBounds n x }

end Ve

/-- Predicate from a function of the element number. -/
def mkPred (f : Nat → Bool) : BitVec 256 := BitVec.ofNat 256 ((List.range 256).foldr (fun i a => 2 * a + b2n (f i)) 0)
def on (p : BitVec 256) (i : Nat) : Bool := p.toNat.testBit i

/-- The second source under BMODE (Table 7-2a). -/
def bOperand (v : Ve) (w : Dbl) (i : Nat) : Word :=
  let t := v.tile (tVB w)
  match tBMode w with
  | 0 => t.el i
  | 1 => t.el (i / 16 * 16)
  | 2 => t.el (i % 16)
  | _ => (v.scalar (tVB w % 16)).setWidth 32

/-- Write a tile's active elements; inactive ones keep their value or become +0 (R130). -/
def writeActive (old : Tile) (qp : BitVec 256) (zero : Bool) (f : Nat → Word) : Tile :=
  mkTile fun i => if on qp i then f i else if zero then 0 else old.el i

/-- Write a predicate's active bits (R130). -/
def predActive (old qp : BitVec 256) (zero : Bool) (f : Nat → Bool) : BitVec 256 :=
  mkPred fun i => if on qp i then f i else if zero then false else on old i

/-- An element-wise result into VD. -/
def elementwise (f : Ve → Dbl → Nat → Word) (w : Dbl) (v : Ve) : Ve :=
  v.setTile (tVD w) (writeActive (v.tile (tVD w)) (v.pred (tQP w)) (tZero w) (f v w))

/-! ### Element arithmetic by TYPE (R129) -/

/-- The pair formats. -/
def pairFmt (ty : Nat) : Fmt := if ty = 2 then bf16 else fp16

/-- Act on both halves of an element. -/
def onHalves (f : Nat → Nat → Nat → Nat) (a b c : Word) : Word :=
  BitVec.ofNat 32 (f (a.toNat % 65536) (b.toNat % 65536) (c.toNat % 65536)
    + 65536 * f (a.toNat / 65536) (b.toNat / 65536) (c.toNat / 65536))

/-- A three-operand operation on exact values, rounded once into the element's type. -/
def byFloat (ty : Nat) (f : Fl → Fl → Fl → Fl) (a b c : Word) : Word :=
  if ty = 0 then enc32 (f (dec32 a) (dec32 b) (dec32 c))
  else onHalves (fun x y z => (pairFmt ty).enc false (f ((pairFmt ty).dec x) ((pairFmt ty).dec y) ((pairFmt ty).dec z))) a b c

/-- An INT32 result: wrapped, or saturated where SAT is 1 (R135). -/
def intResult (sat : Bool) (x : Int) : Word :=
  if sat then BitVec.ofInt 32 (clampInt (-(2 ^ 31)) (2 ^ 31 - 1) x) else BitVec.ofInt 32 x

/-- A binary arithmetic instruction: floating types by `f`, INT32 by `g`. -/
def arith2 (f : Fl → Fl → Fl) (g : Int → Int → Int) (v : Ve) (w : Dbl) (i : Nat) : Word :=
  let a := (v.tile (tVA w)).el i
  let b := bOperand v w i
  if veType w = 1 then intResult (tSat w) (g a.toInt b.toInt) else byFloat (veType w) (fun x y _ => f x y) a b 0

/-- R135's minimum and maximum of two data. -/
def minFl (a b : Fl) : Fl := if a.isNan || b.isNan then .nan else if Fl.lt0 b a then b else a
def maxFl (a b : Fl) : Fl := if a.isNan || b.isNan then .nan else if Fl.lt0 a b then b else a

def tAdd := elementwise (arith2 Fl.add (· + ·))
def tSub := elementwise (arith2 Fl.sub (· - ·))
def tMul := elementwise (arith2 Fl.mul (· * ·))
def tMin := elementwise (arith2 minFl min)
def tMax := elementwise (arith2 maxFl max)

/-- FMA: a × b + c, rounded once. -/
def tFma := elementwise fun v w i =>
  byFloat (veType w) (fun x y z => (x.mul y).add z) ((v.tile (tVA w)).el i) (bOperand v w i) ((v.tile (tVC w)).el i)

/-- ABS and NEG: exact sign operations; the INT32 result of the most negative number is not stated where SAT is 0: it is the
free value of draw `free + i` (log 4). -/
def signOp (f : Fl → Fl) (g : Int → Int) (free : Nat) := elementwise fun v w i =>
  let a := (v.tile (tVA w)).el i
  if veType w = 1 then
    (if g a.toInt ≥ 2 ^ 31 ∧ !tSat w then Config.freeWord (free + i) else intResult true (g a.toInt))
  else byFloat (veType w) (fun x _ _ => f x) a 0 0

def tAbs := signOp Fl.abs (fun x => x.natAbs)
def tNeg := signOp Fl.neg (fun x => -x)

/-- Compare results by type: FP32 and INT32 give one result; a pair whose halves differ gives a bit the manual does not state:
the lowest bit of the free value of draw `free + i` (log 4). -/
def compareBit (f : Fl → Fl → Bool) (g : Int → Int → Bool) (free : Nat) (v : Ve) (w : Dbl) (i : Nat) : Bool :=
  let a := (v.tile (tVA w)).el i
  let b := bOperand v w i
  if veType w = 1 then g a.toInt b.toInt
  else if veType w = 0 then f (dec32 a) (dec32 b)
  else
    let p := pairFmt (veType w)
    let lo := f (p.dec (a.toNat % 65536)) (p.dec (b.toNat % 65536))
    let hi := f (p.dec (a.toNat / 65536)) (p.dec (b.toNat / 65536))
    if lo = hi then lo else (Config.freeWord (free + i)).toNat.testBit 0

/-- A compare writes QD. -/
def compareOp (f : Fl → Fl → Bool) (g : Int → Int → Bool) (free : Nat) (w : Dbl) (v : Ve) : Ve :=
  v.setPred (tQD w) (predActive (v.pred (tQD w)) (v.pred (tQP w)) (tZero w) (compareBit f g free v w))

def tCmpeq := compareOp (fun a b => !a.isNan && !b.isNan && Fl.cmp a b == 0) (· == ·)
def tCmplt := compareOp (fun a b => !a.isNan && !b.isNan && Fl.cmp a b < 0) (fun a b => a < b)
def tCmple := compareOp (fun a b => !a.isNan && !b.isNan && Fl.cmp a b ≤ 0) (fun a b => a ≤ b)
def tCmpun := compareOp (fun a b => a.isNan || b.isNan) (fun _ _ => false)

/-- SEL: QD bit ? a : b. -/
def tSel := elementwise fun v w i => if on (v.pred (tQD w)) i then (v.tile (tVA w)).el i else bOperand v w i

/-- A function unit or activation of one FP32 source. -/
def unary32 (f : Word → Word) := elementwise fun v w i => f ((v.tile (tVA w)).el i)

def tExp2 := unary32 exp2u
def tLog2 := unary32 log2u
def tRcp := unary32 rcpu
def tRsq := unary32 rsqu
def tTanh := unary32 tanhu
def tGelu := unary32 gelu32
def tSilu := unary32 silu32
/-- RELU, in the pair view on each half (R134). -/
def tRelu := elementwise fun v w i => byFloat (veType w) (fun x _ _ => reluFl x) ((v.tile (tVA w)).el i) 0 0
/-- SWIGLU: a is the gate, b the up. -/
def tSwiglu := elementwise fun v w i => swiglu32 ((v.tile (tVA w)).el i) (bOperand v w i)

/-- CVTN: FP32 a to the low halves, b to the high halves of a pair of TYPE. -/
def tCvtn := elementwise fun v w i =>
  let f := pairFmt (veType w)
  BitVec.ofNat 32 (convert f (tSat w) ((v.tile (tVA w)).el i) + 65536 * convert f (tSat w) (bOperand v w i))

/-- CVTWL, CVTWH: low or high halves of a pair of type SRC to FP32. -/
def widen (hi : Bool) := elementwise fun v w i =>
  let a := ((v.tile (tVA w)).el i).toNat
  enc32 ((pairFmt (tSrc w)).dec (if hi then a / 65536 else a % 65536))
def tCvtwl := widen false
def tCvtwh := widen true
/-- CVTFI, CVTIF (Table 7-3). -/
def tCvtfi := unary32 fun a => BitVec.ofInt 32 ((dec32 a).toSat (-(2 ^ 31)) (2 ^ 31 - 1))
def tCvtif := unary32 fun a => intTo32 a.toInt

/-- Bitwise operations and shifts; the shift count is b mod 32. -/
def bitwise (f : Word → Word → Word) := elementwise fun v w i => f ((v.tile (tVA w)).el i) (bOperand v w i)
def tAnd := bitwise (· &&& ·)
def tOr := bitwise (· ||| ·)
def tXor := bitwise (· ^^^ ·)
def tShl := bitwise fun a b => a <<< (b.toNat % 32)
def tShra := bitwise fun a b => a.sshiftRight (b.toNat % 32)
/-- MOVS, IOTAC, IOTAR: from S[VB]. -/
def tMovs := elementwise fun v w _ => (v.scalar (tVB w % 16)).setWidth 32
def tIotac := elementwise fun v w i => (v.scalar (tVB w % 16)).setWidth 32 + BitVec.ofNat 32 (i % 16)
def tIotar := elementwise fun v w i => (v.scalar (tVB w % 16)).setWidth 32 + BitVec.ofNat 32 (i / 16)
/-- SHC1: one column to the right, column 0 from b's column 15. -/
def tShc1 := elementwise fun v w i => if i % 16 = 0 then bOperand v w (i + 15) else (v.tile (tVA w)).el (i - 1)
/-- TRN. -/
def tTrn := elementwise fun v w i => (v.tile (tVA w)).el (16 * (i % 16) + i / 16)

/-- Predicate logic: bits 2:0 of VD, VA, VB name predicates. -/
def predOp (f : Bool → Bool → Bool) (w : Dbl) (v : Ve) : Ve :=
  let d := tVD w % 8
  v.setPred d (predActive (v.pred d) (v.pred (tQP w)) (tZero w) fun i => f (on (v.pred (tVA w % 8)) i) (on (v.pred (tVB w % 8)) i))
def tPand := predOp (· && ·)
def tPor := predOp (· || ·)
def tPnot := predOp fun a _ => !a
def tPset := predOp fun _ _ => true
def tPclr := predOp fun _ _ => false

/-! ### Reductions (R138, R139) -/

/-- Element number of leaf `k` of line `l`: rows with DIR 0, columns with DIR 1. -/
def leafIndex (dir : Bool) (l k : Nat) : Nat := if dir then 16 * k + l else 16 * l + k

/-- The 16 leaves of a line, absent where inactive. -/
def leaves (v : Ve) (w : Dbl) (l : Nat) : List (Option Word) :=
  (List.range 16).map fun k =>
    let i := leafIndex (xDir w) l k
    if on (v.pred (xQP w)) i then some ((v.tile (tVA w)).el i) else none

/-- Put a value per line into column or row POS of a tile. -/
def putLine (w : Dbl) (t : Tile) (f : Nat → Word) : Tile :=
  mkTile fun i =>
    let (l, p) := if xDir w then (i % 16, i / 16) else (i / 16, i % 16)
    if p = xPos w then f l else t.el i

/-- Put EMPTY flags into bits (r, POS) or (POS, c) of a predicate. -/
def putEmpty (w : Dbl) (q : BitVec 256) (f : Nat → Bool) : BitVec 256 :=
  mkPred fun i =>
    let (l, p) := if xDir w then (i % 16, i / 16) else (i / 16, i % 16)
    if p = xPos w then f l else on q i

/-- A reduction: value per line from its leaves, the identity where every leaf is absent. -/
def reduce (f : List (Option Word) → Option Word) (identity : Word) (w : Dbl) (v : Ve) : Ve :=
  let r (l : Nat) := f (leaves v w l)
  (v.setTile (tVD w) (putLine w (v.tile (tVD w)) fun l => (r l).getD identity)).setPred (xQD w)
    (putEmpty w (v.pred (xQD w)) fun l => (r l).isNone)

/-- Canonical fold of 16 leaves. -/
def fold16 (op : Word → Word → Word) (xs : List (Option Word)) : Option Word := canonFold op 4 xs

def present (xs : List (Option Word)) : List Word := xs.filterMap id
def xRsum (w : Dbl) (v : Ve) : Ve :=
  if veType w = 1 then reduce (fun xs => if (present xs).isEmpty then none else some ((present xs).foldl (· + ·) 0)) 0 w v
  else reduce (fold16 add32) 0 w v
def xRprod := reduce (fold16 mul32) one32
def xRcnt := reduce (fun xs => if (present xs).isEmpty then none else some (BitVec.ofNat 32 (present xs).length)) 0
def xRmean := reduce (fun xs => (fold16 add32 xs).map fun t => enc32 ((dec32 t).divNat (present xs).length)) nan32

/-- Leaf numbers with their words. -/
def numbered (xs : List (Option Word)) : List (Nat × Word) :=
  (List.range xs.length).filterMap fun k => (xs.getD k none).map fun x => (k, x)

/-- The winning leaf: the lowest NaN, else the best by `better`, the lowest among equals (R139). -/
def winner (int : Bool) (better : Word → Word → Bool) (xs : List (Nat × Word)) : Option (Nat × Word) :=
  match xs.find? fun e => !int && (dec32 e.2).isNan with
  | some e => some (e.1, nan32)
  | none => xs.foldl (fun a e => match a with
      | none => some e
      | some b => if better e.2 b.2 then some e else a) none

/-- RMAX and RMIN with their index (R139, Table 7-7). -/
def extremum (better : Bool → Word → Word → Bool) (idF idI : Word) (w : Dbl) (v : Ve) : Ve :=
  let int := veType w = 1
  let r (l : Nat) := winner int (better int) (numbered (leaves v w l))
  let base := (v.scalar (xSX w)).setWidth 32
  let v1 := v.setTile (tVD w) (putLine w (v.tile (tVD w)) fun l => ((r l).map Prod.snd).getD (if int then idI else idF))
  let v2 := v1.setTile (tVB w) (putLine w (v1.tile (tVB w)) fun l => match r l with
    | some e => base + BitVec.ofNat 32 e.1
    | none => 0xFFFFFFFF)
  v2.setPred (xQD w) (putEmpty w (v.pred (xQD w)) fun l => (r l).isNone)

def xRmax := extremum (fun int a b => if int then b.toInt < a.toInt else Fl.lt0 (dec32 b) (dec32 a)) ninf32 0x80000000
def xRmin := extremum (fun int a b => if int then a.toInt < b.toInt else Fl.lt0 (dec32 a) (dec32 b)) inf32 0x7FFFFFFF

/-! ### Canonical stacks (R97, R140) -/

/-- Combine two nodes, an absent one passing the other through. -/
def joinNodes (a b : Option Word) : Option Word :=
  match a, b with
  | some x, some y => some (add32 x y)
  | some x, none => some x
  | none, y => y

/-- Lift the newest node until its parent covers chunk `t`: a right child meets its left sibling where that is held. -/
def liftNodes (t : Nat) : Nat → CStack → CStack
  | 0, st => st
  | f + 1, st =>
    match st with
    | [] => []
    | (l, c, x) :: rest =>
      let pc := c / 2 ^ (l + 1) * 2 ^ (l + 1)
      if pc ≤ t ∧ t < pc + 2 ^ (l + 1) then st
      else match rest with
        | (l2, c2, y) :: rest2 =>
          if c ≠ pc ∧ l2 = l ∧ c2 = pc then liftNodes t f ((l + 1, pc, joinNodes y x) :: rest2)
          else liftNodes t f ((l + 1, pc, x) :: rest)
        | [] => liftNodes t f [(l + 1, pc, x)]

/-- Join the newest two nodes while they are siblings. -/
def joinSiblings : Nat → CStack → CStack
  | 0, st => st
  | f + 1, st =>
    match st with
    | (l, c, x) :: (l2, c2, y) :: rest =>
      if l = l2 ∧ c = c2 + 2 ^ l ∧ c2 % 2 ^ (l + 1) = 0 then joinSiblings f ((l + 1, c2, joinNodes y x) :: rest) else st
    | _ => st

/-- Numbers that name what a stack holds. -/
def stackKey (st : CStack) : List Nat := st.flatMap fun e => [e.1, e.2.1, match e.2.2 with | some x => x.toNat + 1 | none => 0]

/-- Push chunk value `x` as v(t) (R140); a t that does not rise makes later results rest on Config.stackOpen. -/
def pushNode (last : Option Nat) (t : Nat) (x : Option Word) (st : CStack) : CStack :=
  let falls : Bool := match last with | some p => decide (t ≤ p) | none => false
  if falls then [(0, t, some (Config.stackOpen (stackKey st ++ stackKey [(0, t, x)])))]
  else joinSiblings 14 ((0, t, x) :: liftNodes t 32 st)

/-- R97's final fold, lowest level first, the older value on the left. -/
def foldStack (st : CStack) : Option Word := st.foldl (fun a e => joinNodes e.2.2 a) none

def xCspush (w : Dbl) (v : Ve) : Ve :=
  let t := (v.scalar (xSX w)).toNat % 4096
  { v with
    cstacks := Vector.ofFn fun l : Fin 16 => pushNode v.lastPush[l] t (fold16 add32 (leaves v w l.val)) v.cstacks[l]
    lastPush := Vector.replicate 16 (some t) }

def Ve.clearStacks (v : Ve) : Ve := { v with cstacks := Vector.replicate 16 [], lastPush := Vector.replicate 16 none }

def xCsfin (w : Dbl) (v : Ve) : Ve :=
  let r (l : Nat) : Option Word := foldStack (v.cstacks[l]?.getD [])
  ((v.setTile (tVD w) (putLine w (v.tile (tVD w)) fun l => (r l).getD 0)).setPred (xQD w)
    (putEmpty w (v.pred (xQD w)) fun l => (r l).isNone)).clearStacks

def xCsclr (_w : Dbl) (v : Ve) : Ve := v.clearStacks

/-! ### Scans (R141) -/

/-- Scan one line: the running sum `y`, then the positions from `k` on; results of present positions. -/
def scanLine (add : Word → Word → Word) (excl : Bool) (start : Nat → Bool) : Nat → Word → List (Option Word) → List (Option Word)
  | _, _, [] => []
  | k, y, x :: xs =>
    let y := if start k then 0 else y
    match x with
    | none => none :: scanLine add excl start (k + 1) y xs
    | some e => let z := add y e; some (if excl then y else z) :: scanLine add excl start (k + 1) z xs

/-- SCAN and SSCAN: `seg` enables the segment starts of QS. -/
def scanOp (seg : Bool) (w : Dbl) (v : Ve) : Ve :=
  let add : Word → Word → Word := if veType w = 1 then (· + ·) else add32
  let lines := (List.range 16).map fun l =>
    let y0 := if xCin w then (v.tile (tVB w)).el (leafIndex (xDir w) l 15) else 0
    scanLine add (xExcl w) (fun k => seg && on (v.pred (xQS w)) (leafIndex (xDir w) l k)) 0 y0 (leaves v w l)
  v.setTile (tVD w) (mkTile fun i =>
    let (l, k) := if xDir w then (i % 16, i / 16) else (i / 16, i % 16)
    ((lines.getD l []).getD k none).getD ((v.tile (tVD w)).el i))

def xScan := scanOp false
def xSscan := scanOp true

/-! ### Top-k (R142) -/

/-- Slot (value, index) unfilled: index 0xFFFF_FFFF and −∞. -/
def emptySlot : Word × Word := (ninf32, 0xFFFFFFFF)

/-- Does element `a` rank above `b`: filled first, NaN, then larger (+0 above −0), then the lower index. -/
def ranksAbove (a b : Word × Word) : Bool :=
  if a = emptySlot then false
  else if b = emptySlot then true
  else
    let x := dec32 a.1
    let y := dec32 b.1
    if x.isNan && y.isNan then a.2.toNat < b.2.toNat
    else if x.isNan then true
    else if y.isNan then false
    else if Fl.lt0 y x then true
    else if Fl.lt0 x y then false
    else a.2.toNat < b.2.toNat

/-- Insert an element into a list ordered best first. -/
def insertRanked (e : Word × Word) : List (Word × Word) → List (Word × Word)
  | [] => [e]
  | x :: xs => if ranksAbove e x then e :: x :: xs else x :: insertRanked e xs

/-- The k best of a list and new elements. -/
def mergeTop (k : Nat) (old new : List (Word × Word)) : List (Word × Word) :=
  ((new.foldl (fun l e => insertRanked e l) old).take k)

/-- The list of row `r` held in VD … (R142). -/
def topList (v : Ve) (vd k r : Nat) : List (Word × Word) :=
  let n := ceilDiv k 16
  (List.range k).map fun j => ((v.tile (vd + j / 16)).el (16 * r + j % 16), (v.tile (vd + n + j / 16)).el (16 * r + j % 16))

/-- Write the lists of all rows back. -/
def putTop (v : Ve) (vd k : Nat) (lists : List (List (Word × Word))) : Ve :=
  let n := ceilDiv k 16
  (List.range n).foldl (fun v q =>
    let entry (i : Nat) : Option (Word × Word) := if 16 * q + i % 16 < k then some (((lists.getD (i / 16) []).getD (16 * q + i % 16) emptySlot)) else none
    (v.setTile (vd + q) (mkTile fun i => ((entry i).map Prod.fst).getD ((v.tile (vd + q)).el i))).setTile (vd + n + q)
      (mkTile fun i => ((entry i).map Prod.snd).getD ((v.tile (vd + n + q)).el i))) v

def xTopk (w : Dbl) (v : Ve) : Ve :=
  let k := xKm1 w + 1
  let base := (v.scalar (xSX w)).setWidth 32
  let lists := (List.range 16).map fun r =>
    mergeTop k (topList v (tVD w) k r) ((numbered (leaves v w r)).map fun e => (e.2, base + BitVec.ofNat 32 e.1))
  let v1 := putTop v (tVD w) k lists
  v1.setPred (xQD w) (mkPred fun i => if i % 16 = 0 then (lists.getD (i / 16) []).head? == some emptySlot else on (v.pred (xQD w)) i)

def xTopkclr (w : Dbl) (v : Ve) : Ve :=
  putTop v (tVD w) (xKm1 w + 1) ((List.range 16).map fun _ => List.replicate (xKm1 w + 1) emptySlot)

/-! ### Scalar and flow (Table 7-2d) -/

/-- The signed immediate as a double. -/
def fImm64 (w : Dbl) : Dbl := (BitVec.ofNat 32 (fImm w)).signExtend 64

def scalarOp (f : Dbl → Dbl → Dbl → Dbl) (w : Dbl) (v : Ve) : Ve :=
  v.setScalar (fSD w) (f (v.scalar (fSA w)) (v.scalar (fSB w)) (fImm64 w))

def sAddi := scalarOp fun a _ i => a + i
def sAdd := scalarOp fun a b _ => a + b
def sSub := scalarOp fun a b _ => a - b
def sMuli := scalarOp fun a _ i => a * i
def sAndi := scalarOp fun a _ i => a &&& i
/-- Shifts by 0–63; a count the manual gives no result for yields the free double of two draws (log 4). -/
def shiftBy (f : Dbl → Nat → Dbl) (free : Nat) (w : Dbl) (v : Ve) : Ve :=
  v.setScalar (fSD w) (if fImm w < 64 then f (v.scalar (fSA w)) (fImm w)
    else BitVec.ofNat 64 ((Config.freeWord free).toNat + 2 ^ 32 * (Config.freeWord (free + 1)).toNat))
def sShli := shiftBy fun a n => a <<< n
def sShri := shiftBy fun a n => a >>> n
/-- MVSV. -/
def sMvsv (w : Dbl) (v : Ve) : Ve :=
  let m := fImm w
  v.setScalar (fSD w) (((v.tile (bits m 12 8)).el (16 * bits m 7 4 + bits m 3 0)).setWidth 64)

end Sys2Proof.Machine
end

