-- ==== Sys2Proof/Machine/VeMemory.lean ====
section
/-! DEFINITION. How vector instructions touch memory (R136, R137), the softmax macro (R143) and the Coopers (R149–R151). -/
namespace Sys2Proof.Machine

/-! ### Bindings (R137) -/

/-- Binding `b` of a running program. -/
def Ve.bind (v : Ve) (b : Nat) : Nat × Nat × Bool × Bool := v.binds.getD b (0, 0, false, false)

/-- Outputs of a VECTOR_RUN: every line of its writable bindings (R148). -/
def Ve.outputs (s : State) (t : Nat) (v : Ve) : Ranges :=
  v.binds.filterMap fun b => if b.2.2.2 then (s.obj t (refHandle b.1)).map fun o => (b.1, 0, o.size - refOff b.1) else none

/-- A bound fault (R137). -/
def boundFault : Fail := (stPoison, [0x10])

/-- Byte offset of row `r` in a binding's object: base offset, row number, stride or packed row length, modulo 2⁶⁴ (R137: S[SA] is a
64-bit register, so a negative IMM takes a later row back into the object). -/
def rowOffset (b : Nat × Nat × Bool × Bool) (base len r : Nat) : Nat := (base + r * (if b.2.1 = 0 then len else b.2.1)) % 2 ^ 64

/-- The import an object of another module lies in. -/
def State.importOf (s : State) (t h : Nat) : Option Import :=
  match s.obj t h with
  | some o => if o.home = 3 then NMap.get none s.fabric.imports o.imp else none
  | none => none

/-- Bytes at `off` of a reference with the command's own writes to another module, which are held until its end (R222), over them: the program
reads what it wrote (R131). Of an atomic region it reads the elements at the home (R224). -/
def State.withPosts (s : State) (c : Cmd) (ref off : Nat) (bs : List Byte) : List Byte :=
  match s.importOf c.tenant (refHandle ref), s.cmd? c.id with
  | some i, some d =>
    if i.mode = 2 then bs
    else
      let x := refOff ref + off
      d.posts.foldl (fun bs w =>
        let y := refOff w.1 + w.2.1
        if refHandle w.1 ≠ refHandle ref then bs
        else (List.range bs.length).map fun k => if y ≤ x + k ∧ x + k < y + w.2.2.length then w.2.2.getD (x + k - y) 0 else bs.getD k 0) bs
  | _, _ => bs

/-- Read bytes that enter a program's registers. -/
def State.veConsume (s : State) (c : Cmd) (ref off n : Nat) : Except Fail (List Byte) :=
  (s.consume c.id c.tenant ref off n).map (s.withPosts c ref off)

/-- Read an active part of a row. -/
def veRead (s : State) (c : Cmd) (b : Nat × Nat × Bool × Bool) (row o n : Nat) : Except Fail (List Byte) :=
  if !b.2.2.1 || row % 16 ≠ 0 then .error boundFault else s.veConsume c b.1 (row + o) n

/-- Read a scale byte of an MX row: one byte per row, with no row alignment of its own. -/
def veReadByte (s : State) (c : Cmd) (b : Nat × Nat × Bool × Bool) (o : Nat) : Except Fail Nat :=
  if !b.2.2.1 then .error boundFault else (s.veConsume c b.1 o 1).map leNat

/-- S[SA] + IMM as a byte offset. -/
def mOffset (w : Dbl) (v : Ve) : Nat := (v.scalar (mSA w) + (BitVec.ofNat 26 (mImm w)).signExtend 64).toNat

/-- Rows with an active element. -/
def activeRow (q : BitVec 256) (r : Nat) : Bool := (List.range 16).any fun c => on q (16 * r + c)

/-- An MX memory format of Table 7-4. -/
def mxFmt (f : Nat) : Bool := 8 ≤ f && f ≤ 0xD
/-- Bytes per tile row (Table 7-4). -/
def rowBytes (f : Nat) : Nat :=
  if f ≤ 3 then 64 else if f ≤ 6 then 16 else packedLen (operandBits f) 32

/-- Where element c of a row lies, as (byte, bytes) parts: one, or two halves of a pair. -/
def elementParts (f c : Nat) : List (Nat × Nat) :=
  if f ≤ 1 then [(4 * c, 4)] else if f ≤ 3 then [(2 * c, 2), (2 * (c + 16), 2)] else [(c, 1)]

/-- The bytes that hold element j of a packed run of w-bit elements. -/
def bitSpan (w j : Nat) : Nat × Nat := (w * j / 8, (w * j + w - 1) / 8 + 1 - w * j / 8)

/-- A loaded element as its register holds it (R136); `bs` are the element's parts in order. -/
def loadElement (f : Nat) (bs : List (List Byte)) : Word :=
  let n := leNat (bs.headD [])
  match f with
  | 0 | 1 => BitVec.ofNat 32 n
  | 2 | 3 => BitVec.ofNat 32 (n + 65536 * leNat (bs.getD 1 []))
  | 4 => enc32 (e4m3.dec n)
  | 5 => enc32 (e5m2.dec n)
  | _ => BitVec.ofInt 32 (toSigned 8 n)

/-- Elements of a tile, read where active: number and word. -/
def loadTile (s : State) (c : Cmd) (w : Dbl) (v : Ve) : Except Fail (List (Nat × Word)) :=
  let q := v.pred (mQP w)
  let b := v.bind (mBind w)
  let f := mFmt w
  ((List.range 256).filter (on q)).mapM fun i => do
    let row := rowOffset b (mOffset w v) (rowBytes f) (i / 16)
    let parts ← (elementParts f (i % 16)).mapM fun p => veRead s c b row p.1 p.2
    .ok (i, loadElement f parts)

/-- Elements of an MX pair of tiles, read where active: number with 256 added for the second tile (R136). -/
def loadMx (s : State) (c : Cmd) (w : Dbl) (v : Ve) : Except Fail (List (Nat × Word)) :=
  let q := v.pred (mQP w)
  let b := v.bind (mBind w)
  let f := mFmt w
  let wd := operandBits f
  ((List.range 512).filter fun i => on q (i % 256)).mapM fun i => do
    let r := i % 256 / 16
    let j := i % 16 + 16 * (i / 256)
    let scale ← veReadByte s c (v.bind (mBsc w)) ((v.scalar (mSC w)).toNat + r)
    let sp := bitSpan wd j
    let bs ← veRead s c b (rowOffset b (mOffset w v) (rowBytes f) r) sp.1 sp.2
    .ok (i, enc32 (mxValue f (streamBits bs (wd * j % 8) wd) scale))

/-- Put loaded elements into a tile, leaving the rest. -/
def putElements (t : Tile) (base : Nat) (es : List (Nat × Word)) : Tile :=
  es.foldl (fun t e => if base ≤ e.1 ∧ e.1 < base + 256 then t.setIfInBounds (e.1 - base) e.2 else t) t

/-- LDT. -/
def doLdt (s : State) (c : Cmd) (w : Dbl) (v : Ve) : Except Fail Ve :=
  if mxFmt (mFmt w) then (loadMx s c w v).map fun es =>
    (v.setTile (mVD w) (putElements (v.tile (mVD w)) 0 es)).setTile (mVD w + 1) (putElements (v.tile (mVD w + 1)) 256 es)
  else (loadTile s c w v).map fun es => v.setTile (mVD w) (putElements (v.tile (mVD w)) 0 es)

/-- Bytes an element is stored as, part by part: converted by R107, which writes the canonical NaN (R136). -/
def storeElement (f : Nat) (sat : Bool) (x : Word) : List (List Byte) :=
  match f with
  | 0 => [leBytes 4 (convert fp32 sat x)]
  | 1 => [leBytes 4 x.toNat]
  | 2 => [leBytes 2 (bf16.enc sat (bf16.dec (x.toNat % 65536))), leBytes 2 (bf16.enc sat (bf16.dec (x.toNat / 65536)))]
  | 3 => [leBytes 2 (fp16.enc sat (fp16.dec (x.toNat % 65536))), leBytes 2 (fp16.enc sat (fp16.dec (x.toNat / 65536)))]
  | 4 => [leBytes 1 (convert e4m3 sat x)]
  | 5 => [leBytes 1 (convert e5m2 sat x)]
  | _ => [leBytes 1 (BitVec.ofInt 8 (clampInt (-128) 127 x.toInt)).toNat]

/-- Write through a reference for a program: a write that is posted to another module is permitted now and held in the command until its check has
passed (R222). -/
def State.veWriteRef (s : State) (c : Cmd) (ref off : Nat) (bs : List Byte) : State × Option Fail :=
  let h := refHandle ref
  match s.obj c.tenant h, s.cmd? c.id with
  | some o, some d =>
    match s.writeWay o c.tenant h (refOff ref + off) bs.length c.determinism with
    | .post _ => if s.freeing c.id c.tenant h then (s, some boundFault) else (s.setCmd { d with posts := d.posts ++ [(ref, off, bs)] }, none)
    | _ => s.writeRef c.tenant c.ctx c.id ref off bs false c.determinism
  | _, _ => (s, some boundFault)

/-- A store run: each piece is checked, then written in order. -/
def veWrite (c : Cmd) (b : Nat × Nat × Bool × Bool) (row o : Nat) (bs : List Byte) (s : State) : State × Option Fail :=
  if !b.2.2.2 || row % 16 ≠ 0 then (s, some boundFault) else s.veWriteRef c b.1 (row + o) bs

/-- Write pieces until one fails. -/
def veWrites (c : Cmd) (b : Nat × Nat × Bool × Bool) : List (Nat × Nat × List Byte) → State → State × Option Fail
  | [], s => (s, none)
  | (row, o, bs) :: rest, s =>
    match veWrite c b row o bs s with
    | (s1, none) => veWrites c b rest s1
    | (s1, some f) => (s1, some f)

/-- Join pieces (offset, bytes) that meet: a store writes a row's active bytes as runs. -/
def joinPieces : List (Nat × List Byte) → List (Nat × List Byte)
  | [] => []
  | (o, bs) :: rest => match joinPieces rest with
    | (p, cs) :: r => if o + bs.length = p then (o, bs ++ cs) :: r else (o, bs) :: (p, cs) :: r
    | [] => [(o, bs)]

/-- Runs of consecutive numbers of an ascending list: first, count. -/
def runsOf : List Nat → List (Nat × Nat)
  | [] => []
  | j :: rest => match runsOf rest with
    | (k, n) :: r => if j + 1 = k then (j, n + 1) :: r else (j, 1) :: (k, n) :: r
    | [] => [(j, 1)]

/-- STT of a one-tile format. -/
def storeTile (c : Cmd) (w : Dbl) (v : Ve) (s : State) : State × Option Fail :=
  let q := v.pred (mQP w)
  let b := v.bind (mBind w)
  let f := mFmt w
  let part (r k : Nat) : List (Nat × List Byte) := ((List.range 16).filter fun e => on q (16 * r + e)).filterMap fun e =>
    match (elementParts f e)[k]?, (storeElement f (mSat w) ((v.tile (mVD w)).el (16 * r + e)))[k]? with
    | some p, some bs => some (p.1, bs)
    | _, _ => none
  veWrites c b (((List.range 16).filter (activeRow q)).flatMap fun r =>
    (joinPieces (part r 0 ++ part r 1)).map fun p => (rowOffset b (mOffset w v) (rowBytes f) r, p.1, p.2)) s

/-- Replace `wd` bits at bit `o` of bytes. -/
def setBitsAt (bs : List Byte) (o wd code : Nat) : List Byte :=
  let n := leNat bs
  let lo := n % 2 ^ o
  let hi := n / 2 ^ (o + wd)
  leBytes bs.length (lo + (code % 2 ^ wd) * 2 ^ o + hi * 2 ^ (o + wd))

/-- One row of an MX store (R108, R136): runs of active elements and the row's scale byte; inactive values quantise as +0. -/
def storeMxRow (c : Cmd) (w : Dbl) (v : Ve) (r : Nat) (s : State) : State × Option Fail :=
  let q := v.pred (mQP w)
  let b := v.bind (mBind w)
  let f := mFmt w
  let wd := operandBits f
  let val (j : Nat) : Fl := if on q (16 * r + j % 16) then dec32 ((v.tile (mVD w + j / 16)).el (16 * r + j % 16)) else .fin false 0 0
  let qz := mxQuantise f (mSat w) ((List.range 32).map val)
  let row := rowOffset b (mOffset w v) (rowBytes f) r
  let store1 (a : State × Option Fail) (x : Nat × Nat) : State × Option Fail :=
    match a with
    | (s, some e) => (s, some e)
    | (s, none) =>
      let lo := wd * x.1 / 8
      let n := ceilDiv (wd * (x.1 + x.2)) 8 - lo
      let old : Except Fail (List Byte) := if wd * x.1 % 8 = 0 ∧ wd * (x.1 + x.2) % 8 = 0 then .ok (List.replicate n 0)
        else let y := s.readRef c.id c.tenant b.1 (row + lo) n
             match y.fail with
             | some e => .error e
             | none => .ok (s.withPosts c b.1 (row + lo) y.bytes)
      match old with
      | .error e => (s, some e)
      | .ok bs => veWrite c b row lo ((List.range x.2).foldl (fun bs k => setBitsAt bs (wd * (x.1 + k) - 8 * lo) wd (qz.2.getD (x.1 + k) 0)) bs) s
  match (runsOf ((List.range 32).filter fun j => on q (16 * r + j % 16))).foldl store1 (s, none) with
  | (s1, some e) => (s1, some e)
  | (s1, none) =>
    let sb := v.bind (mBsc w)
    if !sb.2.2.2 then (s1, some boundFault)
    else s1.veWriteRef c sb.1 ((v.scalar (mSC w)).toNat + r) (leBytes 1 qz.1)

/-- STT. -/
def doStt (c : Cmd) (w : Dbl) (v : Ve) (s : State) : State × Option Fail :=
  if mxFmt (mFmt w) then
    ((List.range 16).filter (activeRow (v.pred (mQP w)))).foldl (fun a r => match a with
      | (s, some e) => (s, some e)
      | (s, none) => storeMxRow c w v r s) (s, none)
  else storeTile c w v s

/-- LDS: one double at S[SA]. -/
def doLds (s : State) (c : Cmd) (w : Dbl) (v : Ve) : Except Fail Ve :=
  let b := v.bind (mBind w)
  if !b.2.2.1 then .error boundFault
  else (s.veConsume c b.1 (v.scalar (mSA w)).toNat 8).map fun bs => v.setScalar (mVD w % 16) (BitVec.ofNat 64 (leNat bs))

/-- STS. -/
def doSts (c : Cmd) (w : Dbl) (v : Ve) (s : State) : State × Option Fail :=
  let b := v.bind (mBind w)
  if !b.2.2.2 then (s, some boundFault)
  else s.veWriteRef c b.1 (v.scalar (mSA w)).toNat (leBytes 8 (v.scalar (mVD w % 16)).toNat)

/-! ### Softmax (R143) -/

/-- Softmax of one row: the results before conversion, and EMPTY. -/
def softmax (xs : List Word) : List Word × Bool :=
  if xs.any fun x => (dec32 x).isNan then (xs.map fun _ => nan32, false)
  else
    let m := xs.foldl (fun a x => if Fl.lt0 (dec32 a) (dec32 x) then x else a) (xs.headD 0)
    if m = ninf32 then (xs.map fun _ => 0, true)
    else if m = inf32 then
      let r := rcpu (intTo32 (xs.countP (· == inf32)))
      (xs.map fun x => if x = inf32 then r else 0, false)
    else
      let es := xs.map fun x => exp2u (mul32 (sub32 x m) cL2E)
      let q := rcpu ((canonFold add32 17 (es.map some)).getD 0)
      (es.map fun e => mul32 e q, false)

/-- Bytes of a softmax result in FMT (codes 0x0, 0x2–0x5). -/
def smxBytes (f : Nat) (sat : Bool) (y : Word) : List Byte :=
  match f with
  | 2 => leBytes 2 (convert bf16 sat y)
  | 3 => leBytes 2 (convert fp16 sat y)
  | 4 => leBytes 1 (convert e4m3 sat y)
  | 5 => leBytes 1 (convert e5m2 sat y)
  | _ => leBytes 4 y.toNat

/-- Bytes of an output whose place overlaps an input hold free values (R143, log 4): draw `base + i` for byte i. -/
def scramble (base : Nat) (inputs : Ranges) (w : Nat × Nat × List Byte) : Nat × Nat × List Byte :=
  let lo := refOff w.1 + w.2.1
  let hits := inputs.filter fun r => refHandle r.1 = refHandle w.1 ∧ refOff r.1 + r.2.1 < lo + w.2.2.length ∧ lo < refOff r.1 + r.2.1 + r.2.2
  if hits.isEmpty then w
  else (w.1, w.2.1, (List.range w.2.2.length).map fun i =>
    if hits.any fun r => refOff r.1 + r.2.1 ≤ lo + i ∧ lo + i < refOff r.1 + r.2.1 + r.2.2 then Config.freeByte (base + lo + i)
    else w.2.2.getD i 0)

def smxWidth (f : Nat) : Nat := if f = 0 then 4 else if f ≤ 3 then 2 else 1

/-- SMX: rows read, computed and written; every row is read before any is written, and bytes in a forbidden overlap are free. -/
def doSmx (c : Cmd) (w : Dbl) (v : Ve) (s : State) : State × Option Fail × Ve :=
  let l := (v.scalar (mSC w)).toNat
  let src := v.bind (mBind w)
  let dst := v.bind (mBsc w)
  let q := v.pred (mQP w)
  let rows := (List.range 16).filter fun r => on q (16 * r)
  let srcAt (r : Nat) := rowOffset src (v.scalar (mSA w)).toNat (4 * l) r
  let wd := smxWidth (mFmt w)
  let dstAt (r : Nat) := rowOffset dst (v.scalar (mImm w % 16)).toNat (wd * l) r
  if l % 16 ≠ 0 ∨ l < 16 ∨ l > 65536 then (s, some boundFault, v)
  else
    let read := rows.mapM fun r => (veRead s c src (srcAt r) 0 (4 * l)).map fun bs => (r, softmax ((unpack 32 l bs).map (BitVec.ofNat 32)))
    match read with
    | .error f => (s, some f, v)
    | .ok ys =>
      let same := mBind w = mBsc w ∧ srcAt 0 = dstAt 0 ∧ srcAt 1 = dstAt 1 ∧ mFmt w = 0
      let inputs : Ranges := if same then [] else rows.map fun r => (src.1, srcAt r, 4 * l)
      let pieces := ys.map fun y =>
        let p := scramble (s.free * 2 ^ 40) inputs (dst.1, dstAt y.1, y.2.1.flatMap (smxBytes (mFmt w) (mSat w)))
        (dstAt y.1, 0, p.2.2)
      let s1 := { s with free := s.free + 1 }
      match veWrites c dst pieces s1 with
      | (s2, some f) => (s2, some f, v)
      | (s2, none) =>
        (s2, none, v.setPred (mQD w) (mkPred fun i =>
          if i % 16 = 0 then ys.any fun y => y.1 = i / 16 && y.2.2 else on (v.pred (mQD w)) i))

/-! ### Coopers -/

/-- Abandon a Cooper's round: buffers free, its context marked (R150). -/
def State.abandonRound (s : State) (q : Nat) : State :=
  match NMap.get none s.coopers q with
  | none => s
  | some r =>
    ({ s with coopers := NMap.set none s.coopers q none }.setCtx r.tenant r.ctx { s.ctx r.tenant r.ctx with cooperMark := true }).bump
      (aCoop q 0x10) 1

/-- Abandon the rounds a test selects. -/
def State.abandonRounds (s : State) (p : Round → Bool) : State :=
  (List.range 8).foldl (fun s q => match NMap.get none s.coopers q with
    | some r => if p r then s.abandonRound q else s
    | none => s) s

/-- The root of a round whose leaves are all in (R149). -/
def Round.root (r : Round) : Option Tile :=
  let ls := (List.range r.n).map fun j => NMap.get none r.leaves j
  if ls.any (·.isNone) then none
  else some (mkTile fun i =>
    let xs := ls.map fun t => (t.getD Tile.zero).el i
    if r.int then xs.foldl (· + ·) 0 else (canonFold add32 3 (xs.map some)).getD 0)

/-- Tag of CPUT and CGET. -/
def coopTag (w : Dbl) (v : Ve) : Nat := (v.scalar (mSC w)).toNat % 65536

/-- The open round is another one: a CPUT waits. -/
def otherRound (s : State) (q : Nat) (c : Cmd) (tag : Nat) : Bool :=
  match NMap.get none s.coopers q with
  | some r => !(r.tenant = c.tenant && r.ctx = c.ctx && r.tag = tag)
  | none => false

/-- CPUT: leaf j of a round of n (R149, R150). Inactive elements travel as +0. -/
def doCput (q : Nat) (c : Cmd) (w : Dbl) (v : Ve) (s : State) : State :=
  let j := mImm w % 8
  let n := bits (mImm w) 6 3
  let leaf := writeActive Tile.zero (v.pred (mQP w)) true fun i => (v.tile (mVD w)).el i
  let r := (NMap.get none s.coopers q).getD
    { tenant := c.tenant, ctx := c.ctx, tag := coopTag w v, n := n, int := mFmt w = 1, leaves := [], openedAt := s.now }
  if r.n ≠ n ∨ (NMap.get none r.leaves j).isSome then s.abandonRound q
  else { s with coopers := NMap.set none s.coopers q (some { r with leaves := NMap.set none r.leaves j (some leaf) }) }

/-- The root CGET takes, where its round is complete. -/
def cgetRoot (s : State) (q : Nat) (c : Cmd) (w : Dbl) (v : Ve) : Option Tile :=
  match NMap.get none s.coopers q with
  | some r => if r.tenant = c.tenant ∧ r.ctx = c.ctx ∧ r.tag = coopTag w v then r.root else none
  | none => none

/-- A Cooper round has been open for 50 µs (R150). -/
def cooperRoundTimeout (q : Nat) (s : State) : State :=
  match NMap.get none s.coopers q with
  | some r => if q < 8 ∧ s.now ≥ r.openedAt + usec 50 then s.abandonRound q else s
  | none => s

/-- COOPER_ROUND_TIMEOUT. -/
def execCooperRoundTimeout (quarter : Nat) (s : State) : Host.Outcome State Fault Refusal := .next (cooperRoundTimeout quarter s)

end Sys2Proof.Machine
end

