-- ==== Sys2Proof/Machine/Vector.lean ====
section
/-! DEFINITION. The vector engine's instructions as commands (R131, R132): issue, cycle account, and one meaning per instruction. -/
namespace Sys2Proof.Machine

/-! ### Registers an instruction reads and writes, issue cycles and latency (R131, Table 7-3): tiles 0–31, predicates 32–39,
scalars 40–55, stacks 56 -/

def rQ (q : Nat) : List Nat := if q = 0 then [] else [32 + q]
def rS (n : Nat) : List Nat := if n = 0 then [] else [40 + n]

/-- T instructions whose second source is used. -/
def tBinary (op : Nat) : Bool :=
  (1 ≤ op && op ≤ 6) || (0xA ≤ op && op ≤ 0xE) || op = 0x1B || op = 0x20 || (0x28 ≤ op && op ≤ 0x2C) || op = 0x33

def tReads (op : Nat) (w : Dbl) : List Nat :=
  if 0x38 ≤ op then rQ (tQP w) ++ (if op ≤ 0x3A then rQ (tVA w % 8) else []) ++ (if op ≤ 0x39 then rQ (tVB w % 8) else [])
  else if 0x30 ≤ op ∧ op ≤ 0x32 then rQ (tQP w) ++ rS (tVB w % 16)
  else rQ (tQP w) ++ [tVA w] ++ (if tBinary op then (if tBMode w = 3 then rS (tVB w % 16) else [tVB w]) else [])
    ++ (if op = 4 then [tVC w] else []) ++ (if op = 0xE then rQ (tQD w) else [])

def tWrites (op : Nat) (w : Dbl) : List Nat :=
  if 0x38 ≤ op then rQ (tVD w % 8) else if 0xA ≤ op ∧ op ≤ 0xD then rQ (tQD w) else [tVD w]

def topCount (w : Dbl) : Nat := ceilDiv (xKm1 w + 1) 16
def topTiles (w : Dbl) : List Nat := (List.range (2 * topCount w)).map (tVD w + ·)

def xReads (op : Nat) (w : Dbl) : List Nat :=
  (if op = 0x11 ∨ op = 0x12 ∨ op = 0x19 then [] else rQ (xQP w) ++ [tVA w])
    ++ (if (op = 8 ∨ op = 9) ∧ xCin w then [tVB w] else []) ++ (if op = 9 then rQ (xQS w) else [])
    ++ (if op = 2 ∨ op = 3 ∨ op = 0x10 ∨ op = 0x18 then rS (xSX w) else []) ++ (if op / 0x10 = 1 ∧ op < 0x13 then [56] else [])
    ++ (if op = 0x18 then topTiles w else [])

def xWrites (op : Nat) (w : Dbl) : List Nat :=
  if op = 0x10 ∨ op = 0x12 then [56]
  else if op = 0x11 then [tVD w, 56] ++ rQ (xQD w)
  else if op = 0x18 then topTiles w ++ rQ (xQD w)
  else if op = 0x19 then topTiles w
  else [tVD w] ++ (if op = 8 ∨ op = 9 then [] else rQ (xQD w)) ++ (if op = 2 ∨ op = 3 then [tVB w] else [])

def mTiles (w : Dbl) : List Nat := if mxFmt (mFmt w) then [mVD w, mVD w + 1] else [mVD w]
def mReads (op : Nat) (w : Dbl) : List Nat :=
  match op with
  | 0 => rQ (mQP w) ++ rS (mSA w) ++ (if mxFmt (mFmt w) then rS (mSC w) else [])
  | 1 => rQ (mQP w) ++ rS (mSA w) ++ (if mxFmt (mFmt w) then rS (mSC w) else []) ++ mTiles w
  | 2 => rS (mSA w)
  | 3 => rS (mSA w) ++ rS (mVD w % 16)
  | 8 => rQ (mQP w) ++ rS (mSA w) ++ rS (mSC w) ++ rS (mImm w % 16)
  | 0x10 => rQ (mQP w) ++ rS (mSC w) ++ [mVD w]
  | _ => rQ (mQP w) ++ rS (mSC w)
def mWrites (op : Nat) (w : Dbl) : List Nat :=
  match op with
  | 0 => mTiles w
  | 2 => rS (mVD w % 16)
  | 8 => rQ (mQD w)
  | 0x11 => [mVD w]
  | _ => []

def fReads (op : Nat) (w : Dbl) : List Nat :=
  if op = 0x18 then [bits (fImm w) 12 8]
  else if op < 2 ∨ op = 0x10 then []
  else rS (fSA w) ++ (if op = 3 ∨ op = 4 ∨ op = 0x13 then rS (fSB w) else [])
def fWrites (op : Nat) (w : Dbl) : List Nat :=
  if (2 ≤ op ∧ op ≤ 8) ∨ op = 0x18 then rS (fSD w) else if op = 0x14 then rS (fSA w) else []

def veReads (w : Dbl) : List Nat :=
  match veFormat w with
  | 0 => tReads (veOp w) w
  | 1 => xReads (veOp w) w
  | 2 => mReads (veOp w) w
  | _ => fReads (veOp w) w
def veRegWrites (w : Dbl) : List Nat :=
  match veFormat w with
  | 0 => tWrites (veOp w) w
  | 1 => xWrites (veOp w) w
  | 2 => mWrites (veOp w) w
  | _ => fWrites (veOp w) w

/-- Issue cycles (Table 7-3); `taken` for a branch. -/
def veIssue (v : Ve) (w : Dbl) (taken : Bool) : Nat :=
  let op := veOp w
  match veFormat w with
  | 0 => if op = 0x34 then 4 else if 0x38 ≤ op then 1 else 2
  | 1 => if op = 0x11 then 12 else if op = 0x12 then 1 else if op = 0x18 then 2 + 2 * topCount w
         else if op = 0x19 then 2 * topCount w else 2
  | 2 => if op ≤ 1 then (if mxFmt (mFmt w) then 4 else 2) else if op ≤ 3 then 1
         else if op = 8 then 6 * (v.scalar (mSC w)).toNat / 16 + 48 else 2
  | _ => if taken then 3 else 1

/-- Latency (Table 7-3), every line staged. -/
def veLatency (w : Dbl) : Nat :=
  let op := veOp w
  match veFormat w with
  | 0 => if op = 4 then 5 else if 0x10 ≤ op ∧ op ≤ 0x14 then 10 else if 0x19 ≤ op ∧ op ≤ 0x1B then 24
         else if op = 0x34 then 8 else if 0x38 ≤ op then 1 else 4
  | 1 => if op = 9 ∨ op = 0x10 then 10 else if op = 0x11 then 24 else if op = 0x12 then 1
         else if op = 0x18 then 12 + 2 * topCount w else if op = 0x19 then 2 * topCount w else 8
  | 2 => if op = 0 ∨ op = 2 then 12 else 0
  | _ => if op = 0x18 then 4 else 1

/-- Issue one instruction: the program counter moves on, the instruction counts, its start waits for what it reads. Answers
the engine, interlocked cycles and cycles used. -/
def Ve.advance (v : Ve) (w : Dbl) (taken : Bool) : Ve × Nat × Nat :=
  let start := (veReads w).foldl (fun a r => max a (NMap.get 0 v.ready r)) v.cycle
  let n := veIssue v w taken
  ({ v with pc := v.pc + 1, executed := v.executed + 1, cycle := start + n,
            ready := (veRegWrites w).foldl (fun m r => NMap.set 0 m r (max (NMap.get 0 m r) (start + veLatency w))) v.ready },
   start - v.cycle, start - v.cycle + n)

/-- The program running on a core within its run limit (R188, at 2.1 GHz): its engine and command. -/
def State.program (s : State) (core : Nat) : Option (Ve × Cmd) :=
  match (s.core core).ve with
  | some v => match s.cmd? v.cmd with
    | some c => if c.stage = .waiting ∧ c.core = some core ∧ !s.limitReached c ∧ v.cycle ≤ 21 * c.limit then some (v, c) else none
    | none => none
  | none => none

/-- Put the engine's state back. -/
def State.setVe (s : State) (core : Nat) (v : Ve) : State := s.setCore core { s.core core with ve := some v }

/-- The instruction is a reduction, a function-unit operation or a conversion, which the shadow unit repeats (R392): T 0x10–0x14 and
0x19–0x24, X 0x00–0x09, 0x10, 0x11 and 0x18, CGET's and CPUT's partner being the Cooper's, M loads and stores that convert, and SMX. -/
def veSampled (w : Dbl) : Bool :=
  let op := veOp w
  match veFormat w with
  | 0 => (0x10 ≤ op && op ≤ 0x14) || (0x19 ≤ op && op ≤ 0x1B) || (0x20 ≤ op && op ≤ 0x24)
  | 1 => op ≠ 0x12 && op ≠ 0x19
  | 2 => op = 8 || (op ≤ 1 && 2 ≤ mFmt w)
  | _ => false

/-- The instruction that runs waited for staged lines or the Cooper: a free number of cycles (log 4), counted at `ctr` after `base` more. -/
def State.veWaits (s : State) (core : Nat) (v : Ve) (c : Cmd) (ctr base : Nat) : Ve × State :=
  let (n, s1) := s.waited c v.cycle
  ({ v with cycle := v.cycle + n }, (s1.bump (aVE core ctr) (base + n)).bump (aVE core 0x10) n)

/-- Issue the instruction `w` on a core: it must be the one at the program counter, of this format and opcode. `taken` says
whether it branches, `body` acts on the machine after the issue. Where the shadow unit disagrees on a sampled cycle, the core stops instead
(R86, R392). -/
def veStep (fmt op : Nat) (taken : Ve → Bool) (body : Ve → Cmd → State → State) (core : Nat) (w : Dbl) (s : State) : State :=
  match s.program core with
  | none => s
  | some (v, c) =>
    if core < 64 ∧ v.image[v.pc]? = some w ∧ veFormat w = fmt ∧ veOp w = op then
      let a := v.advance w (taken v)
      let s1 := s.setCore core { s.core core with ve := some a.1, vePc := v.pc }
      let s2 := ((s1.bump (aVE core 0x18) 1).bump (aVE core 0x28) a.2.1).bump (aVE core 0x10) a.2.2
      let (bad, s3) := s2.shadow core (if veSampled w then veIssue v w false else 0)
      if bad then s3.disagree c 7 (v.outputs s3 c.tenant) [] else body a.1 c s3
    else s

def never (_ : Ve) : Bool := false

/-- An instruction whose effect lies in the engine alone. -/
def vePure (fmt op : Nat) (f : Dbl → Ve → Ve) (core : Nat) (w : Dbl) (s : State) : State :=
  veStep fmt op never (fun v _ s => s.setVe core (f w v)) core w s

/-- One that may draw free values: `n` draws are counted (log 4). -/
def veOpen (fmt op n : Nat) (f : Nat → Dbl → Ve → Ve) (core : Nat) (w : Dbl) (s : State) : State :=
  veStep fmt op never (fun v _ s => { s.setVe core (f s.free w v) with free := s.free + n }) core w s

/-- End the program's command with a failure (Table 7-13). -/
def veFail (v : Ve) (c : Cmd) (f : Fail) (s : State) : State := s.coreFail c f (v.outputs s c.tenant)

/-- An instruction that touches memory: what a read of it asks for is seen to first, and the instruction issues once it has come. -/
def State.veReading (s : State) (core : Nat) (step : State → State) : State :=
  match s.program core with
  | some (_, c) => reading (fun s _ => step s) s c
  | none => s

/-- An instruction that reads memory into registers; how long it waits for staged lines is free (VE_STALL_MEM). -/
def veLoad (op : Nat) (f : State → Cmd → Dbl → Ve → Except Fail Ve) (core : Nat) (w : Dbl) (s : State) : State :=
  s.veReading core (veStep 2 op never (fun v c s =>
    let (v, s) := s.veWaits core v c 0x20 0
    match f s c w v with
    | .ok v1 => s.setVe core v1
    | .error e => veFail v c e s) core w)

/-- An instruction that stores. -/
def veStore (op : Nat) (f : Cmd → Dbl → Ve → State → State × Option Fail) (core : Nat) (w : Dbl) (s : State) : State :=
  s.veReading core (veStep 2 op never (fun v c s => match f c w v s with
    | (s1, none) => s1
    | (s1, some e) => veFail v c e s1) core w)

/-- A branch: to IMM where `p` holds (Table 7-2d). -/
def veBranch (op : Nat) (p : Dbl → Ve → Bool) (core : Nat) (w : Dbl) (s : State) : State :=
  veStep 3 op (p w) (fun v _ s => s.setVe core (if p w v then { v with pc := fImm w % 8192 } else v)) core w s

/-! ### One meaning per instruction -/


/-- ADD. -/
def execVeAdd (core : Nat) (w : Dbl) (s : State) : Host.Outcome State Fault Refusal := .next (vePure 0 0x01 tAdd core w s)

/-- SUB. -/
def execVeSub (core : Nat) (w : Dbl) (s : State) : Host.Outcome State Fault Refusal := .next (vePure 0 0x02 tSub core w s)

/-- MUL. -/
def execVeMul (core : Nat) (w : Dbl) (s : State) : Host.Outcome State Fault Refusal := .next (vePure 0 0x03 tMul core w s)

/-- FMA. -/
def execVeFma (core : Nat) (w : Dbl) (s : State) : Host.Outcome State Fault Refusal := .next (vePure 0 0x04 tFma core w s)

/-- MIN. -/
def execVeMin (core : Nat) (w : Dbl) (s : State) : Host.Outcome State Fault Refusal := .next (vePure 0 0x05 tMin core w s)

/-- MAX. -/
def execVeMax (core : Nat) (w : Dbl) (s : State) : Host.Outcome State Fault Refusal := .next (vePure 0 0x06 tMax core w s)

/-- SEL. -/
def execVeSel (core : Nat) (w : Dbl) (s : State) : Host.Outcome State Fault Refusal := .next (vePure 0 0x0E tSel core w s)

/-- EXP2. -/
def execVeExp2 (core : Nat) (w : Dbl) (s : State) : Host.Outcome State Fault Refusal := .next (vePure 0 0x10 tExp2 core w s)

/-- LOG2. -/
def execVeLog2 (core : Nat) (w : Dbl) (s : State) : Host.Outcome State Fault Refusal := .next (vePure 0 0x11 tLog2 core w s)

/-- RCP. -/
def execVeRcp (core : Nat) (w : Dbl) (s : State) : Host.Outcome State Fault Refusal := .next (vePure 0 0x12 tRcp core w s)

/-- RSQ. -/
def execVeRsq (core : Nat) (w : Dbl) (s : State) : Host.Outcome State Fault Refusal := .next (vePure 0 0x13 tRsq core w s)

/-- TANH. -/
def execVeTanh (core : Nat) (w : Dbl) (s : State) : Host.Outcome State Fault Refusal := .next (vePure 0 0x14 tTanh core w s)

/-- RELU. -/
def execVeRelu (core : Nat) (w : Dbl) (s : State) : Host.Outcome State Fault Refusal := .next (vePure 0 0x18 tRelu core w s)

/-- GELU. -/
def execVeGelu (core : Nat) (w : Dbl) (s : State) : Host.Outcome State Fault Refusal := .next (vePure 0 0x19 tGelu core w s)

/-- SILU. -/
def execVeSilu (core : Nat) (w : Dbl) (s : State) : Host.Outcome State Fault Refusal := .next (vePure 0 0x1A tSilu core w s)

/-- SWIGLU. -/
def execVeSwiglu (core : Nat) (w : Dbl) (s : State) : Host.Outcome State Fault Refusal := .next (vePure 0 0x1B tSwiglu core w s)

/-- CVTN. -/
def execVeCvtn (core : Nat) (w : Dbl) (s : State) : Host.Outcome State Fault Refusal := .next (vePure 0 0x20 tCvtn core w s)

/-- CVTWL. -/
def execVeCvtwl (core : Nat) (w : Dbl) (s : State) : Host.Outcome State Fault Refusal := .next (vePure 0 0x21 tCvtwl core w s)

/-- CVTWH. -/
def execVeCvtwh (core : Nat) (w : Dbl) (s : State) : Host.Outcome State Fault Refusal := .next (vePure 0 0x22 tCvtwh core w s)

/-- CVTFI. -/
def execVeCvtfi (core : Nat) (w : Dbl) (s : State) : Host.Outcome State Fault Refusal := .next (vePure 0 0x23 tCvtfi core w s)

/-- CVTIF. -/
def execVeCvtif (core : Nat) (w : Dbl) (s : State) : Host.Outcome State Fault Refusal := .next (vePure 0 0x24 tCvtif core w s)

/-- AND. -/
def execVeAnd (core : Nat) (w : Dbl) (s : State) : Host.Outcome State Fault Refusal := .next (vePure 0 0x28 tAnd core w s)

/-- OR. -/
def execVeOr (core : Nat) (w : Dbl) (s : State) : Host.Outcome State Fault Refusal := .next (vePure 0 0x29 tOr core w s)

/-- XOR. -/
def execVeXor (core : Nat) (w : Dbl) (s : State) : Host.Outcome State Fault Refusal := .next (vePure 0 0x2A tXor core w s)

/-- SHL. -/
def execVeShl (core : Nat) (w : Dbl) (s : State) : Host.Outcome State Fault Refusal := .next (vePure 0 0x2B tShl core w s)

/-- SHRA. -/
def execVeShra (core : Nat) (w : Dbl) (s : State) : Host.Outcome State Fault Refusal := .next (vePure 0 0x2C tShra core w s)

/-- MOVS. -/
def execVeMovs (core : Nat) (w : Dbl) (s : State) : Host.Outcome State Fault Refusal := .next (vePure 0 0x30 tMovs core w s)

/-- IOTAC. -/
def execVeIotac (core : Nat) (w : Dbl) (s : State) : Host.Outcome State Fault Refusal := .next (vePure 0 0x31 tIotac core w s)

/-- IOTAR. -/
def execVeIotar (core : Nat) (w : Dbl) (s : State) : Host.Outcome State Fault Refusal := .next (vePure 0 0x32 tIotar core w s)

/-- SHC1. -/
def execVeShc1 (core : Nat) (w : Dbl) (s : State) : Host.Outcome State Fault Refusal := .next (vePure 0 0x33 tShc1 core w s)

/-- TRN. -/
def execVeTrn (core : Nat) (w : Dbl) (s : State) : Host.Outcome State Fault Refusal := .next (vePure 0 0x34 tTrn core w s)

/-- PAND. -/
def execVePand (core : Nat) (w : Dbl) (s : State) : Host.Outcome State Fault Refusal := .next (vePure 0 0x38 tPand core w s)

/-- POR. -/
def execVePor (core : Nat) (w : Dbl) (s : State) : Host.Outcome State Fault Refusal := .next (vePure 0 0x39 tPor core w s)

/-- PNOT. -/
def execVePnot (core : Nat) (w : Dbl) (s : State) : Host.Outcome State Fault Refusal := .next (vePure 0 0x3A tPnot core w s)

/-- PSET. -/
def execVePset (core : Nat) (w : Dbl) (s : State) : Host.Outcome State Fault Refusal := .next (vePure 0 0x3B tPset core w s)

/-- PCLR. -/
def execVePclr (core : Nat) (w : Dbl) (s : State) : Host.Outcome State Fault Refusal := .next (vePure 0 0x3C tPclr core w s)

/-- ABS. -/
def execVeAbs (core : Nat) (w : Dbl) (s : State) : Host.Outcome State Fault Refusal := .next (veOpen 0 0x08 256 tAbs core w s)

/-- NEG. -/
def execVeNeg (core : Nat) (w : Dbl) (s : State) : Host.Outcome State Fault Refusal := .next (veOpen 0 0x09 256 tNeg core w s)

/-- CMPEQ. -/
def execVeCmpeq (core : Nat) (w : Dbl) (s : State) : Host.Outcome State Fault Refusal := .next (veOpen 0 0x0A 256 tCmpeq core w s)

/-- CMPLT. -/
def execVeCmplt (core : Nat) (w : Dbl) (s : State) : Host.Outcome State Fault Refusal := .next (veOpen 0 0x0B 256 tCmplt core w s)

/-- CMPLE. -/
def execVeCmple (core : Nat) (w : Dbl) (s : State) : Host.Outcome State Fault Refusal := .next (veOpen 0 0x0C 256 tCmple core w s)

/-- CMPUN. -/
def execVeCmpun (core : Nat) (w : Dbl) (s : State) : Host.Outcome State Fault Refusal := .next (veOpen 0 0x0D 256 tCmpun core w s)

/-- RSUM. -/
def execVeRsum (core : Nat) (w : Dbl) (s : State) : Host.Outcome State Fault Refusal := .next (vePure 1 0x00 xRsum core w s)

/-- RPROD. -/
def execVeRprod (core : Nat) (w : Dbl) (s : State) : Host.Outcome State Fault Refusal := .next (vePure 1 0x01 xRprod core w s)

/-- RMAX. -/
def execVeRmax (core : Nat) (w : Dbl) (s : State) : Host.Outcome State Fault Refusal := .next (vePure 1 0x02 xRmax core w s)

/-- RMIN. -/
def execVeRmin (core : Nat) (w : Dbl) (s : State) : Host.Outcome State Fault Refusal := .next (vePure 1 0x03 xRmin core w s)

/-- RCNT. -/
def execVeRcnt (core : Nat) (w : Dbl) (s : State) : Host.Outcome State Fault Refusal := .next (vePure 1 0x04 xRcnt core w s)

/-- RMEAN. -/
def execVeRmean (core : Nat) (w : Dbl) (s : State) : Host.Outcome State Fault Refusal := .next (vePure 1 0x05 xRmean core w s)

/-- SCAN. -/
def execVeScan (core : Nat) (w : Dbl) (s : State) : Host.Outcome State Fault Refusal := .next (vePure 1 0x08 xScan core w s)

/-- SSCAN. -/
def execVeSscan (core : Nat) (w : Dbl) (s : State) : Host.Outcome State Fault Refusal := .next (vePure 1 0x09 xSscan core w s)

/-- CSPUSH. -/
def execVeCspush (core : Nat) (w : Dbl) (s : State) : Host.Outcome State Fault Refusal := .next (vePure 1 0x10 xCspush core w s)

/-- CSFIN. -/
def execVeCsfin (core : Nat) (w : Dbl) (s : State) : Host.Outcome State Fault Refusal := .next (vePure 1 0x11 xCsfin core w s)

/-- CSCLR. -/
def execVeCsclr (core : Nat) (w : Dbl) (s : State) : Host.Outcome State Fault Refusal := .next (vePure 1 0x12 xCsclr core w s)

/-- TOPK. -/
def execVeTopk (core : Nat) (w : Dbl) (s : State) : Host.Outcome State Fault Refusal := .next (vePure 1 0x18 xTopk core w s)

/-- TOPKCLR. -/
def execVeTopkclr (core : Nat) (w : Dbl) (s : State) : Host.Outcome State Fault Refusal := .next (vePure 1 0x19 xTopkclr core w s)

/-- LDT. -/
def execVeLdt (core : Nat) (w : Dbl) (s : State) : Host.Outcome State Fault Refusal := .next (veLoad 0x00 doLdt core w s)

/-- STT. -/
def execVeStt (core : Nat) (w : Dbl) (s : State) : Host.Outcome State Fault Refusal := .next (veStore 0x01 doStt core w s)

/-- LDS. -/
def execVeLds (core : Nat) (w : Dbl) (s : State) : Host.Outcome State Fault Refusal := .next (veLoad 0x02 doLds core w s)

/-- STS. -/
def execVeSts (core : Nat) (w : Dbl) (s : State) : Host.Outcome State Fault Refusal := .next (veStore 0x03 doSts core w s)


/-- SMX. -/
def veSmx (core : Nat) (w : Dbl) (s : State) : State :=
  s.veReading core (veStep 2 0x08 never (fun v c s =>
    let (v, s) := s.veWaits core v c 0x20 0
    match doSmx c w v s with
    | (s1, none, v1) => s1.setVe core v1
    | (s1, some e, _) => veFail v c e s1) core w)

/-- SMX. -/
def execVeSmx (core : Nat) (w : Dbl) (s : State) : Host.Outcome State Fault Refusal := .next (veSmx core w s)

/-- CPUT: a bound fault for tenant 0 (R151); it waits while another round is open (R150). -/
def veCput (core : Nat) (w : Dbl) (s : State) : State :=
  let waits : Bool := match s.program core with
    | some (v, c) => c.tenant ≠ 0 && otherRound s (core / 8) c (coopTag w v)
    | none => false
  if waits then s
  else veStep 2 0x10 never (fun v c s =>
    if c.tenant = 0 then veFail v c boundFault s
    else
      let (v, s) := s.veWaits core v c 0x38 2
      doCput (core / 8) c w v (s.setVe core v)) core w s

/-- CPUT. -/
def execVeCput (core : Nat) (w : Dbl) (s : State) : Host.Outcome State Fault Refusal := .next (veCput core w s)

/-- CGET: POISON_CONSUMED 0x11 where its context is marked, the root where its round is complete, else it waits (R149, R150). -/
def veCget (core : Nat) (w : Dbl) (s : State) : State :=
  let q := core / 8
  let waits : Bool := match s.program core with
    | some (v, c) => c.tenant ≠ 0 && !(s.ctx c.tenant c.ctx).cooperMark && (cgetRoot s q c w v).isNone
    | none => false
  if waits then s
  else veStep 2 0x11 never (fun v c s =>
    let (v, s) := if c.tenant = 0 then (v, s) else s.veWaits core v c 0x38 2
    if c.tenant = 0 then veFail v c boundFault s
    else if (s.ctx c.tenant c.ctx).cooperMark then
      veFail v c (stPoison, [0x11]) (s.setCtx c.tenant c.ctx { s.ctx c.tenant c.ctx with cooperMark := false })
    else match cgetRoot s q c w v with
      | none => s
      | some t =>
        let v1 := v.setTile (mVD w) (writeActive (v.tile (mVD w)) (v.pred (mQP w)) false fun i => t.el i)
        ({ s with coopers := NMap.set none s.coopers q none }.bump (aCoop q 0x08) 1).setVe core v1) core w s

/-- CGET. -/
def execVeCget (core : Nat) (w : Dbl) (s : State) : Host.Outcome State Fault Refusal := .next (veCget core w s)

/-- The program ends: instructions executed and S1 (R148); its writes to other modules go out now (R222). -/
def veFinish (v : Ve) (c : Cmd) (s : State) : State :=
  s.coreEnd c { result := leBytes 8 v.executed ++ leBytes 8 (v.scalar 1).toNat, writes := c.posts } (v.outputs s c.tenant) id id

/-- END, and execution past the last instruction, which acts as END (R132). -/
def veEnd (core : Nat) (w : Dbl) (s : State) : State :=
  s.veReading core fun s => match s.program core with
    | some (v, c) =>
      if v.image.length ≤ v.pc then veFinish v c s
      else veStep 3 0x00 never (fun v c s => veFinish v c s) core w s
    | none => s

/-- END. -/
def execVeEnd (core : Nat) (w : Dbl) (s : State) : Host.Outcome State Fault Refusal := .next (veEnd core w s)


/-- NOP of format F. -/
def execVeNop (core : Nat) (w : Dbl) (s : State) : Host.Outcome State Fault Refusal := .next (vePure 3 0x01 (fun _ v => v) core w s)

/-- ADDI. -/
def execVeAddi (core : Nat) (w : Dbl) (s : State) : Host.Outcome State Fault Refusal := .next (vePure 3 0x02 sAddi core w s)

/-- ADD of format F. -/
def execVeAddScalar (core : Nat) (w : Dbl) (s : State) : Host.Outcome State Fault Refusal := .next (vePure 3 0x03 sAdd core w s)

/-- SUB of format F. -/
def execVeSubScalar (core : Nat) (w : Dbl) (s : State) : Host.Outcome State Fault Refusal := .next (vePure 3 0x04 sSub core w s)

/-- MULI. -/
def execVeMuli (core : Nat) (w : Dbl) (s : State) : Host.Outcome State Fault Refusal := .next (vePure 3 0x05 sMuli core w s)

/-- SHLI. -/
def execVeShli (core : Nat) (w : Dbl) (s : State) : Host.Outcome State Fault Refusal := .next (veOpen 3 0x06 2 sShli core w s)

/-- SHRI. -/
def execVeShri (core : Nat) (w : Dbl) (s : State) : Host.Outcome State Fault Refusal := .next (veOpen 3 0x07 2 sShri core w s)

/-- ANDI. -/
def execVeAndi (core : Nat) (w : Dbl) (s : State) : Host.Outcome State Fault Refusal := .next (vePure 3 0x08 sAndi core w s)

/-- BR. -/
def execVeBr (core : Nat) (w : Dbl) (s : State) : Host.Outcome State Fault Refusal := .next (veBranch 0x10 (fun _ _ => true) core w s)

/-- BEQZ. -/
def execVeBeqz (core : Nat) (w : Dbl) (s : State) : Host.Outcome State Fault Refusal := .next (veBranch 0x11 (fun w v => v.scalar (fSA w) == 0) core w s)

/-- BNEZ. -/
def execVeBnez (core : Nat) (w : Dbl) (s : State) : Host.Outcome State Fault Refusal := .next (veBranch 0x12 (fun w v => v.scalar (fSA w) != 0) core w s)

/-- BLT: S[SA] below S[SB] as signed doubles. -/
def execVeBlt (core : Nat) (w : Dbl) (s : State) : Host.Outcome State Fault Refusal := .next (veBranch 0x13 (fun w v => decide ((v.scalar (fSA w)).toInt < (v.scalar (fSB w)).toInt)) core w s)


/-- LOOP: S[SA] is decremented and the branch taken where the result is not zero. -/
def veLoop (core : Nat) (w : Dbl) (s : State) : State :=
  veStep 3 0x14 (fun v => v.scalar (fSA w) - 1 != 0) (fun v _ s =>
    let x := v.scalar (fSA w) - 1
    let v1 := v.setScalar (fSA w) x
    s.setVe core (if x = 0 then v1 else { v1 with pc := fImm w % 8192 })) core w s

/-- LOOP. -/
def execVeLoop (core : Nat) (w : Dbl) (s : State) : Host.Outcome State Fault Refusal := .next (veLoop core w s)


/-- MVSV. -/
def execVeMvsv (core : Nat) (w : Dbl) (s : State) : Host.Outcome State Fault Refusal := .next (vePure 3 0x18 sMvsv core w s)


/-! ### Programs (R144–R147) -/

def resvVectorLoad (_ : State) (c : Cmd) : Bool := refOk (c.p 0 8) && c.p 12 1 < 64 && zeroAt c.params 13 3

/-- Charge of a program image, whole 4 KiB blocks. -/
def imageCharge (words : Nat) : Nat := roundUp (8 * words) 4096

/-- The image a handle holds. -/
def Tenant.image (t : Tenant) (h : Nat) : List Dbl := NMap.get [] t.programs h

/-- Table 7-11 checks 1 and 2, then R154's limit for a new program object (DEDUCED, log 124: with Table 8-10's reason). -/
def checkVectorLoad (s : State) (c : Cmd) : Option Fail :=
  let t := s.tenant c.tenant
  let n := c.p 8 4
  firstFail
    [ need (n % 8 = 0 && 8 ≤ n && n ≤ 65536) stShape 0x20,
      need (t.held - imageCharge (t.image (c.p 12 1)).length + imageCharge (n / 8) ≤ t.quota * 2 ^ 20) stNoResources 1,
      need (!(t.image (c.p 12 1)).isEmpty || t.objects < 16384) stNoResources 2 ]

/-- Reserved fields of an instruction are zero (Tables 7-2a to 7-2d). -/
def veReserved (w : Dbl) : Bool :=
  let op := veOp w
  match veFormat w with
  | 0 => w.toNat % 2 ^ 18 = 0 && (0x20 ≤ op && op ≤ 0x24 || tSrc w = 0)
  | 1 => w.toNat % 2 ^ 10 = 0
  | 2 => if op ≤ 1 then true else if op = 8 then mImm w < 16 else if op = 0x10 then mImm w < 128 else mImm w = 0
  | _ => bits w.toNat 43 32 = 0 && (op ≠ 0x18 || fImm w < 8192)

/-- The OP is defined for its format and TYPE, a conversion for its source TYPE too (Tables 7-2a, 7-3): SRC names FP32 for CVTN and CVTFI, a
pair for CVTWL and CVTWH, INT32 for CVTIF. -/
def veDefined (w : Dbl) : Bool :=
  let op := veOp w
  let ty := veType w
  let pairTo := ty = 2 || ty = 3
  match veFormat w with
  | 0 => ty < 4 &&
    (if op = 4 ∨ op = 0x18 then ty ≠ 1
     else if (1 ≤ op ∧ op ≤ 6) ∨ (8 ≤ op ∧ op ≤ 0xE) then true
     else if (0x10 ≤ op ∧ op ≤ 0x14) ∨ (0x19 ≤ op ∧ op ≤ 0x1B) then ty = 0
     else if op = 0x20 then pairTo && tSrc w = 0
     else if op = 0x21 ∨ op = 0x22 then tSrc w = 2 || tSrc w = 3
     else if op = 0x23 then tSrc w = 0
     else if op = 0x24 then tSrc w = 1
     else if (0x28 ≤ op ∧ op ≤ 0x2C) ∨ op = 0x31 ∨ op = 0x32 then ty = 1
     else if op = 0x30 ∨ op = 0x33 then true
     else if op = 0x34 then ty ≤ 1
     else 0x38 ≤ op && op ≤ 0x3C)
  | 1 =>
    if op = 0 ∨ op = 2 ∨ op = 3 ∨ op = 4 ∨ op = 8 ∨ op = 9 ∨ op = 0x10 then ty ≤ 1
    else (op = 1 || op = 5 || op = 0x11 || op = 0x12 || op = 0x18 || op = 0x19) && ty = 0
  | 2 => op ≤ 3 || op = 8 || op = 0x10 || op = 0x11
  | _ => op ≤ 8 || (0x10 ≤ op && op ≤ 0x14) || op = 0x18

/-- Operand limits (Table 7-11 check 6), for an image of `count` instructions. -/
def veLimits (count : Nat) (w : Dbl) : Bool :=
  let op := veOp w
  match veFormat w with
  | 0 => true
  | 1 => if op = 0x18 ∨ op = 0x19 then tVD w + 2 * topCount w ≤ 32 && !xDir w else op ≠ 0x10 || veType w = 0
  | 2 =>
    if op ≤ 1 then mFmt w ≠ 7 && mFmt w < 0xE && (!mxFmt (mFmt w) || mVD w % 2 = 0)
    else if op = 8 then mFmt w = 0 || (2 ≤ mFmt w && mFmt w ≤ 5)
    else if op = 0x10 then mFmt w ≤ 1 && 2 ≤ bits (mImm w) 6 3 && bits (mImm w) 6 3 ≤ 8 && mImm w % 8 < bits (mImm w) 6 3
    else op ≠ 0x11 || mFmt w ≤ 1
  | _ => !(0x10 ≤ op && op ≤ 0x14) || fImm w < count

/-- Index of the first instruction that fails a test. -/
def firstBad (p : Dbl → Bool) (image : List Dbl) : Option Nat := (List.range image.length).find? fun i => !p (image.getD i 0)

/-- Checks 4 to 6 over an image. -/
def imageCheck (image : List Dbl) : Option Fail :=
  let at_ (i reason status : Nat) : Fail := (status, leBytes 1 reason ++ [0, 0, 0] ++ leBytes 4 i)
  match firstBad veReserved image with
  | some i => some (at_ i 1 stReserved)
  | none => match firstBad veDefined image with
    | some i => some (at_ i 0x21 stShape)
    | none => (firstBad (veLimits image.length) image).map fun i => at_ i 0x22 stShape

/-- The doubles of bytes. -/
def doubles (bs : List Byte) : List Dbl := (List.range (bs.length / 8)).map fun i => BitVec.ofNat 64 (fieldAt bs (8 * i) 8)

/-- VECTOR_LOAD (R144, R145). -/
def runVectorLoad (s : State) (c : Cmd) : State :=
  match s.consume c.id c.tenant (c.p 0 8) 0 (c.p 8 4) with
  | .error f => s.fail c.id f.1 f.2
  | .ok bs =>
    let image := doubles bs
    match imageCheck image with
    | some f => s.finish c.id f.1 f.2
    | none =>
      let t := s.tenant c.tenant
      let h := c.p 12 1
      (s.setTenant c.tenant { t with
        programs := NMap.set [] t.programs h image
        programCharge := t.programCharge - imageCharge (t.image h).length + imageCharge image.length }).ok c.id (leBytes 4 image.length)

/-- VECTOR_LOAD. -/
def execOpVectorLoad (id : Nat) (s : State) : Host.Outcome State Fault Refusal :=
  .next (runCoreless 0x2003 checkVectorLoad (reading runVectorLoad) id s)

/-- Binding fields of VECTOR_RUN (Table 7-12). -/
def Cmd.vrRef (c : Cmd) (b : Nat) : Nat := c.p (80 + 16 * b) 8
def Cmd.vrStride (c : Cmd) (b : Nat) : Nat := c.p (88 + 16 * b) 4
def Cmd.vrAccess (c : Cmd) (b : Nat) : Nat := c.p (92 + 16 * b) 1

def resvVectorRun (s : State) (c : Cmd) : Bool :=
  c.p 0 1 < 64 && c.p 1 1 = 0 && s.maskLegal (c.p 8 8)
    && (List.range 8).all fun b => refOk (c.vrRef b) && c.vrAccess b < 4 && zeroAt c.params (93 + 16 * b) 3

/-- R147, then placement (R185). -/
def checkVectorRun (s : State) (c : Cmd) : Option Fail :=
  let image := (s.tenant c.tenant).image (c.p 0 1)
  firstFail
    [ need (!image.isEmpty) stShape 0x24,
      need (c.p 2 2 < image.length) stShape 0x25,
      need ((List.range 8).all fun b => if c.vrRef b = 0 then c.vrStride b = 0 && c.vrAccess b = 0
        else c.vrStride b % 16 = 0 && c.vrAccess b ≠ 0) stShape 0x23,
      need (s.coreCheck c) stNoResources 1 ]
  <|> s.placeCheck c

/-- Start values (Table 7-1). -/
def Ve.start (c : Cmd) (image : List Dbl) : Ve :=
  { image := image, tiles := Vector.replicate 32 Tile.zero, preds := Vector.replicate 8 (BitVec.allOnes 256),
    scalars := Vector.ofFn fun i : Fin 16 => if i.val < 8 then 0 else BitVec.ofNat 64 (c.p (16 + 8 * (i.val - 8)) 8),
    cstacks := Vector.replicate 16 [], lastPush := Vector.replicate 16 none, pc := c.p 2 2,
    binds := (List.range 8).map fun b => (c.vrRef b, c.vrStride b, (c.vrAccess b).testBit 0, (c.vrAccess b).testBit 1),
    executed := 0, cmd := c.id, handle := c.p 0 1, cycle := 0, ready := [] }

/-- VECTOR_RUN on its core: the engine takes its start values, and the image current when the command started (R128, R144). -/
def runVectorRun (s : State) (c : Cmd) : State :=
  let k := c.core.getD 0
  (s.setCore k { s.core k with ve := some (Ve.start c c.image) }).await c.id

/-- VECTOR_RUN. -/
def execOpVectorRun (id : Nat) (s : State) : Host.Outcome State Fault Refusal := .next (runCore 0x2002 runVectorRun id s)

/-- Outputs of a VECTOR_RUN from its bindings (R148). -/
def vectorOutputs (s : State) (c : Cmd) : Ranges := (Ve.start c []).outputs s c.tenant

end Sys2Proof.Machine
end

