-- ==== Sys2Proof/Machine/Sampling.lean ====
section
/-! DEFINITION. Rowan (R414), sampling of one logit row (R207) and SAMPLE (R208). -/
namespace Sys2Proof.Machine

/-! ### Rowan -/

def mix (z : Dbl) : Dbl :=
  let a := (z ^^^ (z >>> 30)) * 0xBF58476D1CE4E5B9
  let b := (a ^^^ (a >>> 27)) * 0x94D049BB133111EB
  b ^^^ (b >>> 31)

/-- Rowan of the key (seed, step, stream, index). -/
def rowan (seed step : Dbl) (stream index : Nat) : Dbl :=
  let a := mix (seed + 0x9E3779B97F4A7C15)
  let b := mix (a ^^^ step)
  let c := mix (b + BitVec.ofNat 64 (stream * 2 ^ 32 + index))
  mix (c ^^^ 0x5851F42D4C957F2D)

/-- The draw u of an output: bits 63:40 times 2⁻²⁴, exact in FP32. -/
def drawOf (r : Dbl) : Word := enc32 (.fin false (bits r.toNat 63 40) (-24))

/-! ### Sampling of one row (R207) -/

/-- What sampling a row gives: a NaN row, a token, or no stated result (a comparison meets a NaN that the temperature made). -/
inductive Sampled
  | nan
  | token (v : Nat)
  | unstated
  deriving DecidableEq, Repr

/-- FP32 comparison a ≥ b (a > b); false with a NaN. -/
def ge32 (a b : Word) : Bool := !(dec32 a).isNan && !(dec32 b).isNan && Fl.cmp (dec32 a) (dec32 b) ≥ 0
def gt32 (a b : Word) : Bool := !(dec32 a).isNan && !(dec32 b).isNan && Fl.cmp (dec32 a) (dec32 b) > 0

/-- The elements of a row with their indices. -/
def indexed (xs : List Word) : List (Word × Word) := (List.range xs.length).map fun i => (xs.getD i 0, BitVec.ofNat 32 i)

/-- Running sums from the left, each rounded. -/
def prefixSums : Word → List Word → List Word
  | _, [] => []
  | a, x :: xs => let b := add32 a x; b :: prefixSums b xs

/-- Candidates' weights (R207). -/
def weights (cs : List Word) : List Word :=
  let c0 := cs.headD 0
  if c0 = inf32 then cs.map fun c => if c = inf32 then one32 else 0
  else cs.map fun c => exp2u (mul32 (sub32 c c0) cL2E)

/-- The token among ranked candidates for the draw u. -/
def pickToken (cand : List (Word × Word)) (topP u : Word) : Sampled :=
  let e := weights (cand.map Prod.fst)
  let p := e.headD 0 :: prefixSums (e.headD 0) (e.drop 1)
  let last := p.getD (p.length - 1) 0
  match (List.range p.length).find? fun j => ge32 (p.getD j 0) (mul32 topP last) with
  | none => .unstated
  | some j =>
    let n := j + 1
    let t := mul32 u (p.getD (n - 1) 0)
    let at_ := ((List.range n).find? fun j => gt32 (p.getD j 0) t).getD (n - 1)
    .token (cand.getD at_ (0, 0)).2.toNat

/-- R207 for one row. -/
def sampleRow (xs : List Word) (temperature topP : Word) (topK : Nat) (u : Word) : Sampled :=
  if xs.any fun x => (dec32 x).isNan then .nan
  else if (dec32 temperature).isZero then .token ((mergeTop 1 [] (indexed xs)).headD (0, 0)).2.toNat
  else
    let it := rcpu temperature
    let k := min (if topK = 0 then 64 else topK) xs.length
    let cand := mergeTop k [] (indexed (xs.map fun x => mul32 x it))
    if (cand.headD (0, 0)).1 = ninf32 then .token (cand.headD (0, 0)).2.toNat else pickToken cand topP u

/-- A temperature and top-p that sampling takes: finite and ≥ 0; in (0, 1] (R204 check 3). -/
def temperatureOk (w : Word) : Bool := (dec32 w).isFin && (!(dec32 w).sign || (dec32 w).isZero)
def topPOk (w : Word) : Bool := (dec32 w).isFin && Fl.cmp (dec32 w) (.fin false 0 0) > 0 && Fl.cmp (dec32 w) (.fin false 1 0) ≤ 0

/-! ### SAMPLE (R208) -/

namespace Cmd

def smRows (c : Cmd) : Nat := c.p 16 4
def smV (c : Cmd) : Nat := c.p 20 4
def smSeed (c : Cmd) : Dbl := BitVec.ofNat 64 (c.p 24 8)
def smTemp (c : Cmd) : Word := BitVec.ofNat 32 (c.p 32 4)
def smTopP (c : Cmd) : Word := BitVec.ofNat 32 (c.p 36 4)

end Cmd

/-- Reserved fields of SAMPLE (Table 9-9); a top-k above 64 is a value the table does not define. -/
def resvSample (_ : State) (c : Cmd) : Bool :=
  refOk (c.p 0 8) && refOk (c.p 8 8) && refOk (c.p 48 8) && c.p 40 1 ≤ 64 && zeroAt c.params 41 7 && zeroAt c.params 56 8

/-- Checks of SAMPLE, then placement (R185). -/
def checkSample (s : State) (c : Cmd) : Option Fail :=
  firstFail
    [ need (1 ≤ c.smRows && c.smRows ≤ 4096 && c.smV % 16 = 0 && 16 ≤ c.smV && c.smV ≤ 262144) stShape 0x50,
      need (temperatureOk c.smTemp && topPOk c.smTopP) stShape 0x51 ]
  <|> s.placeCheck c

/-- Rows a row mask leaves (R80, R109): rows 0 … n − 1 whose bit is 0, as reader `rd` sees them. -/
def State.openRows (s : State) (rd t ref n : Nat) : Except Fail (List Nat) :=
  if ref = 0 then .ok (List.range n)
  else (s.consume rd t ref 0 (ceilDiv n 8)).map fun bs => (List.range n).filter fun i => streamBits bs i 1 = 0

/-- FP32 words of a byte list. -/
def wordsOf (bs : List Byte) : List Word := (List.range (bs.length / 4)).map fun i => BitVec.ofNat 32 (fieldAt bs (4 * i) 4)

/-- Output words of a SAMPLE: one per unmasked row, every row where the mask cannot be read. -/
def sampleOutputs (s : State) (c : Cmd) : Ranges :=
  match s.openRows c.id c.tenant (c.p 48 8) c.smRows with
  | .ok rows => rows.map fun i => (c.p 8 8, 4 * i, 4)
  | .error _ => [(c.p 8 8, 0, 4 * c.smRows)]

/-- The word a row's sampling writes; a draw the spec states no result for is a free value (log 4). -/
def sampleWord (s : State) (c : Cmd) (i : Nat) (bs : List Byte) : Nat :=
  match sampleRow (wordsOf bs) c.smTemp c.smTopP (c.p 40 1) (drawOf (rowan c.smSeed c.atStep i 0)) with
  | .nan => 0xFFFFFFFF
  | .token v => v
  | .unstated => (Config.freeWord (s.free + i)).toNat

/-- The writes of a SAMPLE, row after row; the step counter is that of the command's start (R207). -/
def sampleWrites (s : State) (c : Cmd) (rows : List Nat) : Except Fail (List (Nat × Nat × List Byte)) :=
  rows.mapM fun i => (s.consume c.id c.tenant (c.p 0 8) (4 * c.smV * i) (4 * c.smV)).map fun bs =>
    (c.p 8 8, 4 * i, leBytes 4 (sampleWord s c i bs))

/-- SAMPLE on its core. -/
def runSample (s : State) (c : Cmd) : State :=
  let outs := sampleOutputs s c
  match s.openRows c.id c.tenant (c.p 48 8) c.smRows with
  | .error f => s.coreFail c f outs
  | .ok rows =>
    match sampleWrites s c rows with
    | .error f => s.coreFail c f outs
    | .ok ws => { s with free := s.free + c.smRows }.coreEnd c { sampled := rows.length, writes := ws } outs id id

/-- SAMPLE. -/
def execOpSample (id : Nat) (s : State) : Host.Outcome State Fault Refusal := .next (runCore 0x2013 (reading runSample) id s)

end Sys2Proof.Machine
end

