-- ==== Sys2Proof/Machine/Experts.lean ====
section
/-! DEFINITION. Token travel (12): GATHER_ROWS (R275), ROWS_SEND (R270–R274) and ROWS_COMBINE (R277, R278). -/
namespace Sys2Proof.Machine

/-! ### Row formats (Tables 12-5, 12-7) -/

/-- Row format and N suit each other: MXFP8 rows in whole 2,048 elements, BF16 rows in whole 64. -/
def rowShape (fmt n : Nat) : Bool :=
  64 ≤ n && n ≤ 16384 && (if fmt = 8 then n % 2048 = 0 else fmt = 2 && n % 64 = 0)
/-- Bytes of a row and of its scales. -/
def tokenRow (fmt n : Nat) : Nat := if fmt = 8 then n else 2 * n
def tokenScales (fmt n : Nat) : Nat := if fmt = 8 then n / 32 else 0

/-- A reference names an object the tenant holds (Table 8-10, order 1). -/
def refHeld (s : State) (c : Cmd) (r : Nat) : Bool :=
  match s.obj c.tenant (refHandle r) with
  | some o => !o.incomplete
  | none => false

/-- The range of `n` bytes at a reference lies in its object (Table 8-10, order 5). -/
def refInside (s : State) (c : Cmd) (r n : Nat) : Bool :=
  match s.obj c.tenant (refHandle r) with
  | some o => refOff r + n ≤ o.size
  | none => false

/-- References with the bytes they cover, as order-1 and order-5 checks. -/
def refChecks (s : State) (c : Cmd) (rs : List (Nat × Nat)) : List (Bool × Fail) :=
  [ need (rs.all fun r => refHeld s c r.1) stShape 0x30, need (rs.all fun r => refInside s c r.1 r.2) stShape 0x34 ]

/-! ### GATHER_ROWS -/

namespace Cmd

def gaS (c : Cmd) : Nat := c.p 16 2
def gaR (c : Cmd) : Nat := c.p 18 2
def gaE (c : Cmd) : Nat := c.p 20 2
def gaC (c : Cmd) : Nat := c.p 24 4
def gaO (c : Cmd) : Nat := c.p 28 4

end Cmd

/-- Bytes of a list of capacity `c` (Table 12-10). -/
def listSize (c : Nat) : Nat := 64 + 4 * (64 * ceilDiv c 16)

def resvGather (_ : State) (c : Cmd) : Bool := refOk (c.p 0 8) && refOk (c.p 8 8) && zeroAt c.params 22 2 && zeroAt c.params 32 16

def checkGather (s : State) (c : Cmd) : Option Fail :=
  firstFail
    [ need (1 ≤ c.gaS && c.gaS ≤ 64 && c.gaR % 4 = 0 && 4 ≤ c.gaR && c.gaR ≤ 4096 && 1 ≤ c.gaE && c.gaE ≤ 1024
        && 1 ≤ c.gaC && c.gaC ≤ 4096 && c.gaO ≤ 4096) stShape 0x62,
      need (c.gaC + c.gaO ≥ c.gaS * c.gaR) stShape 0x63 ]
  <|> s.placeCheck c

/-- The whole gathered list. -/
def gatherOutputs (c : Cmd) : Ranges := [(c.p 8 8, 0, c.gaE * (listSize c.gaC + listSize c.gaO))]

/-- A row header read from a forward half (Table 12-6): row index in the half, then the header. -/
structure RowHead where
  index : Nat
  origin : Nat
  slot : Nat
  row : Nat
  rank : Nat
  gate : Nat
  deriving DecidableEq, Repr

/-- Row headers of every sender, in increasing row index; a count above R_s or a slot at or above E_h is a data fault (R275). -/
def gatherRead (s : State) (c : Cmd) : Except Fail (List RowHead) := do
  let heads ← (List.range c.gaS).mapM fun j => do
    let n ← (s.consume c.id c.tenant (c.p 0 8) (64 * j) 4).map leNat
    if n > c.gaR then .error (stPoison, [0x10])
    else (List.range n).mapM fun m => do
      let i := j * c.gaR + m
      let h ← s.consume c.id c.tenant (c.p 0 8) (64 * c.gaS + 16 * i) 16
      if fieldAt h 2 2 ≥ c.gaE then .error (stPoison, [0x10])
      else .ok { index := i, origin := fieldAt h 0 2, slot := fieldAt h 2 2, row := fieldAt h 4 4, rank := fieldAt h 8 1, gate := fieldAt h 12 4 }
  .ok heads.flatten

/-- Writes of one list of capacity `c` at byte `at_` of the gathered list (Table 12-10): entries beyond the count hold index
0xFFFF_FFFF, gate +0 and a zero descriptor. -/
def listWrites (ref at_ c : Nat) (rows : List RowHead) : List (Nat × Nat × List Byte) :=
  let a := 64 * ceilDiv c 16
  let each (n : Nat) (f : RowHead → List Byte) (none_ : Nat) : List Byte :=
    (List.range c).flatMap fun i => match rows[i]? with | some h => f h | none => leBytes n none_
  if c = 0 then [(ref, at_, leBytes 64 0)]
  else
    [ (ref, at_, leBytes 64 rows.length),
      (ref, at_ + 64, each 4 (fun h => leBytes 4 h.index) 0xFFFFFFFF),
      (ref, at_ + 64 + a, each 4 (fun h => leBytes 4 h.gate) 0),
      (ref, at_ + 64 + 2 * a, each 8 (fun h => leBytes 2 h.origin ++ leBytes 1 h.rank ++ leBytes 1 0 ++ leBytes 4 h.row) 0) ]

/-- GATHER_ROWS on its core. -/
def runGather (s : State) (c : Cmd) : State :=
  match gatherRead s c with
  | .error f => s.coreFail c f (gatherOutputs c)
  | .ok heads =>
    let slotRows (k : Nat) := heads.filter fun h => h.slot = k
    let pair := listSize c.gaC + listSize c.gaO
    let ws := (List.range c.gaE).flatMap fun k =>
      listWrites (c.p 8 8) (k * pair) c.gaC ((slotRows k).take c.gaC)
        ++ listWrites (c.p 8 8) (k * pair + listSize c.gaC) c.gaO ((slotRows k).drop c.gaC)
    let ov := (List.range c.gaE).map fun k => (slotRows k).length - c.gaC
    s.coreEnd c { result := leBytes 4 heads.length ++ leBytes 4 ov.sum ++ leBytes 2 (ov.countP (· > 0)), writes := ws } (gatherOutputs c) id id

/-- GATHER_ROWS. -/
def execOpGatherRows (id : Nat) (s : State) : Host.Outcome State Fault Refusal := .next (runCore 0x2005 (reading runGather) id s)

/-! ### ROWS_SEND -/

namespace Cmd

def rsT (c : Cmd) : Nat := c.p 40 2
def rsK (c : Cmd) : Nat := c.p 42 1
def rsBack (c : Cmd) : Bool := c.p 43 1 = 1
def rsP (c : Cmd) : Nat := c.p 44 2
def rsSelf (c : Cmd) : Nat := c.p 46 2
def rsLayer (c : Cmd) : Nat := c.p 48 2
def rsE (c : Cmd) : Nat := c.p 50 2
/-- Return mode: E_h. -/
def rsEh (c : Cmd) : Nat := c.p 48 2
/-- R_s forward, C in return mode. -/
def rsR (c : Cmd) : Nat := c.p 52 2
/-- Return mode: C_o. -/
def rsO (c : Cmd) : Nat := c.p 54 2
def rsN (c : Cmd) : Nat := c.p 56 2
def rsFmt (c : Cmd) : Nat := c.p 58 1
def rsHalf (c : Cmd) : Nat := c.p 59 1 % 2
def rsToken (c : Cmd) : Nat := c.p 60 4
def rsRow (c : Cmd) : Nat := tokenRow c.rsFmt c.rsN
def rsScale (c : Cmd) : Nat := tokenScales c.rsFmt c.rsN

end Cmd

/-- Reserved fields of ROWS_SEND by mode (Table 12-7). -/
def resvRowsSend (_ : State) (c : Cmd) : Bool :=
  [0, 8, 24, 64].all (fun o => refOk (c.p o 8)) && c.p 59 1 < 2 && zeroAt c.params 72 8
    && (if c.p 43 1 = 0 then refOk (c.p 16 8) && refOk (c.p 32 8) && zeroAt c.params 54 2
        else if c.p 43 1 = 1 then zeroAt c.params 16 8 && zeroAt c.params 32 8 && zeroAt c.params 46 2 && zeroAt c.params 50 2
        else true)

/-- References of a ROWS_SEND with the bytes it covers. -/
def rowsSendRefs (c : Cmd) : List (Nat × Nat) :=
  let staged := c.rsEh * (c.rsR + c.rsO)
  (if c.rsBack then [(c.p 0 8, staged * c.rsRow), (c.p 8 8, c.rsEh * (listSize c.rsR + listSize c.rsO))]
   else [(c.p 0 8, c.rsT * c.rsRow), (c.p 8 8, 8 * c.rsT * c.rsK), (c.p 16 8, 8 * (c.rsLayer + 1) * c.rsE)]
     ++ (if c.p 32 8 = 0 then [] else [(c.p 32 8, ceilDiv c.rsT 8)]))
  ++ [(c.p 24 8, 8 * c.rsP)]
  ++ (if c.rsFmt = 8 then [(c.p 64 8, (if c.rsBack then staged else c.rsT) * c.rsScale)] else [])

/-- Every field within Table 12-7. -/
def rowsSendFields (c : Cmd) : Bool :=
  1 ≤ c.rsT && c.rsT ≤ 4096 && 1 ≤ c.rsK && c.rsK ≤ 8 && c.p 43 1 ≤ 1 && 1 ≤ c.rsP && c.rsP ≤ 64 && rowShape c.rsFmt c.rsN
    && c.rsToken < 4096
    && (if c.rsBack then 1 ≤ c.rsEh && c.rsEh ≤ 1024 && 1 ≤ c.rsR && c.rsR ≤ 4096 && c.rsO ≤ 4096
        else c.rsSelf < c.rsP && c.rsLayer ≤ 255 && 1 ≤ c.rsE && c.rsE ≤ 1024 && c.rsR % 4 = 0 && 4 ≤ c.rsR && c.rsR ≤ 4096)

/-- Checks of ROWS_SEND (R273). -/
def checkRowsSend (s : State) (c : Cmd) : Option Fail :=
  firstFail (refChecks s c (rowsSendRefs c) ++
    [ need (rowsSendFields c) stShape 0x60,
      need (c.rsBack || c.rsT * c.rsK ≤ c.rsR) stShape 0x61,
      (!s.fabric.fenced, (stFenced, [])) ])

/-- The import a peer-table entry names, if the tenant holds it with WRITE (R262, R273). -/
def State.peerImport (s : State) (c : Cmd) (p : Nat) : Except Fail Import :=
  match s.consume c.id c.tenant (c.p 24 8) (8 * p) 4 with
  | .error f => .error f
  | .ok bs =>
    match NMap.get none s.fabric.imports (leNat bs) with
    | some i => if i.tenant = c.tenant ∧ i.write then .ok i else .error (stPoison, [0x10])
    | none => .error (stPoison, [0x10])

/-- A region takes a write of `n` bytes at its byte `off` from this module (R224–R227, R235). -/
def Import.takes (i : Import) (node : Nat) (determinism : Bool) (off n : Nat) : Bool :=
  i.copyWriter || n = 0 || (if i.mode = 0 then i.owner = node else i.mode ≠ 2 || atomicAligned i.operation off n determinism)

/-- Post bytes at a region offset of a peer; a replayed command without SEND_REMOTE posts nothing (R417). -/
def State.postTo (s : State) (c : Cmd) (i : Import) (off : Nat) (bs : List Byte) (poison : Bool) : State :=
  if s.muted c.tenant c.ctx c.id then s
  else s.postLines i c.tenant c.ctx c.id (if i.mode = 2 ∧ !i.copyWriter then 1 else 0) i.epoch (bs.length + 1) (i.base + off) bs poison

/-- Post lines one after another, each with its poison. -/
def State.postRun (s : State) (c : Cmd) (i : Import) : Nat → List (List Byte × Bool) → State
  | _, [] => s
  | off, l :: ls => State.postRun (s.postTo c i off l.1 l.2) c i (off + l.1.length) ls

/-- The receive signal to a peer (R272): it carries the number of the stream's last operation, and is outstanding with it. -/
def State.signalPeer (s : State) (c : Cmd) (i : Import) : State :=
  if s.muted c.tenant c.ctx c.id then s
  else
    let st := s.stream i.node
    let last := (st.next + 2 ^ 32 - 1) % 2 ^ 32
    let pkt : FabPkt := { src := s.fabric.node, epoch := st.epoch, seq := last, offset := i.base, key := i.key, size := 8, enable := 0,
                          data := leBytes 4 c.rsToken, poison := false, ownEpoch := 0, port := 8 }
    let o : Outstanding := { seq := last, tenant := c.tenant, ctx := c.ctx, cmd := c.id, kind := 6, offset := i.base, issuedAt := s.now, sentAt := s.now, pkt := pkt }
    let st1 := if st.pending.isEmpty then st else { st with pending := st.pending ++ [o] }
    let s1 := { s with fabric := { s.fabric with out := NMap.set none s.fabric.out i.node (some st1) } }
    if i.node = s.fabric.node then s1.loopIn (.signal pkt c.rsToken last)
    else s1.send { node := i.node, kind := .signal, number := last, epoch := st.epoch, data := leBytes 4 c.rsToken ++ leBytes 8 i.base, poison := false }

/-- One routing (forward) or gathered entry (return) as rows travel: source row, peer, and where it goes. -/
structure Travel where
  src : Nat
  peer : Nat
  rank : Nat
  slot : Nat
  row : Nat
  gate : Nat
  deriving DecidableEq, Repr

/-- Counting pass of a forward ROWS_SEND (R270, R273): the routings in order of row, then rank. -/
def forwardCount (s : State) (c : Cmd) : Except Fail (List Travel) := do
  let rows ← s.openRows c.id c.tenant (c.p 32 8) c.rsT
  let ts ← rows.mapM fun i => (List.range c.rsK).mapM fun r => do
    let e ← s.consume c.id c.tenant (c.p 8 8) (8 * (i * c.rsK + r)) 8
    let x := fieldAt e 0 2
    if x = 0xFFFF then .ok none
    else if x ≥ c.rsE then .error (stPoison, [0x10])
    else
      let q ← s.consume c.id c.tenant (c.p 16 8) (8 * (c.rsLayer * c.rsE + x)) 8
      if fieldAt q 0 2 ≥ c.rsP then .error (stPoison, [0x10])
      else .ok (some { src := i, peer := fieldAt q 0 2, rank := r, slot := fieldAt q 2 2, row := i, gate := fieldAt e 4 4 : Travel })
  .ok (ts.flatten.filterMap id)

/-- Counting pass of a return ROWS_SEND (R271, R273): entries by slot, main pass before overflow. -/
def returnCount (s : State) (c : Cmd) : Except Fail (List Travel) := do
  let pair := listSize c.rsR + listSize c.rsO
  let ts ← (List.range c.rsEh).mapM fun k => [false, true].mapM fun ov => do
    let cap := if ov then c.rsO else c.rsR
    let base := k * pair + (if ov then listSize c.rsR else 0)
    let n ← (s.consume c.id c.tenant (c.p 8 8) base 4).map leNat
    if n > cap then .error (stPoison, [0x10])
    else (List.range n).mapM fun m => do
      let d ← s.consume c.id c.tenant (c.p 8 8) (base + 64 + 2 * (64 * ceilDiv cap 16) + 8 * m) 8
      let t : Travel := { src := k * (c.rsR + c.rsO) + (if ov then c.rsR else 0) + m, peer := fieldAt d 0 2, rank := fieldAt d 2 1,
                          slot := k, row := fieldAt d 4 4, gate := 0 }
      if t.peer ≥ c.rsP ∨ t.rank ≥ c.rsK ∨ t.row ≥ c.rsT then .error (stPoison, [0x10]) else .ok t
  .ok ts.flatten.flatten

/-- Start of a half in a receive region (Table 12-5). -/
def Cmd.rsBase (c : Cmd) : Nat :=
  let q := c.rsP * c.rsR
  64 + c.rsHalf * (if c.rsBack then c.rsT * c.rsK * (c.rsScale + c.rsRow) else 64 * c.rsP + 16 * q + q * (c.rsScale + c.rsRow))

/-- Places of a row at its peer: scales, row. -/
def Cmd.rsPlace (c : Cmd) (pos : Nat) : Nat × Nat :=
  if c.rsBack then (c.rsBase + pos * c.rsScale, c.rsBase + c.rsT * c.rsK * c.rsScale + pos * c.rsRow)
  else
    let q := c.rsP * c.rsR
    let a := c.rsBase + 64 * c.rsP + 16 * q
    (a + pos * c.rsScale, a + q * c.rsScale + pos * c.rsRow)

/-- What the writing pass carries: state, rows sent, poisoned rows, the failure that ended it. -/
abbrev Sending := State × Nat × Nat × Option Fail

/-- Send one row and its scales to position `pos` of a peer's half. Source bytes come from `s0`. -/
def sendRow (s0 : State) (c : Cmd) (i : Import) (src pos : Nat) (a : Sending) : Sending :=
  match a with
  | (s, n, bad, none) =>
    let rows := takeLines s0 c.id c.tenant (c.p 0 8) (c.rsRow / 64) (src * c.rsRow)
    let scales := takeLines s0 c.id c.tenant (c.p 64 8) (c.rsScale / 64) (src * c.rsScale)
    match rows.2 <|> scales.2 with
    | some f => (s, n, bad, some f)
    | none =>
      let pl := c.rsPlace pos
      let s1 := ((s.postRun c i pl.1 scales.1).postRun c i pl.2 rows.1).bump (aTI c.tenant c.ctx 0x20) ((rows.1 ++ scales.1).countP (·.2))
      (s1, n + 1, bad + b2n ((rows.1 ++ scales.1).any (·.2)), none)
  | x => x

/-- The count line of this module at a peer, where its region takes it. -/
def sendCount (c : Cmd) (i : Import) (n : Nat) (s : State) : State :=
  let at_ := c.rsBase + 64 * c.rsSelf
  if i.takes s.fabric.node c.determinism at_ 64 then s.postTo c i at_ (leBytes 64 n) false else s

/-- A peer's region takes everything that its rows at positions `ps` bring. -/
def peerTakes (s : State) (c : Cmd) (i : Import) (ps : List Nat) : Bool :=
  let ok (off n : Nat) : Bool := i.takes s.fabric.node c.determinism off n
  (c.rsBack || ok (c.rsBase + 64 * c.rsSelf) 64)
    && ps.all fun pos => ok (c.rsPlace pos).1 c.rsScale && ok (c.rsPlace pos).2 c.rsRow && (c.rsBack || ok (c.rsBase + 64 * c.rsP + 16 * pos) 16)

/-- Positions of a peer's rows. -/
def positions (c : Cmd) (ts : List Travel) (p : Nat) : List Nat :=
  let mine := ts.filter fun t => t.peer = p
  if c.rsBack then mine.map fun t => t.row * c.rsK + t.rank else (List.range mine.length).map fun m => c.rsSelf * c.rsR + m

/-- Rows, headers and count line of one peer (R270). -/
def sendPeer (s0 : State) (c : Cmd) (ts : List Travel) (p : Nat) (i : Import) (a : Sending) : Sending :=
  let mine := ts.filter fun t => t.peer = p
  let r := (List.range mine.length).foldl (fun a m =>
    match mine[m]? with
    | none => a
    | some t =>
      let pos := c.rsSelf * c.rsR + m
      match sendRow s0 c i t.src pos a with
      | (s, n, bad, none) =>
        (s.postTo c i (c.rsBase + 64 * c.rsP + 16 * pos)
          (leBytes 2 c.rsSelf ++ leBytes 2 t.slot ++ leBytes 4 t.row ++ leBytes 1 t.rank ++ leBytes 3 0 ++ leBytes 4 t.gate) false, n, bad, none)
      | x => x) a
  match r with
  | (s, n, bad, none) => (sendCount c i mine.length s, n, bad, none)
  | (s, n, bad, some f) => (sendCount c i 0 s, n, bad, some f)

/-- Rows of a return that were not sent are written poisoned (Table 12-8). -/
def sendPoisoned (c : Cmd) (i : Import) (pos : Nat) (s : State) : State :=
  let pl := c.rsPlace pos
  (s.postTo c i pl.1 (leBytes c.rsScale 0) true).postTo c i pl.2 (leBytes c.rsRow 0) true

/-- Receive signals to every peer whose import is valid. -/
def signalAll (c : Cmd) (is : List Import) (s : State) : State := is.foldl (fun s i => s.signalPeer c i) s

/-- Imports of the peers, and what the counting pass found (R273): a region that cannot take a row is a bound fault, as the data are. -/
def sendPlan (s : State) (c : Cmd) : Except Fail (List Import × List Travel) := do
  let is ← (List.range c.rsP).mapM fun p => s.peerImport c p
  let ts ← if c.rsBack then returnCount s c else forwardCount s c
  if (List.range c.rsP).all fun p => peerTakes s c (is.getD p default) (positions c ts p) then .ok (is, ts) else .error (stPoison, [0x10])

/-- What a ROWS_SEND that ends before its first row leaves (Table 12-8): forward, count 0 to every peer whose import is valid; return, every row
poisoned that the list, where it can be read, gives; and the signals. Where the data failed (`faulty`) no row is written (R273). -/
def sendNothing (s : State) (c : Cmd) (faulty : Bool) : State :=
  let is := (List.range c.rsP).map fun p => (s.peerImport c p).toOption
  let valid := is.filterMap id
  let s1 := if c.rsBack then
      match (if faulty then .error (stPoison, []) else returnCount s c) with
      | .ok ts => ts.foldl (fun (s : State) t => match is.getD t.peer none with
        | some i => sendPoisoned c i (t.row * c.rsK + t.rank) s
        | none => s) s
      | .error _ => s
    else valid.foldl (fun s i => sendCount c i 0 s) s
  signalAll c valid s1

/-- ROWS_SEND on the token router. -/
def runRowsSend (s : State) (c : Cmd) : State :=
  match sendPlan s c with
  | .error f => (sendNothing s c (f.1 = stPoison)).fail c.id f.1 f.2
  | .ok (is, ts) =>
    let peer (p : Nat) : Import := is.getD p default
    let r : Sending := if c.rsBack then
        ts.foldl (fun a t => match a with
          | (s1, n, bad, some f) => (sendPoisoned c (peer t.peer) (t.row * c.rsK + t.rank) s1, n, bad, some f)
          | a => match sendRow s c (peer t.peer) t.src (t.row * c.rsK + t.rank) a with
            | (s1, n, bad, some f) => (sendPoisoned c (peer t.peer) (t.row * c.rsK + t.rank) s1, n, bad, some f)
            | x => x) (s, 0, 0, none)
      else (List.range c.rsP).foldl (fun a p => sendPeer s c ts p (peer p) a) (s, 0, 0, none)
    match r with
    | (s1, _, _, some f) => (signalAll c is s1).fail c.id f.1 f.2
    | (s1, n, bad, none) => (signalAll c is s1).ok c.id (leBytes 4 n ++ leBytes 4 bad ++ leBytes 2 c.rsP)

/-- Die whose token router runs a command: that of its source object, the east die's for one on both dies (R269). -/
def State.routerDie (s : State) (c : Cmd) : Nat :=
  if s.variant.west && ((s.obj c.tenant (refHandle (c.p 0 8))).map (·.die)).getD 0 = 2 then 1 else 0

/-- The router runs one command at a time, in the order granted (R269); with its die's domain off it runs none. -/
def State.routerBusy (s : State) (c : Cmd) : Bool :=
  let first (d : Cmd) : Bool := d.stage = .granted && (d.since < c.since || d.since = c.since && d.id < c.id) && !s.stalled d.tenant && !s.heldBack d
  !s.pw.on.testBit (8 + s.routerDie c) || s.cmds.any fun d => (d.opcode = 0x4010 || d.opcode = 0x4011) && d.id ≠ c.id
    && s.routerDie d = s.routerDie c && (d.stage = .started || c.stage = .granted && first d)

/-- A command of a token router takes its turn. -/
def runRouter (op : Nat) (check : State → Cmd → Option Fail) (body : State → Cmd → State) (id : Nat) (s : State) : State :=
  match s.cmd? id with
  | some c => if s.routerBusy c then s else runCoreless op check body id s
  | none => s

/-- ROWS_SEND. -/
def execOpRowsSend (id : Nat) (s : State) : Host.Outcome State Fault Refusal := .next (runRouter 0x4010 checkRowsSend (reading runRowsSend) id s)

/-! ### ROWS_COMBINE -/

namespace Cmd

def rcT (c : Cmd) : Nat := c.p 40 2
def rcK (c : Cmd) : Nat := c.p 42 1
def rcFmt (c : Cmd) : Nat := c.p 43 1
def rcN (c : Cmd) : Nat := c.p 44 2
def rcOut (c : Cmd) : Nat := c.p 46 1
def rcRes (c : Cmd) : Nat := c.p 47 1
/-- Bytes of a destination and of a residual element. -/
def rcOutBytes (c : Cmd) : Nat := if c.rcOut = 0 then 4 else 2
def rcResBytes (c : Cmd) : Nat := if c.rcRes = 0 then 4 else 2

end Cmd

/-- Reserved fields of ROWS_COMBINE (Table 12-11). -/
def resvRowsCombine (_ : State) (c : Cmd) : Bool :=
  [0, 8, 16, 24, 32].all (fun o => refOk (c.p o 8)) && zeroAt c.params 48 16 && (c.p 24 8 ≠ 0 || c.rcRes = 0)

/-- References of a ROWS_COMBINE with the bytes it covers. -/
def rowsCombineRefs (c : Cmd) : List (Nat × Nat) :=
  [ (c.p 0 8, c.rcT * c.rcK * (tokenScales c.rcFmt c.rcN + tokenRow c.rcFmt c.rcN)), (c.p 8 8, 8 * c.rcT * c.rcK),
    (c.p 16 8, c.rcT * c.rcN * c.rcOutBytes) ]
  ++ (if c.p 24 8 = 0 then [] else [(c.p 24 8, c.rcT * c.rcN * c.rcResBytes)])
  ++ (if c.p 32 8 = 0 then [] else [(c.p 32 8, ceilDiv c.rcT 8)])

/-- Checks of ROWS_COMBINE (R278); a module fenced by lapse ends every opcode of class 0x4 with FENCED (R256). -/
def checkRowsCombine (s : State) (c : Cmd) : Option Fail :=
  firstFail ([ need (1 ≤ c.rcT && c.rcT ≤ 4096 && 1 ≤ c.rcK && c.rcK ≤ 8 && rowShape c.rcFmt c.rcN && (c.rcOut = 0 || c.rcOut = 2)
      && c.rcRes ≤ 1) stShape 0x64 ] ++ refChecks s c (rowsCombineRefs c) ++ [ (decide (s.fabric.st ≠ 3), (stFenced, [])) ])

/-- Sixteen elements of position `pos` from element `e` on, widened to FP32, and whether a line they lie on is poisoned. -/
def combineLeaf (s : State) (c : Cmd) (pos e : Nat) : Except Fail (List Word × Bool) :=
  let sc := tokenScales c.rcFmt c.rcN
  let rows := c.rcT * c.rcK * sc + pos * tokenRow c.rcFmt c.rcN
  let get (o n : Nat) : Except Fail (List Byte × Bool) :=
    let r := s.readRef c.id c.tenant (c.p 0 8) o n
    match r.fail with
    | some f => .error f
    | none => .ok (r.bytes, r.poison)
  if c.rcFmt = 8 then do
    let el ← get (rows + e) 16
    let k ← get (pos * sc + e / 32) 1
    .ok (el.1.map fun b => enc32 (mxValue 8 b.toNat (leNat k.1)), el.2 || k.2)
  else do
    let el ← get (rows + 2 * e) 32
    .ok ((List.range 16).map fun i => enc32 (bf16.dec (fieldAt el.1 (2 * i) 2)), el.2)

/-- Sixteen destination elements of row `i` from element `e` on (R277): their bytes, or none where a leaf is poisoned. -/
def combineChunk (s : State) (c : Cmd) (routed : List Bool) (i e : Nat) : Except Fail (Option (List Byte)) := do
  let leaves ← (List.range c.rcK).mapM fun r =>
    if routed.getD r false then (combineLeaf s c (i * c.rcK + r) e).map some else .ok none
  let res ← if c.p 24 8 = 0 then .ok none else
    let r := s.readRef c.id c.tenant (c.p 24 8) ((i * c.rcN + e) * c.rcResBytes) (16 * c.rcResBytes)
    match r.fail with
    | some f => .error f
    | none => .ok (some (r.bytes, r.poison))
  if leaves.any (fun l => match l with | some x => x.2 | none => false) || (match res with | some x => x.2 | none => false) then .ok none
  else
    let word (j : Nat) : Word :=
      let v := (canonSum 0 (leaves.map fun l => l.map fun x => x.1.getD j 0)).getD 0
      match res with
      | some x =>
        let raw := fieldAt x.1 (j * c.rcResBytes) c.rcResBytes
        add32 v (if c.rcRes = 0 then BitVec.ofNat 32 raw else enc32 (bf16.dec raw))
      | none => v
    .ok (some ((List.range 16).flatMap fun j =>
      if c.rcOut = 0 then leBytes 4 (word j).toNat else leBytes 2 (convert bf16 false (word j))))

/-- Destination rows. -/
def rowsCombineOutputs (s : State) (c : Cmd) : Ranges :=
  match s.openRows c.id c.tenant (c.p 32 8) c.rcT with
  | .ok rows => rows.map fun i => (c.p 16 8, i * c.rcN * c.rcOutBytes, c.rcN * c.rcOutBytes)
  | .error _ => [(c.p 16 8, 0, c.rcT * c.rcN * c.rcOutBytes)]

/-- Combine chunks of a row one after another; the places that read poison are gathered. -/
def combineRow (s0 : State) (c : Cmd) (routed : List Bool) (i : Nat) : Nat → Nat → State → Ranges → State × Option Fail × Ranges
  | 0, _, s, bad => (s, none, bad)
  | k + 1, e, s, bad =>
    match combineChunk s0 c routed i e with
    | .error f => (s, some f, bad)
    | .ok none => combineRow s0 c routed i k (e + 16) s ((c.p 16 8, (i * c.rcN + e) * c.rcOutBytes, 16 * c.rcOutBytes) :: bad)
    | .ok (some bs) =>
      match s.writeRef c.tenant c.ctx c.id (c.p 16 8) ((i * c.rcN + e) * c.rcOutBytes) bs false c.determinism with
      | (s1, none) => combineRow s0 c routed i k (e + 16) s1 bad
      | (s1, some f) => (s1, some f, bad)

/-- Combine rows one after another. -/
def combineRows (s0 : State) (c : Cmd) : List Nat → State → Ranges → State × Option Fail × Ranges
  | [], s, bad => (s, none, bad)
  | i :: rest, s, bad =>
    match (List.range c.rcK).mapM fun r => (s0.consume c.id c.tenant (c.p 8 8) (8 * (i * c.rcK + r)) 2).map fun b => decide (leNat b ≠ 0xFFFF) with
    | .error f => (s, some f, bad)
    | .ok routed =>
      match combineRow s0 c routed i (c.rcN / 16) 0 s bad with
      | (s1, none, bad1) => combineRows s0 c rest s1 bad1
      | x => x

/-- Leaf and residual spans of the unmasked rows of a ROWS_COMBINE. -/
def combineSources (s : State) (c : Cmd) (rows : List Nat) : Ranges :=
  let sc := tokenScales c.rcFmt c.rcN
  let row := tokenRow c.rcFmt c.rcN
  rows.flatMap fun i =>
    ((List.range c.rcK).flatMap fun r =>
      let pos := i * c.rcK + r
      match s.consume c.id c.tenant (c.p 8 8) (8 * pos) 2 with
      | .ok b => if leNat b = 0xFFFF then [] else [(c.p 0 8, pos * sc, sc), (c.p 0 8, c.rcT * c.rcK * sc + pos * row, row)]
      | .error _ => [])
    ++ (if c.p 24 8 = 0 then [] else [(c.p 24 8, i * c.rcN * c.rcResBytes, c.rcN * c.rcResBytes)])

/-- ROWS_COMBINE on the token router. -/
def runRowsCombine (s : State) (c : Cmd) : State :=
  let outs := rowsCombineOutputs s c
  match s.openRows c.id c.tenant (c.p 32 8) c.rcT with
  | .error f => (s.poisonRanges c.tenant outs).fail c.id f.1 f.2
  | .ok rows =>
    match combineRows s c rows s [] with
    | (s1, some f, _) => (s1.poisonRanges c.tenant outs).fail c.id f.1 f.2
    | (s1, none, []) => s1.ok c.id []
    | (s1, none, bad) => ((s1.bump (aTI c.tenant c.ctx 0x20) (s.poisonedLines c.id c.tenant (combineSources s c rows) - 1)).poisonRanges c.tenant bad).fail
        c.id stPoison [0]

/-- ROWS_COMBINE. -/
def execOpRowsCombine (id : Nat) (s : State) : Host.Outcome State Fault Refusal :=
  .next (runRouter 0x4011 checkRowsCombine (reading runRowsCombine) id s)

end Sys2Proof.Machine
end

