-- ==== Sys2Proof/Machine/Reduce.lean ====
section
/-! DEFINITION. REDUCE (R103–R105). -/
namespace Sys2Proof.Machine

namespace Cmd

def rdCount (c : Cmd) : Nat := c.p 8 4
def rdIn (c : Cmd) : Nat := c.p 12 1
def rdOut (c : Cmd) : Nat := c.p 13 1
def rdN (c : Cmd) : Nat := c.p 14 1
/-- Leaves of 32 elements. -/
def rdBlock (c : Cmd) : Bool := (c.p 15 1).testBit 0
def rdTotal (c : Cmd) : Nat := c.p 16 4
def rdSource (c : Cmd) (i : Nat) : Nat := c.p (32 + 16 * i) 8
def rdBase (c : Cmd) (i : Nat) : Nat := c.p (40 + 16 * i) 4
def rdLen (c : Cmd) (i : Nat) : Nat := c.p (44 + 16 * i) 4
/-- Bytes of an output element. -/
def rdOutBytes (c : Cmd) : Nat := if c.rdOut = 0 then 4 else if c.rdOut = 1 then 16 else 2
def rdInBytes (c : Cmd) : Nat := if c.rdIn = 1 then 16 else 4

end Cmd

/-- The packet length is that of 32 + 16 n parameter bytes (Table 5-7, order 2). -/
def reduceLength (c : Cmd) : Bool :=
  let tok := c.waits.length + c.signals.length
  16 + 4 * tok + c.params.length + 8 == packetLen (32 + 16 * c.rdN) tok

/-- Reserved fields of REDUCE (Tables 5-5, 5-6, R105). -/
def resvReduce (_ : State) (c : Cmd) : Bool :=
  refOk (c.p 0 8) && c.rdIn ≤ 1 && c.rdOut ≤ 3 && c.p 15 1 < 2 && !(c.rdIn = 1 && c.rdBlock) && zeroAt c.params 28 4
    && ((c.rdIn = 1 && c.rdOut ≠ 1) || c.p 20 8 = 0)
    && (!reduceLength c || ((List.range c.rdN).all (fun i => refOk (c.rdSource i))
        && zeroAt c.params (32 + 16 * c.rdN) (c.params.length - (32 + 16 * c.rdN))))

/-- Ranges of the inputs in K values. -/
def reduceRanges (c : Cmd) : List (Nat × Nat) := (List.range c.rdN).map fun i => (c.rdBase i, c.rdBase i + c.rdLen i)

/-- No two ranges overlap. -/
def disjoint : List (Nat × Nat) → Bool
  | [] => true
  | r :: rs => rs.all (fun q => r.2 ≤ q.1 || q.2 ≤ r.1) && disjoint rs

/-- The union of disjoint ranges is one range: from, to; none where it has gaps. -/
def unionRange (rs : List (Nat × Nat)) : Option (Nat × Nat) :=
  let lo := rs.foldl (fun a r => min a r.1) 65536
  let hi := rs.foldl (fun a r => max a r.2) 0
  if rs.foldl (fun (a : Nat) r => a + (r.2 - r.1)) 0 = hi - lo then some (lo, hi) else none

/-- Checks of REDUCE (Table 5-7), then placement (R185). -/
def checkReduce (s : State) (c : Cmd) : Option Fail :=
  let rs := reduceRanges c
  let cls := if c.rdBlock then 1 else 2
  firstFail
    [ need (c.rdCount % 16 = 0 && 16 ≤ c.rdCount && c.rdCount ≤ 16777216) stShape 0x10,
      need (2 ≤ c.rdN && c.rdN ≤ 64 && reduceLength c) stShape 0x11,
      need (!(c.rdIn = 0 && c.rdOut = 1)) stShape 0x13,
      need (c.rdTotal % 32 = 0 && 32 ≤ c.rdTotal && c.rdTotal ≤ 65536
        && rs.all (fun r => r.1 % 32 = 0 && r.2 % 32 = 0 && r.1 < r.2 && r.2 ≤ c.rdTotal) && disjoint rs) stShape 0x12,
      need (!(c.determinism && c.rdIn = 0) || (rs.all (fun r => kAligned cls r.1 r.2 c.rdTotal)
        && (match unionRange rs with | some r => kAligned cls r.1 r.2 c.rdTotal | none => false))) stSplit 1 ]
  <|> s.placeCheck c

/-- Merge of FP32 partials of one element (R103). -/
def reduceWord (c : Cmd) (xs : List Word) : Word :=
  let u := if c.rdBlock then 32 else 1
  (canonMerge (c.rdTotal / u) (((List.range c.rdN).zip xs).map fun p =>
    (c.rdBase p.1 / u, (c.rdBase p.1 + c.rdLen p.1) / u, p.2))).getD 0

/-- Output bytes of one element from its inputs' bytes. -/
def reduceElement (c : Cmd) (xs : List (List Byte)) : List Byte :=
  if c.rdIn = 1 then
    let l := (xs.map Long.ofBytes).foldl Long.add Long.zero
    if c.rdOut = 1 then l.toBytes
    else
      let w := l.scaled (BitVec.ofNat 32 (c.p 20 4)) (BitVec.ofNat 32 (c.p 24 4))
      if c.rdOut = 0 then leBytes 4 w.toNat else leBytes 2 (convert (if c.rdOut = 2 then bf16 else fp16) false w)
  else
    let w := reduceWord c (xs.map fun b => BitVec.ofNat 32 (leNat b))
    if c.rdOut = 0 then leBytes 4 w.toNat else leBytes 2 (convert (if c.rdOut = 2 then bf16 else fp16) false w)

/-- Input spans of a REDUCE. -/
def reduceSources (c : Cmd) : Ranges := (List.range c.rdN).map fun i => (c.rdSource i, 0, c.rdCount * c.rdInBytes)

/-- Destination of a REDUCE. -/
def reduceOutputs (c : Cmd) : Ranges := [(c.p 0 8, 0, c.rdCount * c.rdOutBytes)]

/-- Cycles of a REDUCE with every line staged (R105). The spec does not say how bytes that are no whole 512 count: DESIGN CHOICE (log 122),
the quotient is rounded up. -/
def reduceCycles (c : Cmd) : Nat :=
  let combine := ceilDiv (c.rdCount * (c.rdN - 1)) (if c.rdIn = 1 then 32 else 128)
  max combine (ceilDiv (c.rdCount * c.rdN * c.rdInBytes + c.rdCount * c.rdOutBytes) 512) + 64

/-- Elements from `e` on, `k` of them: the writes of those whose inputs are sound, and the places of those with a poisoned input. A destination
that overlaps an input is left open by the spec: DESIGN CHOICE (log 123), every input is read before any output is written. -/
def reduceLoop (s : State) (c : Cmd) : Nat → Nat → Except Fail (List (Nat × Nat × List Byte) × Ranges)
  | 0, _ => .ok ([], [])
  | k + 1, e =>
    let rds := (List.range c.rdN).map fun i => s.readRef c.id c.tenant (c.rdSource i) (e * c.rdInBytes) c.rdInBytes
    match (rds.find? fun r => r.fail.isSome).bind (·.fail) with
    | some f => .error f
    | none => (reduceLoop s c k (e + 1)).map fun r =>
      if rds.any (·.poison) then (r.1, (c.p 0 8, e * c.rdOutBytes, c.rdOutBytes) :: r.2)
      else ((c.p 0 8, e * c.rdOutBytes, reduceElement c (rds.map (·.bytes))) :: r.1, r.2)

/-- Count the cycles of a REDUCE; those it waited for staged lines are free (R105). -/
def State.countReduce (s : State) (c : Cmd) : State :=
  let k := c.core.getD 0
  let (n, s1) := s.waited c (reduceCycles c)
  (s1.bump (aVE k 0x10) (reduceCycles c + n)).bump (aVE k 0x20) n

/-- Count the cycles of a REDUCE that an event or a read ends early: those since it started, of which a free number waited for lines. -/
def State.countReduceCut (s : State) (c : Cmd) : State :=
  let (n, s1) := s.waited c 0
  (s1.bump (aVE (c.core.getD 0) 0x10) (s.elapsed c)).bump (aVE (c.core.getD 0) 0x20) n

/-- The destination's lines that bytes `o` to `o + n - 1` of it touch include one that a range of `bad` touches. -/
def reduceHit (c : Cmd) (bad : Ranges) (o n : Nat) : Bool :=
  let first (x : Nat) : Nat := (refOff (c.p 0 8) + x) / 64
  bad.any fun b => first o ≤ first (b.2.1 + b.2.2 - 1) && first b.2.1 ≤ first (o + n - 1)

/-- The writes of a REDUCE that met poison: those to the other lines (R105). -/
def reduceSound (c : Cmd) (bad : Ranges) (ws : List (Nat × Nat × List Byte)) : List (Nat × Nat × List Byte) :=
  ws.filter fun w => !reduceHit c bad w.2.1 w.2.2.length

/-- REDUCE on its core (R104, R105). One whose cycles pass its run limit only ends by it (R188); one that meets
poison writes the lines of its destination that no poisoned element lies in (R105). -/
def runReduce (s : State) (c : Cmd) : State :=
  if reduceCycles c > 21 * c.limit then s
  else match reduceLoop s c c.rdCount 0 with
    | .error f => (s.countReduceCut c).coreFail c f (reduceOutputs c)
    | .ok (ws, []) =>
      s.coreEnd c { sampled := reduceCycles c - 64, writes := ws } (reduceOutputs c) (·.countReduce c) (·.countReduceCut c)
    | .ok (ws, bad) =>
      match writeAll c.tenant c.ctx c.id c.determinism (reduceSound c bad ws) s with
      | (s1, some f) => (s1.countReduceCut c).coreFail c f (reduceOutputs c)
      | (s1, none) => ((s1.countReduce c).bump (aTI c.tenant c.ctx 0x20)
          (s.poisonedLines c.id c.tenant (reduceSources c) - 1)).coreFail c (stPoison, [0]) bad

/-- REDUCE. -/
def execOpReduce (id : Nat) (s : State) : Host.Outcome State Fault Refusal := .next (runCore 0x2004 (reading runReduce) id s)

end Sys2Proof.Machine
end

