-- ==== Sys2Proof/Machine/Outputs.lean ====
section
/-! DEFINITION. The outputs of a command by opcode (Table 2-14), for commands that an event ends while they run. -/
namespace Sys2Proof.Machine

/-- Byte ranges a command writes. -/
def cmdOutputs (s : State) (c : Cmd) : Ranges :=
  match c.opcode with
  | 0x1003 => [(c.p 8 8, 0, c.p 16 8)]
  | 0x1004 => [(c.p 0 8, 0, c.p 8 8)]
  | 0x2001 => chainOutputs s c
  | 0x2002 => vectorOutputs s c
  | 0x2004 => reduceOutputs c
  | 0x2005 => gatherOutputs c
  | 0x2013 => sampleOutputs s c
  | 0x4011 => rowsCombineOutputs s c
  | _ => []

/-- The cycles of a MATMUL_CHAIN, at 2.1 GHz, or of a REDUCE that an event ends while it runs. -/
def State.countCut (s : State) (c : Cmd) : State :=
  if c.opcode = 0x2001 ∧ c.core.isSome ∧ c.stage = .started then
    match chainFed s c with
    | .ok fed => s.countEarly c fed.length (s.elapsed c)
    | .error _ => s
  else if c.opcode = 0x2004 ∧ c.core.isSome ∧ c.stage = .started then s.countReduceCut c
  else s

/-- A started command ends with a failure: it leaves its core where it has one, its outputs are poisoned. A ROWS_SEND leaves no peer waiting
(R274), a replay is over. On a fenced module opcodes of class 0x4 end FENCED (R256), a ROWS_SEND with its context (Table 12-8); the read of
a ROWS_COMBINE that was waiting ends it TIER_FAILED as any other's does. -/
def State.failRunning (s : State) (c : Cmd) (f : Fail) : State :=
  let s := if c.opcode = 0x9003 then s.setCtx c.tenant c.ctx { s.ctx c.tenant c.ctx with replaying := none } else s
  if c.opcode / 0x1000 = 4 ∧ c.opcode ≠ 0x4011 ∧ s.fabric.fenced ∧ f.1 = stTierFailed then
    let s1 := s.complete c.id stFenced []
    if c.opcode = 0x4010 then s1.kill c.tenant c.ctx else s1
  else if c.opcode = 0x4010 then (sendNothing s c false).fail c.id f.1 f.2
  else if c.core.isSome then (s.countCut c).coreFail c f (cmdOutputs s c) else (s.poisonRanges c.tenant (cmdOutputs s c)).fail c.id f.1 f.2

end Sys2Proof.Machine
end

