-- ==== Sys2Proof/Machine/Recording.lean ====
section
/-! DEFINITION. Step counter and seed (R411–R413), and the record ring of a context (R415, R416, Table 20-1). -/
namespace Sys2Proof.Machine

/-! ### The ring -/

/-- Ring header (Table 20-1). -/
def ringHeader (r : Recording) (state : Nat) : List Byte :=
  leBytes 8 r.end_ ++ leBytes 8 r.entries ++ leBytes 1 state ++ leBytes 1 r.sources ++ leBytes 2 r.version ++ leBytes 4 0
    ++ leBytes 8 r.step.toNat ++ leBytes 8 r.seed.toNat ++ leBytes 24 0

/-- Write the header of a recording. -/
def State.putHeader (s : State) (t c : Nat) (r : Recording) (state : Nat) : State :=
  (s.writeRef t c 0 r.ring 0 (ringHeader r state) false false).1

def State.setRecording (s : State) (t c : Nat) (r : Option Recording) : State :=
  s.setCtx t c { s.ctx t c with recording := r }

/-- The bytes of an entry (Table 20-1). -/
def ringEntry (kind : Nat) (poison : Bool) (stamp step number : Nat) (payload : List Byte) : List Byte :=
  leBytes 1 kind ++ leBytes 1 (b2n poison) ++ leBytes 2 0 ++ leBytes 4 payload.length ++ leBytes 8 stamp ++ leBytes 8 step
    ++ leBytes 8 number ++ fitBytes (roundUp payload.length 32) payload

/-- Record an event of `kind` in a context that records it (R416); one that does not fit makes the ring full and ends the
recording. -/
def State.record (s : State) (t c kind : Nat) (payload : List Byte) (poison : Bool) : State :=
  match (s.ctx t c).recording with
  | none => s
  | some r =>
    if !r.sources.testBit (kind - 1) then s
    else
      let bs := ringEntry kind poison s.now (s.ctx t c).step.toNat r.entries payload
      if r.end_ + bs.length > r.bytes then (s.putHeader t c r 2).setRecording t c none
      else
        let r1 := { r with end_ := r.end_ + bs.length, entries := r.entries + 1 }
        (((s.writeRef t c 0 r.ring r.end_ bs poison false).1).putHeader t c r1 0).setRecording t c (some r1)

/-- Recording ends: the final header is written. -/
def State.stopRecording (s : State) (t c : Nat) : State :=
  match (s.ctx t c).recording with
  | none => s
  | some r => (s.putHeader t c r 1).setRecording t c none

/-- A write applied to an exported region is recorded in the context its export names: source node, object offset, data (R416). -/
def State.recordInbound (s : State) (e : Export) (src off : Nat) (data : List Byte) (poison : Bool) : State :=
  s.record e.tenant e.ctx 2 (leBytes 2 src ++ leBytes 6 0 ++ leBytes 8 (e.offset + (off - e.base)) ++ data) poison

/-- A receive signal that names the region: byte 2 is 1 and bytes 4–7 hold its token (log 40: the manual gives bytes 2–7 no
meaning). -/
def State.recordSignal (s : State) (e : Export) (src off token : Nat) : State :=
  s.record e.tenant e.ctx 2 (leBytes 2 src ++ leBytes 2 1 ++ leBytes 4 token ++ leBytes 8 (e.offset + (off - e.base))) false

/-- Fronthaul of a cell is recorded by every context that records that cell (R416). -/
def State.recordFronthaul (s : State) (cell : Nat) (payload : List Byte) : State :=
  let recs := (List.range 64).filter fun c => match (s.ctx 0 c).recording with
    | some r => r.cell = cell
    | none => false
  recs.foldl (fun s c => s.record 0 c 3 payload false) s

/-! ### RECORD_START, RECORD_STOP (R415) -/

def resvRecordStart (_ : State) (c : Cmd) : Bool := refOk (c.p 0 8) && c.p 16 1 < 8 && zeroAt c.params 18 14

def checkRecordStart (s : State) (c : Cmd) : Option Fail :=
  let size := (s.obj c.tenant (refHandle (c.p 0 8))).map (·.size)
  let src := c.p 16 1
  firstFail
    [ need (refOff (c.p 0 8) = 0 && size.isSome && c.p 8 8 % 4096 = 0 && 65536 ≤ c.p 8 8 && c.p 8 8 ≤ size.getD 0 && src ≠ 0) stShape 0xB1,
      need (!src.testBit 2 || (c.entry ≠ .vf && (s.cell (c.p 17 1)).isSome)) stShape 0xB2,
      need (s.ctx c.tenant c.ctx).recording.isNone stNoResources 0x51 ]

/-- RECORD_START: the header is written and recording begins. -/
def runRecordStart (s : State) (c : Cmd) : State :=
  let x := s.ctx c.tenant c.ctx
  let r : Recording := { ring := c.p 0 8, bytes := c.p 8 8, sources := c.p 16 1, cell := c.p 17 1, end_ := 64, entries := 0,
                         step := x.step, seed := x.seed, version := (s.fn c.tenant).version }
  ((s.putHeader c.tenant c.ctx r 0).setRecording c.tenant c.ctx (some r)).ok c.id []

/-- RECORD_START. -/
def execOpRecordStart (id : Nat) (s : State) : Host.Outcome State Fault Refusal := .next (runCoreless 0x9001 checkRecordStart runRecordStart id s)

def checkRecordStop (s : State) (c : Cmd) : Option Fail := firstFail [need (s.ctx c.tenant c.ctx).recording.isSome stNoResources 0x51]

/-- RECORD_STOP: the entry count. -/
def runRecordStop (s : State) (c : Cmd) : State :=
  (s.stopRecording c.tenant c.ctx).ok c.id (leBytes 8 (((s.ctx c.tenant c.ctx).recording.map (·.entries)).getD 0))

/-- RECORD_STOP. -/
def execOpRecordStop (id : Nat) (s : State) : Host.Outcome State Fault Refusal := .next (runCoreless 0x9002 checkRecordStop runRecordStop id s)

/-! ### SEED_SET, STEP_READ (R412, R413) -/

def resvSeedSet (_ : State) (c : Cmd) : Bool := c.p 16 1 < 4 && zeroAt c.params 17 15

/-- A sequence of the context is queued or running. -/
def Ctx.busy (x : Ctx) : Bool := !x.queue.isEmpty || !x.running.isEmpty

def checkSeedSet (s : State) (c : Cmd) : Option Fail :=
  firstFail [need (c.p 16 1 ≠ 0) stShape 0xB0, need (!(s.ctx c.tenant c.ctx).busy) stNoResources 0x50]

/-- SEED_SET writes the selected fields. -/
def runSeedSet (s : State) (c : Cmd) : State :=
  let x := s.ctx c.tenant c.ctx
  (s.setCtx c.tenant c.ctx { x with
    step := if (c.p 16 1).testBit 0 then BitVec.ofNat 64 (c.p 0 8) else x.step,
    seed := if (c.p 16 1).testBit 1 then BitVec.ofNat 64 (c.p 8 8) else x.seed }).ok c.id []

/-- SEED_SET. -/
def execOpSeedSet (id : Nat) (s : State) : Host.Outcome State Fault Refusal := .next (runCoreless 0x9004 checkSeedSet runSeedSet id s)

/-- STEP_READ: step counter and context seed. -/
def runStepRead (s : State) (c : Cmd) : State :=
  let x := s.ctx c.tenant c.ctx
  s.ok c.id (leBytes 8 x.step.toNat ++ leBytes 8 x.seed.toNat)

/-- STEP_READ. -/
def execOpStepRead (id : Nat) (s : State) : Host.Outcome State Fault Refusal := .next (runCoreless 0x9005 (fun _ _ => none) runStepRead id s)

end Sys2Proof.Machine
end

