-- ==== Sys2Proof/Machine/Fabric.lean ====
section
/-! DEFINITION. The fabric engine (10): regions and imports, operations at their home, streams at the requester, ownership and
fences. -/
namespace Sys2Proof.Machine

/-! ### Records (Table 10-4, R214, R220) -/

def State.setExport (s : State) (n : Nat) (e : Option Export) : State :=
  { s with fabric := { s.fabric with exports := NMap.set none s.fabric.exports n e } }
def State.setImport (s : State) (n : Nat) (i : Option Import) : State :=
  { s with fabric := { s.fabric with imports := NMap.set none s.fabric.imports n i } }
def State.setOut (s : State) (n : Nat) (x : Option StreamOut) : State :=
  { s with fabric := { s.fabric with out := NMap.set none s.fabric.out n x } }

/-! ### Sequence numbers (R220, R221) -/

/-- Distance from `a` to `b` modulo 2³²: below 2³¹ when `b` is at or after `a`. -/
def seqDist (a b : Nat) : Nat := (b + 2 ^ 32 - a % 2 ^ 32) % 2 ^ 32
/-- `b` is at or before `a`. -/
def seqCovered (a b : Nat) : Bool := seqDist b a < 2 ^ 31

/-- A destination a FENCE or transfer waits for has acknowledged its number: nothing at or before it is outstanding but what waits for a
response. -/
def State.covered (s : State) (e : Nat × Nat) : Bool :=
  e.2 < 2 ^ 32 && (match NMap.get none s.fabric.out e.1 with
    | some st => st.pending.all fun o => o.kind = 4 || o.kind = 9 || !seqCovered e.2 o.seq
    | none => true)

/-! ### Revocation and FREE (R158, R216) -/

/-- Checks of FREE (Table 8-10). -/
def checkFree (s : State) (c : Cmd) : Option Fail :=
  let o := refObj s c (c.p 0 8)
  firstFail
    [ need (heldRef s c (c.p 0 8) && refOff (c.p 0 8) = 0) stShape 0x30,
      need o.pins.isEmpty stNoResources 5 ]

/-- Take an export record away: its range rests for 100 ms (R212, R216); the object is in use again unless another region of it is
incomplete. -/
def State.dropExport (s : State) (num : Nat) : State :=
  match NMap.get none s.fabric.exports num with
  | none => s
  | some e =>
    let s1 := { s with fabric := { s.fabric with
      exports := NMap.set none s.fabric.exports num none
      resting := (e.base, e.length, s.now + msec 100) :: s.fabric.resting } }
    match s1.obj e.tenant e.handle with
    | some o => s1.setObj e.tenant e.handle (some { o with incomplete := (s1.exportsOf e.tenant e.handle).any fun x => !x.complete })
    | none => s1

/-- Revoke an export for a command, 0 for a function-level reset (R216): at once, or after the write-back its other owner is asked for, in the
stream to it. -/
def State.revoke (s : State) (num id : Nat) : State :=
  match NMap.get none s.fabric.exports num with
  | none => s
  | some e =>
    if e.revoking.isSome then s
    else if e.mode = 0 ∧ e.complete ∧ e.owner ≠ s.fabric.node then
      let s1 := { s with fabric := { s.fabric with
        exports := NMap.set none s.fabric.exports num (some { e with revoking := some id, since := s.now }) } }
      s1.post e.owner e.tenant 0 id 7
        { src := 0, epoch := 0, seq := 0, offset := e.base, key := e.key, size := 8, enable := 0, data := leBytes 8 num, poison := false,
          ownEpoch := e.epoch, port := 8 }
    else s.dropExport num

/-- Exports of an object by number. -/
def State.exportNums (s : State) (t h : Nat) : List Nat :=
  s.fabric.exports.filterMap fun e => match e.2 with
    | some x => if x.tenant = t ∧ x.handle = h then some e.1 else none
    | none => none

/-- A FREE waits for other commands: an earlier one of the tenant that names the object has not completed (R158). -/
def freeBehind (s : State) (c : Cmd) : Bool :=
  let h := refHandle (c.p 0 8)
  s.cmds.any fun d => d.tenant = c.tenant && d.id < c.id && !d.signalled && d.entry ≠ .mgmt && d.names h

/-- FREE may end: every earlier command of the tenant that names the object has completed, no move is in progress, and no
region of it remains (R158, R218). -/
def freeReady (s : State) (c : Cmd) : Bool :=
  let h := refHandle (c.p 0 8)
  !freeBehind s c
    && (match s.obj c.tenant h with | some o => o.moving = 0 | none => true)
    && (s.exportNums c.tenant h).isEmpty

/-- Make FREE's effect once it may end. The context watchdog measures it but for its wait for other commands (R61), which its `fence` marks. -/
def settleFree (s : State) (c : Cmd) : State :=
  if freeReady s c then (s.setObj c.tenant (refHandle (c.p 0 8)) none).ok c.id []
  else if !c.fence.isEmpty ∧ !freeBehind s c then s.setCmd { c with fence := [], since := s.now }
  else s

/-- The node's packets are accepted: it is a member. A packet of any other node is dropped, which is counted (R252). -/
def State.fromMember (s : State) (node : Nat) (f : State → State) : State :=
  if !s.variant.fabric || s.fabric.st = 0 then s else if NMap.get false s.fabric.members node then f s else s.bump (aWF 0x810) 1

/-! ### FENCE (R231, R232) -/

def resvFence (_ : State) (c : Cmd) : Bool := c.p 2 1 < 2 && ((c.p 2 1).testBit 0 || c.p 0 2 = 0) && zeroAt c.params 3 13

/-- Result of a FENCE (Table 10-9). -/
def fenceResult (s : State) (c : Cmd) (node : Nat) : List Byte :=
  let r := (s.ctx c.tenant c.ctx).refused
  leBytes 4 c.fence.length ++ leBytes 2 node ++ leBytes 2 0 ++ leBytes 4 (r.1 + r.2.1 + r.2.2)
    ++ leBytes 4 (min (2 ^ 32 - 1) ((s.now - c.since) / 4))

/-- A FENCE ends; the refusals it reports are no longer held. -/
def State.endFence (s : State) (c : Cmd) (status node : Nat) : State :=
  let x := s.ctx c.tenant c.ctx
  let lost := if status = stUnreachable then x.lost.filter (fun n => !(c.fence.any fun e => e.1 = n)) else x.lost
  (s.finish c.id status (fenceResult s c node)).setCtx c.tenant c.ctx { x with refused := (0, 0, 0), lost := lost }

/-- A waiting FENCE ends when it may. -/
def settleFence (s : State) (c : Cmd) : State :=
  if s.fabric.fenced then s.endFence c stFenced 0
  else if c.fence.all s.covered then
    let r := (s.ctx c.tenant c.ctx).refused
    s.endFence c (if r.1 > 0 then stKeyRejected else if r.2.1 > 0 then stNotOwner else if r.2.2 > 0 then stFenced else stOK) 0
  else s

/-- The command that issued an operation is still running. -/
def State.issuerRuns (s : State) (o : Outstanding) : Bool :=
  match s.cmd? o.cmd with
  | some d => decide (d.stage ≠ .done)
  | none => false

/-- What a FENCE records (R231): per destination the highest number of the context's operations not yet acknowledged. Those of commands still
running are not covered; write-backs belong to no context. -/
def fenceMarks (s : State) (c : Cmd) : List (Nat × Nat) :=
  let one (n : Nat) : Bool := !(c.p 2 1).testBit 0 || n = c.p 0 2
  let live := s.fabric.out.filterMap fun e => match e.2 with
    | some st => ((st.pending.filter fun o => o.tenant = c.tenant && o.ctx = c.ctx && o.kind ≠ 2 && !s.issuerRuns o).getLast?).map fun o => (e.1, o.seq)
    | none => none
  let lost := (s.ctx c.tenant c.ctx).lost.map fun n => (n, 2 ^ 32)
  (live.filter fun e => !lost.any (·.1 = e.1)) ++ lost |>.filter fun e => one e.1

/-- FENCE starts. -/
def runFence (s : State) (c : Cmd) : State :=
  let c := { c with stage := .waiting, fence := fenceMarks s c, since := s.now }
  settleFence (s.setCmd c) c

/-- FENCE. -/
def execOpFence (id : Nat) (s : State) : Host.Outcome State Fault Refusal := .next (runCoreless 0x3003 (fun _ _ => none) runFence id s)

/-- A FENCE has waited 10 ms (R232). -/
def fenceTimeout (id : Nat) (s : State) : State :=
  match s.cmd? id with
  | some c =>
    if c.opcode = 0x3003 ∧ c.stage = .waiting ∧ s.now ≥ c.since + msec 10 then
      let open_ := (c.fence.filter fun e => !s.covered e).map Prod.fst
      (s.bump (aWF 0x028) 1).endFence c stUnreachable (open_.foldl min 0xFFFF)
    else s
  | none => s

/-- FENCE_TIMEOUT. -/
def execFenceTimeout (id : Nat) (s : State) : Host.Outcome State Fault Refusal := .next (fenceTimeout id s)

/-! ### REGION_EXPORT (R212, R213) -/

def xpMode (c : Cmd) : Nat := c.p 24 1
def xpFlags (c : Cmd) : Nat := c.p 26 1
def xpRemote (c : Cmd) : Bool := (xpFlags c).testBit 0
def xpCopy (c : Cmd) : Bool := (xpFlags c).testBit 1
def xpReadOnly (c : Cmd) : Bool := (xpFlags c).testBit 2

def resvRegionExport (_ : State) (c : Cmd) : Bool :=
  refOk (c.p 0 8) && xpMode c ≤ 2 && xpFlags c < 8 && c.p 27 1 < 64 && zeroAt c.params 28 4 && zeroAt c.params 40 8
    && (xpMode c ≠ 2 || c.p 25 1 = 0 || atomicWidth (c.p 25 1) ≠ 0)

/-- Ranges of fabric space in use: regions, and those released within 100 ms. -/
def State.usedSpace (s : State) : List (Nat × Nat) :=
  (s.fabric.exports.filterMap fun e => e.2.map fun x => (x.base, x.length))
    ++ (s.fabric.resting.filter fun r => s.now < r.2.2).map fun r => (r.1, r.2.1)

/-- The lowest free range for a region of `n` bytes, at a multiple of 2 MiB (R212). -/
def State.freeSpace (s : State) (n : Nat) : Option Nat :=
  let used := s.usedSpace
  let starts := 0 :: used.map fun r => roundUp (r.1 + r.2) (2 ^ 21)
  let ok := starts.filter fun b => b + n ≤ 2 ^ 48 && used.all fun r => b + n ≤ r.1 || r.1 + r.2 ≤ b
  ok.foldl (fun a b => some (match a with | some x => min x b | none => b)) none

/-- The exported bytes of an object: its storage, with the map area of a compressible one. -/
def Obj.exportable (o : Obj) : Nat := if o.compress then o.storage + o.mapArea else o.size

/-- Checks of REGION_EXPORT (Table 10-3). -/
def checkRegionExport (s : State) (c : Cmd) : Option Fail :=
  let r := c.p 0 8
  let h := refHandle r
  let o := (s.obj c.tenant h).getD Obj.init
  let n := c.p 8 8
  let mine := (s.exportsOf c.tenant h).filter fun e => e.offset < refOff r + n && refOff r < e.offset + e.length
  firstFail
    [ need ((s.obj c.tenant h).isSome && o.home = 2) stShape 0x41,
      need (c.p 16 8 ≠ 0 && refOff r % 4096 = 0 && n % 4096 = 0 && n ≥ 4096 && ((xpMode c = 2) = (c.p 25 1 ≠ 0))
        && (!xpReadOnly c || xpMode c = 0) && (if xpRemote c then c.p 27 1 < (s.tenant c.tenant).contexts else c.p 27 1 = 0)
        && (xpCopy c = (c.p 32 8 ≠ 0))) stShape 0x42,
      need (refOff r + n ≤ o.exportable && (!o.compress || (refOff r = 0 && n = o.storage + o.mapArea && xpMode c = 0))) stShape 0x43,
      (!s.fabric.fenced, (stFenced, [])),
      (mine.all (·.complete), (stIncomplete, [])),
      need mine.isEmpty stNoResources 4,
      need ((s.fabric.exports.countP fun e => match e.2 with | some x => x.tenant = c.tenant | none => false) < (s.tenant c.tenant).exports)
        stNoResources 1,
      need (s.fabric.exports.length < 4096) stNoResources 2,
      need (s.freeSpace n).isSome stNoResources 3 ]

/-- The lowest number of a map that holds nothing. -/
def freeNumber {α : Type} (m : NMap (Option α)) : Nat :=
  ((List.range 4096).find? fun k => (NMap.get none m k).isNone).getD 4096

/-- REGION_EXPORT. -/
def runRegionExport (s : State) (c : Cmd) : State :=
  let h := refHandle (c.p 0 8)
  let num := freeNumber s.fabric.exports
  let e : Export :=
    { base := (s.freeSpace (c.p 8 8)).getD 0, length := c.p 8 8, key := BitVec.ofNat 64 (c.p 16 8), tenant := c.tenant, ctx := c.p 27 1, handle := h,
      offset := refOff (c.p 0 8), mode := xpMode c, operation := c.p 25 1, remoteCmd := xpRemote c, readOnly := xpReadOnly c,
      complete := !xpCopy c, marker := BitVec.ofNat 64 (c.p 32 8), owner := s.fabric.node, epoch := 0, writers := [], copyWriter := none,
      revoking := none, since := 0, handing := none, arrivals := none }
  let s1 := (s.setExport num (some e))
  let s2 := match s1.obj c.tenant h with
    | some o => if xpCopy c then s1.setObj c.tenant h (some { o with incomplete := true }) else s1
    | none => s1
  s2.ok c.id (leBytes 8 e.base ++ leBytes 2 num)

/-- REGION_EXPORT. -/
def execOpRegionExport (id : Nat) (s : State) : Host.Outcome State Fault Refusal :=
  .next (runCoreless 0x4001 checkRegionExport runRegionExport id s)

/-! ### REGION_IMPORT (R214, R215) -/

def resvRegionImport (_ : State) (c : Cmd) : Bool := zeroAt c.params 2 6 && c.p 24 1 < 4 && zeroAt c.params 25 7

/-- Imports a tenant holds. -/
def State.importCount (s : State) (t : Nat) : Nat :=
  s.fabric.imports.countP fun e => match e.2 with | some x => x.tenant = t | none => false

/-- Probes of REGION_IMPORTs under way. -/
def State.probing (s : State) (t : Nat) : Nat := s.cmds.countP fun d => d.opcode = 0x4002 && d.stage = .waiting && d.tenant = t

/-- Items 1 and 2 of R215. -/
def checkRegionImport (s : State) (c : Cmd) : Option Fail :=
  firstFail
    [ (!s.fabric.fenced, (stFenced, [])),
      need (s.importCount c.tenant < (s.tenant c.tenant).imports) stNoResources 1,
      need (s.fabric.imports.length < 4096) stNoResources 2 ]

/-- A request of the fabric engine itself: 8 bytes at an offset of a node. -/
def request (offset : Nat) (key : Dbl) (data : List Byte) (ownEpoch : Nat) : FabPkt :=
  { src := 0, epoch := 0, seq := 0, offset := offset, key := key, size := 8, enable := 0, data := data, poison := false, ownEpoch := ownEpoch,
    port := 8 }

/-- REGION_IMPORT sends its probe: with room for the answer (R244), and once the probes under way leave its tenant and the module room for
another import, so that the home records no import that cannot complete (R215). -/
def runRegionImport (s : State) (c : Cmd) : State :=
  match checkRegionImport s c with
  | some f => s.finish c.id f.1 f.2
  | none =>
    let all := s.cmds.countP fun d => d.opcode = 0x4002 && d.stage = .waiting
    if !s.answerRoom ∨ s.importCount c.tenant + s.probing c.tenant ≥ (s.tenant c.tenant).imports ∨ s.fabric.imports.length + all ≥ 4096 then s
    else (s.setCmd { c with stage := .waiting, since := s.now }).post (c.p 0 2) c.tenant c.ctx c.id 4
      (request (c.p 8 8) (BitVec.ofNat 64 (c.p 16 8)) [BitVec.ofNat 8 (c.p 24 1)] 0)

/-- REGION_IMPORT. -/
def execOpRegionImport (id : Nat) (s : State) : Host.Outcome State Fault Refusal :=
  .next (runCoreless 0x4002 checkRegionImport runRegionImport id s)

/-- The home gave no answer within 10 ms (R215 item 3). -/
def importProbeTimeout (id : Nat) (s : State) : State :=
  match s.cmd? id with
  | some c => if c.opcode = 0x4002 ∧ c.stage = .waiting ∧ s.now ≥ c.since + msec 10 then s.finish id stUnreachable [] else s
  | none => s

/-- IMPORT_PROBE_TIMEOUT. -/
def execImportProbeTimeout (id : Nat) (s : State) : Host.Outcome State Fault Refusal := .next (importProbeTimeout id s)

/-- The answer to a probe ends its REGION_IMPORT (R215 items 4 to 7, Table 10-6). A limit lowered meanwhile is met here, and the home told to
drop the import again. -/
def probeAnswer (s : State) (c : Cmd) (r : FabAnswer) : State :=
  match r.kind with
  | .probed =>
    let num := freeNumber s.fabric.imports
    let drop := request (c.p 8 8) (BitVec.ofNat 64 (c.p 16 8)) [] 0
    if s.importCount c.tenant ≥ (s.tenant c.tenant).imports then (s.post (c.p 0 2) c.tenant c.ctx c.id 5 drop).finish c.id stNoResources [1]
    else if num ≥ 4096 then (s.post (c.p 0 2) c.tenant c.ctx c.id 5 drop).finish c.id stNoResources [2]
    else
      let i : Import :=
        { tenant := c.tenant, node := c.p 0 2, base := c.p 8 8, key := BitVec.ofNat 64 (c.p 16 8), length := r.length, mode := r.mode,
          operation := r.operation, write := c.p 24 1 ≠ 0, copyWriter := (c.p 24 1).testBit 1, readOnly := r.readOnly, owner := r.owner,
          epoch := r.epoch, dead := false }
      (s.setImport num (some i)).ok c.id
        (leBytes 4 num ++ leBytes 1 r.mode ++ leBytes 1 r.operation ++ leBytes 2 r.owner ++ leBytes 8 r.length)
  | .badRights => s.finish c.id stShape [0x44]
  | .incomplete => s.finish c.id stIncomplete []
  | .tooManyWriters => s.finish c.id stNoResources [3]
  | .secondCopyWriter => s.finish c.id stNoResources [4]
  | .fenced => s.finish c.id stFenced []
  | _ => s.finish c.id stKeyRejected []

/-- A reader still reads: a move, or a command that has not completed. -/
def State.readerRuns (s : State) (rd : Nat) : Bool :=
  rd ≥ 2 ^ 64 || (match s.cmd? rd with | some c => decide (c.stage ≠ .done) | none => false)

/-- Load data reaches its reader; the time it waited counts in TI_STALL_T3 (R174). Lines of readers that have completed are dropped (R227). -/
def State.lineArrives (s : State) (o : Outstanding) (data : List Byte) (poison : Bool) (node : Nat) : State :=
  let l : Fetched := { reader := o.cmd, node := node, line := o.offset / 64, bytes := fitBytes 64 data, poison := poison }
  let s1 := if o.cmd < 2 ^ 64 then s.bump (aTI o.tenant o.ctx 0x08) ((s.now - o.issuedAt) / 4) else s
  { s1 with fabric := { s1.fabric with lines := l :: s1.fabric.lines.filter fun x => s1.readerRuns x.reader } }

/-- A load is refused or never answered: its reader ends with TIER_FAILED and the cause (R175, R217). -/
def State.readFails (s : State) (o : Outstanding) (cause : Nat) : State :=
  let why : Fail := (stTierFailed, leBytes 1 cause)
  if o.cmd ≥ 2 ^ 64 then raiseFail (s.dropReader o.cmd) o.tenant (o.cmd % 2 ^ 24) why
  else match s.cmd? o.cmd with
    | some c => if c.stage = .started ∨ c.stage = .waiting then s.failRunning c why else s
    | none => s

/-- The answer to a load or a probe. -/
def State.answerFor (s : State) (o : Outstanding) (r : FabAnswer) : State :=
  if o.kind = 4 then
    match s.cmd? o.cmd with
    | some c => if c.opcode = 0x4002 ∧ c.stage = .waiting then probeAnswer s c r else s
    | none => s
  else match r.kind with
    | .data => s.lineArrives o r.data r.poison r.node
    | .fenced => s.readFails o 0x23
    | _ => s.readFails o 0x13

/-- LOAD_RESPONSE: a response leaves the fabric (R244): load data, a probe answer, or a target's status (R254). -/
def loadResponse (r : FabAnswer) (s : State) : State :=
  s.fromMember r.node fun s =>
    if r.kind = .status then
      match s.cmd? r.id with
      | some c => if c.opcode = 0x4020 ∧ c.stage = .waiting then s.finish c.id r.status r.data else s
      | none => s
    else match NMap.get none s.fabric.out r.node with
      | none => s
      | some st =>
        if st.epoch ≠ r.stream then s
        else match st.pending.find? fun o => o.seq = r.seq && (o.kind = 4 || o.kind = 9) with
          | none => s
          | some o => (s.setOut r.node (some { st with pending := st.pending.erase o, lastAck := s.now })).answerFor o r

/-- LOAD_RESPONSE. -/
def execLoadResponse (r : FabAnswer) (s : State) : Host.Outcome State Fault Refusal := .next (loadResponse r s)

/-! ### REGION_REVOKE (R216–R218) -/

def resvRegionRevoke (_ : State) (c : Cmd) : Bool := c.p 0 1 ≤ 1 && zeroAt c.params 1 1 && zeroAt c.params 4 12

/-- The tenant holds the number. -/
def State.holdsRegion (s : State) (t side num : Nat) : Bool :=
  if side = 0 then (match NMap.get none s.fabric.exports num with | some e => e.tenant = t && e.revoking.isNone | none => false)
  else (match NMap.get none s.fabric.imports num with | some i => i.tenant = t | none => false)

/-- Checks of REGION_REVOKE when it is accepted. -/
def checkRegionRevoke (s : State) (c : Cmd) : Option Fail := firstFail [need (s.holdsRegion c.tenant (c.p 0 1) (c.p 2 2)) stShape 0x45]

/-- A revocation of a command still waits for an owner's write-back. -/
def State.revoking (s : State) (id : Nat) : Bool :=
  s.fabric.exports.any fun e => match e.2 with | some x => x.revoking = some id | none => false

/-- A waiting REGION_REVOKE ends when its revocation has. -/
def settleRevoke (s : State) (c : Cmd) : State := if s.revoking c.id then s else s.ok c.id c.result

/-- The check of a started REGION_REVOKE: that of a revocation was made when it took effect; a release by a lapsed module is FENCED (R256). -/
def checkRevokeStart (s : State) (c : Cmd) : Option Fail :=
  if c.p 0 1 = 0 then none else checkRegionRevoke s c <|> firstFail [(s.fabric.st ≠ 3, (stFenced, []))]

/-- REGION_REVOKE starts: a release removes the record and tells the home (R218). -/
def runRegionRevoke (s : State) (c : Cmd) : State :=
  if c.p 0 1 = 0 then settleRevoke (s.await c.id) c
  else
    let num := c.p 2 2
    match NMap.get none s.fabric.imports num with
    | none => s.ok c.id []
    | some i =>
      if !(s.regionHandles c.tenant 0 num).isEmpty then s.finish c.id stNoResources [5]
      else
        let s1 := (s.setImport num none)
        (if s1.fabric.fenced then s1 else s1.post i.node c.tenant c.ctx c.id 5 (request i.base i.key [] 0)).ok c.id []

/-- REGION_REVOKE. -/
def execOpRegionRevoke (id : Nat) (s : State) : Host.Outcome State Fault Refusal :=
  .next (runCoreless 0x4003 checkRevokeStart runRegionRevoke id s)

/-! ### OWNERSHIP_TRANSFER (R228–R230) -/

def resvTransfer (_ : State) (c : Cmd) : Bool := c.p 0 1 ≤ 1 && c.p 1 1 < 2 && (c.p 0 1 = 1 || c.p 1 1 = 0) && zeroAt c.params 6 10

/-- A region's owner may become node `b`: the exporter, or a write importer unless the region is read-only (R230 item 2). -/
def Export.mayOwn (e : Export) (home b : Nat) : Bool := b = home || (!e.readOnly && e.writers.contains b)

/-- The importer itself knows that node `b` may own the region: the exporter, or this node where it imports with WRITE. Of any other node the home
knows. -/
def Import.knows (i : Import) (node b : Nat) : Bool := b = i.node || (b = node && i.write)

/-- Checks of OWNERSHIP_TRANSFER (R230). -/
def checkTransfer (s : State) (c : Cmd) : Option Fail :=
  let node := s.fabric.node
  if c.p 0 1 = 0 then
    match NMap.get none s.fabric.imports (c.p 2 2) with
    | some i =>
      if i.tenant ≠ c.tenant then some (stShape, [0x45])
      else firstFail [need (i.mode = 0 && !i.copyWriter && (!i.readOnly || c.p 4 2 = i.node)) stShape 0x46, (!s.fabric.fenced, (stFenced, [])),
        (decide (i.owner = node) || !i.knows node (c.p 4 2), (stNotOwner, []))]
    | none => some (stShape, [0x45])
  else
    match NMap.get none s.fabric.exports (c.p 2 2) with
    | some e =>
      if e.tenant ≠ c.tenant ∨ e.revoking.isSome then some (stShape, [0x45])
      else firstFail [need (e.mode = 0 && e.complete && e.mayOwn node (c.p 4 2)) stShape 0x46, (!s.fabric.fenced, (stFenced, [])),
        (decide (e.owner = node) || (c.p 1 1).testBit 0, (stNotOwner, []))]
    | none => some (stShape, [0x45])

/-- Every earlier command of the tenant that names an object of the region has completed (Table 10-8 step 1). -/
def transferReady (s : State) (c : Cmd) : Bool :=
  let hs := s.regionHandles c.tenant (c.p 0 1) (c.p 2 2)
  s.cmds.all fun d => !(d.tenant = c.tenant && d.id < c.id && !d.signalled && d.entry ≠ .mgmt && hs.any d.names)

/-- Result of a transfer: new owner and epoch. -/
def transferResult (b epoch : Nat) : List Byte := leBytes 2 b ++ leBytes 2 0 ++ leBytes 4 epoch

/-- Last number of the stream to a node. -/
def State.lastSeq (s : State) (node : Nat) : Nat := ((s.stream node).next + 2 ^ 32 - 1) % 2 ^ 32

/-- The exporter's side: record the owner, raise the epoch, tell a new owner elsewhere (steps 3 and 4). -/
def transferHome (s : State) (c : Cmd) (num : Nat) (e : Export) : State :=
  let b := c.p 4 2
  let e1 := { e with owner := b, epoch := (e.epoch + 1) % 2 ^ 32 }
  if b = s.fabric.node then (s.setExport num (some e1)).ok c.id (transferResult b e1.epoch)
  else
    let forced := (c.p 1 1).testBit 0
    let s1 := s.setExport num (some { e1 with handing := if forced then none else some (e.owner, e.epoch), since := s.now })
    let s2 := s1.post b c.tenant c.ctx c.id 8 (request e.base e.key (leBytes 4 e1.epoch) e1.epoch)
    s2.setCmd { c with stage := .waiting, fence := [(b, s2.lastSeq b)], since := s.now, result := transferResult b e1.epoch }

/-- The owner's side of an import: write back, then owner := B in the same stream (steps 2 and 3). -/
def transferImport (s : State) (c : Cmd) (num : Nat) (i : Import) : State :=
  let s1 := (s.regionHandles c.tenant 0 num).foldl (fun s h => s.writeBackAll c.tenant h) s
  let s2 := s1.post i.node c.tenant c.ctx c.id 3 (request i.base i.key (leBytes 2 (c.p 4 2)) i.epoch)
  s2.setCmd { c with stage := .waiting, fence := [(i.node, s2.lastSeq i.node)], since := s.now,
                     result := transferResult (c.p 4 2) ((i.epoch + 1) % 2 ^ 32) }

/-- An importer asks the home whether the named node may own the region, before it writes anything back (R230 item 2): an ownership change of
no byte. How it learns this the spec leaves open: DESIGN CHOICE (log 130). -/
def transferAsk (s : State) (c : Cmd) (i : Import) : State :=
  let s1 := s.post i.node c.tenant c.ctx c.id 3 { request i.base i.key (leBytes 2 (c.p 4 2)) i.epoch with size := 0 }
  s1.setCmd { c with stage := .waiting, fence := [(i.node, s1.lastSeq i.node)], since := s.now, result := [] }

/-- Steps 1 to 3 of a transfer that may take place, once its earlier commands have completed. -/
def transferGo (s : State) (c : Cmd) : State :=
  let num := c.p 2 2
  if !transferReady s c then s
  else if c.p 0 1 = 0 then
    match NMap.get none s.fabric.imports num with
    | some i => transferImport s c num i
    | none => s.finish c.id stShape [0x45]
  else match NMap.get none s.fabric.exports num with
    | some e => transferHome (s.writeBackAll c.tenant e.handle) c num e
    | none => s.finish c.id stShape [0x45]

/-- A waiting transfer that may take place: its result is that of a transfer not begun. -/
def Cmd.mayTransfer (c : Cmd) : Cmd := { c with stage := .waiting, fence := [], result := [1] }

/-- A waiting transfer goes on: its legality is known, step 1 is over, or its last step is acknowledged (the importer then holds the new owner and
epoch). -/
def settleTransfer (s : State) (c : Cmd) : State :=
  let num := c.p 2 2
  if s.fabric.fenced then s.finish c.id stFenced []
  else if c.result.length = 1 then transferGo s c
  else if !c.fence.all s.covered then s
  else if c.result.isEmpty then
    match NMap.get none s.fabric.imports num with
    | some i =>
      if i.owner ≠ s.fabric.node then s.finish c.id stNotOwner []
      else transferGo (s.setCmd c.mayTransfer) c.mayTransfer
    | none => s.finish c.id stShape [0x45]
  else
    let s1 := if c.p 0 1 = 0 then
        match NMap.get none s.fabric.imports num with
        | some i => (s.setImport num (some { i with owner := c.p 4 2, epoch := (i.epoch + 1) % 2 ^ 32 }))
        | none => s
      else s
    s1.ok c.id c.result

/-- OWNERSHIP_TRANSFER starts; FORCE records the owner at once unless the home itself owns the region (R229). -/
def runTransfer (s : State) (c : Cmd) : State :=
  if c.p 0 1 = 0 then
    match NMap.get none s.fabric.imports (c.p 2 2) with
    | some i => if i.knows s.fabric.node (c.p 4 2) then transferGo (s.setCmd c.mayTransfer) c.mayTransfer else transferAsk s c i
    | none => s.finish c.id stShape [0x45]
  else match NMap.get none s.fabric.exports (c.p 2 2) with
    | some e =>
      if (c.p 1 1).testBit 0 ∧ e.owner ≠ s.fabric.node then transferHome s c (c.p 2 2) e
      else transferGo (s.setCmd c.mayTransfer) c.mayTransfer
    | none => s.finish c.id stShape [0x45]

/-- OWNERSHIP_TRANSFER. -/
def execOpOwnershipTransfer (id : Nat) (s : State) : Host.Outcome State Fault Refusal :=
  .next (runCoreless 0x4004 checkTransfer runTransfer id s)

/-- A hand-over that its new owner has not acknowledged is undone: ownership stays where it was (R230 item 5). -/
def State.undoHanding (s : State) (num : Nat) : State :=
  match NMap.get none s.fabric.exports num with
  | some e =>
    match e.handing with
    | some (a, old) => s.setExport num (some { e with owner := a, epoch := old, handing := none })
    | none => s
  | none => s

/-- A step of a transfer was not acknowledged within 10 ms (R230 item 5): ownership stays with A, at a home (number 0: of changes that importers
asked for) as at the command's own module. -/
def transferTimeout (id : Nat) (s : State) : State :=
  match s.cmd? id with
  | some c =>
    if c.opcode = 0x4004 ∧ c.stage = .waiting ∧ !c.fence.isEmpty ∧ s.now ≥ c.since + msec 10 then
      let mine := (match NMap.get none s.fabric.imports (c.p 2 2) with | some i => decide (i.owner = s.fabric.node) | none => false)
      if c.result.isEmpty ∧ !mine then s.finish id stNotOwner []
      else (if c.p 0 1 = 1 then s.undoHanding (c.p 2 2) else s).finish id stUnreachable []
    else s
  | none =>
    if id ≠ 0 then s
    else (s.fabric.exports.filter fun e => match e.2 with
      | some x => x.handing.isSome && s.now ≥ x.since + msec 10
      | none => false).foldl (fun (s : State) e => s.undoHanding e.1) s

/-- TRANSFER_TIMEOUT. -/
def execTransferTimeout (id : Nat) (s : State) : Host.Outcome State Fault Refusal := .next (transferTimeout id s)

/-! ### What waits on the fabric -/

/-- Outstanding operations of every stream that a test selects. -/
def State.pendingOf (s : State) (f : Outstanding → Bool) : List Outstanding :=
  s.fabric.out.flatMap fun e => match e.2 with | some x => x.pending.filter f | none => []

/-- Keep the outstanding operations that a test selects. -/
def State.keepPending (s : State) (f : Outstanding → Bool) : State :=
  { s with fabric := { s.fabric with out := s.fabric.out.map fun e => (e.1, e.2.map fun x => { x with pending := x.pending.filter f }) } }

/-- A refusal is held for the context (R223). -/
def State.holdRefusal (s : State) (t c : Nat) (kind : RefusalKind) : State :=
  let x := s.ctx t c
  let r := x.refused
  s.setCtx t c { x with refused := match kind with
    | .keyRejected => (r.1 + 1, r.2)
    | .notOwner => (r.1, r.2.1 + 1, r.2.2)
    | .fenced => (r.1, r.2.1, r.2.2 + 1) }

/-- Posted operations of contexts that nothing will acknowledge any more are reported as FENCED by their contexts' next FENCE (R256). -/
def State.holdOpen (s : State) : State :=
  (s.pendingOf fun o => o.kind ≤ 1 || o.kind = 6).foldl (fun (s : State) o => s.holdRefusal o.tenant o.ctx .fenced) s

/-- What a detach ends with, once every revocation has completed (R253 steps 4 to 6): stream state dropped, ports in electrical idle, no
node number, no tables. -/
def State.leavePartition (s : State) : State :=
  let told := ((List.range 8).filter fun p => (s.wfPort p).st ≠ 0).foldl (fun (s : State) p => s.pulse (31 + p)) s.holdOpen
  { told with fabric := { s.fabric with
    st := 0, leased := false, fenced := true, node := 0xFFFF, rank := 0xFFFF, partition := 0, epoch := 0, expiry := none, leaseKey := 0,
    leaseSeq := none, out := [], into := [], waiting := [], units := [], ports := [], members := [], routes := [], neighbours := [],
    lines := [], loop := [], paths := [], parent := 0xFF } }

/-- A waiting command of the fabric, or a FREE, ends when it may. A detach ends when every revocation has (R253). -/
def settleOne (s : State) (id : Nat) : State :=
  match s.cmd? id with
  | none => s
  | some c =>
    if c.stage ≠ .waiting then s
    else match c.opcode with
      | 0x1002 => settleFree s c
      | 0x3003 => settleFence s c
      | 0x4003 => settleRevoke s c
      | 0x4004 => settleTransfer s c
      | 0x4021 => if s.fabric.exports.isEmpty then s.leavePartition.ok id [] else s
      | _ => s

/-- Settle every waiting command, oldest first. -/
def State.settle (s : State) : State := (s.cmds.map (·.id)).foldl settleOne s

/-! ### At the home: answers and checks (R214, R223, R244) -/

/-- Answer a packet. -/
def State.answer (s : State) (p : FabPkt) (kind : SentKind) (data : List Byte) (poison : Bool) : State :=
  s.send { node := p.src, kind := kind, number := p.seq, epoch := p.epoch, data := data, poison := poison }

/-- Answer KEY_REJECTED, counted. -/
def State.rejectKey (s : State) (p : FabPkt) : State := (s.bump (aWF 0x008) 1).answer p .keyRejected [] false
/-- Answer NOT_OWNER, counted. -/
def State.rejectOwner (s : State) (p : FabPkt) : State := (s.bump (aWF 0x010) 1).answer p .notOwner [] false
/-- Acknowledge a packet and everything before it. -/
def State.acknowledge (s : State) (p : FabPkt) : State := s.answer p .ack [] false

/-- The region an offset lies in. -/
def State.regionAt (s : State) (off : Nat) : Option (Nat × Export) :=
  s.fabric.exports.findSome? fun e => match e.2 with
    | some x => if x.base ≤ off ∧ off < x.base + x.length then some (e.1, x) else none
    | none => none

/-- Steps 2 and 3 of R214 for an access of `size` bytes. -/
def State.regionFor (s : State) (p : FabPkt) (size : Nat) : Option (Nat × Export) :=
  match s.regionAt p.offset with
  | some (n, e) => if e.key = p.key ∧ p.offset + size ≤ e.base + e.length then some (n, e) else none
  | none => none

/-- The first enabled byte of a store and the run of enabled bytes from it. -/
def pktRun (p : FabPkt) : Nat × List Byte :=
  let on := (List.range p.size).filter fun i => p.enable.testBit i
  (on.headD 0, on.map fun i => p.data.getD i 0)

/-- Where an exported object keeps what its home applies: what it holds above T2 for shared regions, its storage otherwise. -/
def Obj.homeBytes (o : Obj) (mode : Nat) : Memory := if mode ≠ 0 ∧ o.copied then o.data else o.store
def Obj.setHomeBytes (o : Obj) (mode : Nat) (m : Memory) : Obj := if mode ≠ 0 ∧ o.copied then { o with data := m } else { o with store := m }

/-- A byte of a compressible object as it is stored: its blocks, then its map (R156, R169). -/
def Obj.storedByte (o : Obj) (x : Nat) : Byte :=
  if x < o.storage then Memory.read o.store x
  else BitVec.ofNat 8 ((NMap.get MapEntry.zero o.blocks ((x - o.storage) / 8)).bits / 256 ^ ((x - o.storage) % 8))

/-- Write one byte of a compressible object as it is stored. -/
def Obj.setStoredByte (o : Obj) (x : Nat) (b : Byte) : Obj :=
  if x < o.storage then { o with store := Memory.write o.store x b }
  else
    let k := (x - o.storage) / 8
    let old := (NMap.get MapEntry.zero o.blocks k).bits
    let sh := 256 ^ ((x - o.storage) % 8)
    { o with blocks := NMap.set MapEntry.zero o.blocks k (MapEntry.ofBits (old - old / sh % 256 * sh + b.toNat * sh)) }

/-- Bytes of a region as a load reads them, and whether a line of them is poisoned. -/
def State.regionRead (s : State) (e : Export) (off n : Nat) : List Byte × Bool :=
  match s.obj e.tenant e.handle with
  | none => (List.replicate n 0, false)
  | some o =>
    let x := e.offset + (off - e.base)
    let bs := if o.compress then (List.range n).map fun i => o.storedByte (x + i) else Memory.readN (o.homeBytes e.mode) x n
    (bs, (linesOf x n).any fun l => NMap.get false o.poison l)

/-- Apply a store's enabled bytes to a region (R219); a whole line written replaces its poison (R399). -/
def State.regionWrite (s : State) (e : Export) (p : FabPkt) : State :=
  match s.obj e.tenant e.handle with
  | none => s
  | some o =>
    let x := e.offset + (p.offset - e.base)
    let on := (List.range p.size).filter fun i => p.enable.testBit i
    let put (o : Obj) (i : Nat) : Obj :=
      let b := p.data.getD i 0
      if o.compress then o.setStoredByte (x + i) b else o.setHomeBytes e.mode (Memory.write (o.homeBytes e.mode) (x + i) b)
    let o1 := on.foldl put o
    let poison := if on.length = p.size then poisonAfter o.poison x p.size p.poison
      else if p.poison then poisonAfter o.poison x p.size true else o.poison
    s.setObj e.tenant e.handle (some { o1 with poison := poison })

/-- Apply an atomic operation's payload to a region (R224, R225); one without an enabled byte only carries poison. -/
def State.regionAtomic (s : State) (e : Export) (p : FabPkt) : State :=
  match s.obj e.tenant e.handle with
  | none => s
  | some o =>
    let r := pktRun p
    let x := p.offset - e.base + r.1
    let n := if p.enable = 0 then p.size else r.2.length
    let o1 := o.setHomeBytes e.mode (atomicRun e.operation e.offset (o.homeBytes e.mode) x (r.2.length + 1) r.2)
    s.setObj e.tenant e.handle (some { o1 with poison := if p.poison then poisonAfter o.poison (e.offset + x) n true else o.poison })

/-! ### Effects at the home -/

/-- A load (R214, R235). -/
def homeLoad (s : State) (p : FabPkt) : State :=
  match s.regionFor p p.size with
  | none => s.rejectKey p
  | some (_, e) =>
    if !e.complete ∨ e.revoking.isSome then s.rejectKey p
    else let r := s.regionRead e p.offset p.size; s.answer p .data r.1 r.2

/-- A region turns complete (R236): its object is in use again once none of its regions is incomplete, and the copy writer, told so, holds an
ordinary import with WRITE. How it learns this the spec leaves open: DESIGN CHOICE (log 131), by an owner notice. -/
def State.completeRegion (s : State) (num : Nat) (e : Export) : State :=
  let e1 := { e with complete := true, copyWriter := none, owner := s.fabric.node, epoch := 0 }
  let s1 := s.setExport num (some e1)
  let s2 := match s1.obj e.tenant e.handle with
    | some o => s1.setObj e.tenant e.handle (some { o with incomplete := (s1.exportsOf e.tenant e.handle).any fun x => !x.complete })
    | none => s1
  match e.copyWriter with
  | some w => s2.post w e.tenant e.ctx 0 10 (request e.base e.key (leBytes 4 0) 0)
  | none => s2

/-- A store writes the marker into the last 8 bytes of a region (R236). -/
def marks (e : Export) (p : FabPkt) : Bool :=
  let at_ := e.base + e.length - 8
  p.offset ≤ at_ && at_ + 8 ≤ p.offset + p.size
    && (List.range 8).all (fun i => p.enable.testBit (at_ - p.offset + i)) && fieldAt p.data (at_ - p.offset) 8 == e.marker.toNat

/-- A write applied to a region is recorded where its export's context records fabric inbound (R416). -/
def State.inbound (s : State) (e : Export) (p : FabPkt) : State :=
  let r := pktRun p
  s.recordInbound e p.src (p.offset + r.1) r.2 p.poison

/-- A store, write-back or atomic by what the region is (R214 step 4, R224, R227, R228, R235, R236); `busy`: its line has pending
operations. -/
def homeWrite (s : State) (busy : Bool) (p : FabPkt) : State :=
  match s.regionFor p p.size with
  | none => s.rejectKey p
  | some (num, e) =>
    if !e.complete then
      if e.copyWriter = some p.src then
        let s1 := s.regionWrite { e with mode := 1 } p
        (if marks e p then s1.completeRegion num e else s1).inbound e p |>.acknowledge p
      else s.rejectKey p
    else if e.mode = 0 then
      if e.revoking.isSome ∧ e.owner ≠ p.src then s.rejectKey p
      else if e.owner ≠ p.src ∨ p.ownEpoch ≠ e.epoch then s.rejectOwner p
      else ((s.regionWrite e p).inbound e p).acknowledge p
    else if !e.writers.contains p.src then s.rejectKey p
    else if e.mode = 2 then (((s.regionAtomic e p).countAtomic e.operation busy).inbound e p).acknowledge p
    else ((s.regionWrite e p).inbound e p).acknowledge p

/-- owner := B after the write-backs, the epoch raised by 1; B elsewhere is told, and A hears when B has answered; until then the change can be
undone (R230). An ownership change of no byte only asks whether B may own the region. -/
def homeOwner (s : State) (p : FabPkt) (b : Nat) : State :=
  match s.regionFor p 0 with
  | none => s.rejectKey p
  | some (num, e) =>
    if e.mode ≠ 0 ∨ !e.complete ∨ e.revoking.isSome ∨ !e.mayOwn s.fabric.node b then s.rejectKey p
    else if p.size = 0 then s.acknowledge p
    else if e.owner ≠ p.src ∨ p.ownEpoch ≠ e.epoch then s.rejectOwner p
    else
      let e1 := { e with owner := b, epoch := (e.epoch + 1) % 2 ^ 32 }
      if b = s.fabric.node then (s.setExport num (some e1)).acknowledge p
      else (s.setExport num (some { e1 with handing := some (e.owner, e.epoch), since := s.now })).post b e.tenant e.ctx 0 8 { p with data := leBytes 4 e1.epoch ++ leBytes 2 p.src ++ leBytes 4 p.epoch ++ leBytes 4 p.seq, port := 8 }

/-- A probe (R214, R215): the region's description, the node recorded as a write importer where it asks for WRITE. -/
def homeProbe (s : State) (p : FabPkt) (rights : Nat) : State :=
  let copy := rights.testBit 1
  let write := rights.testBit 0 || copy
  match s.regionFor p 0 with
  | none => s.rejectKey p
  | some (num, e) =>
    let refuse (k : Nat) := s.answer p .importRefused [BitVec.ofNat 8 k] false
    if p.offset ≠ e.base ∨ e.revoking.isSome then s.rejectKey p
    else if (write && e.readOnly) || (copy && e.complete) then refuse 0x44
    else if !e.complete ∧ !copy then refuse 0
    else if write ∧ !e.writers.contains p.src ∧ e.writers.length ≥ 64 then refuse 3
    else if copy ∧ e.copyWriter.isSome then refuse 4
    else
      let e1 := { e with writers := if write ∧ !e.writers.contains p.src then e.writers ++ [p.src] else e.writers,
                         copyWriter := if copy then some p.src else e.copyWriter }
      (s.setExport num (some e1)).answer p .probed
        (leBytes 1 e.mode ++ leBytes 1 e.operation ++ leBytes 2 e.owner ++ leBytes 4 e.epoch ++ leBytes 8 e.length
          ++ leBytes 1 (b2n e.readOnly)) false

/-- A node releases its import (R218). -/
def homeRelease (s : State) (p : FabPkt) : State :=
  match s.regionFor p 0 with
  | none => s.rejectKey p
  | some (num, e) =>
    let e1 := { e with writers := e.writers.filter (· ≠ p.src), copyWriter := if e.copyWriter = some p.src then none else e.copyWriter }
    (s.setExport num (some e1)).acknowledge p

/-- Numbers of the imports of a region. -/
def State.importsOf (s : State) (home base : Nat) : List Nat :=
  s.fabric.imports.filterMap fun e => match e.2 with
    | some i => if i.node = home ∧ i.base = base then some e.1 else none
    | none => none

/-- A home's notice: the region's owner and epoch (Table 10-8 step 4), and to a copy writer that its region is complete (R236). A module that
does not import the region refuses it. -/
def takeNotice (s : State) (p : FabPkt) (owner : Nat) : State :=
  let ns := s.importsOf p.src p.offset
  if ns.isEmpty then s.answer p .keyRejected [] false
  else (ns.foldl (fun (s : State) n => match NMap.get none s.fabric.imports n with
    | some i => s.setImport n (some { i with owner := owner, epoch := p.ownEpoch, copyWriter := false })
    | none => s) s).acknowledge p

/-- The owner writes its dirty lines back, as the home asks, and answers (R216 step 3); a fenced module issues no write-back. -/
def takeWriteBackAsk (s : State) (p : FabPkt) : State :=
  if s.fabric.fenced then s.answer p .fenced [] false
  else
    let one (s : State) (n : Nat) : State :=
      match NMap.get none s.fabric.imports n with
      | some i => (s.regionHandles i.tenant 0 n).foldl (fun s h => s.writeBackAll i.tenant h) s
      | none => s
    ((s.importsOf p.src p.offset).foldl one s).acknowledge p

/-- An operation takes effect at its home; a module whose lease has lapsed answers FENCED (R256). -/
def homeEffect (s : State) (busy : Bool) (q : HomeOp) : State :=
  if s.fabric.st = 3 then s.answer q.pkt .fenced [] false
  else match q.kind with
    | .load => homeLoad s q.pkt
    | .store | .atomic | .writeBack => homeWrite s busy q.pkt
    | .ownerChange => homeOwner s q.pkt q.arg
    | .probe => homeProbe s q.pkt q.arg
    | .release => homeRelease s q.pkt
    | .notice => takeNotice s q.pkt q.arg
    | .writeBackAsk => takeWriteBackAsk s q.pkt

/-! ### Streams and home atomic units (R220, R233, R234, R246) -/

/-- The operation works on a line, so it takes an entry of a home atomic unit. -/
def HomeOp.onLine (q : HomeOp) : Bool :=
  match q.kind with
  | .load | .store | .atomic | .writeBack => true
  | _ => false

/-- Virtual channel an operation came on (Table 11-1). -/
def HomeKind.channel : HomeKind → Nat
  | .atomic => 2
  | _ => 0

/-- Bytes a packet takes. -/
def pktBytes (p : FabPkt) : Nat := 32 + roundUp p.data.length 32

/-- A packet leaves the ingress buffer it lay in (R233, R243). -/
def State.leaveIngress (s : State) (kind : HomeKind) (p : FabPkt) : State := s.freeIngress p.port kind.channel (ceilDiv (pktBytes p) 32)

/-- The stream from a node as its destination holds it. -/
def State.intoOf (s : State) (src epoch : Nat) : StreamIn :=
  (NMap.get none s.fabric.into src).getD { epoch := epoch, next := 0, reorder := [] }
def State.setInto (s : State) (src : Nat) (x : StreamIn) : State :=
  { s with fabric := { s.fabric with into := NMap.set none s.fabric.into src (some x) } }

/-- Apply an operation: it takes the entry of its line (R234), leaves its ingress buffer, and its stream goes on behind it. -/
def applyHome (s : State) (q : HomeOp) : State :=
  let s1 := s.leaveIngress q.kind q.pkt
  let s2 := if q.onLine then homeEffect (s1.absorb (homeUnitOf q.pkt.offset) (q.pkt.offset / 64)) (s1.lineBusy q.pkt.offset) q
    else homeEffect s1 false q
  s2.setInto q.pkt.src { s2.intoOf q.pkt.src q.pkt.epoch with next := (q.pkt.seq + 1) % 2 ^ 32 }

/-- Apply the next operation of its stream, or hold it in its ingress buffer for a free entry (R233); true where it was applied. -/
def takeHome (s : State) (q : HomeOp) : State × Bool :=
  let u := homeUnitOf q.pkt.offset
  if !q.onLine || s.lineBusy q.pkt.offset || ((s.entries u).length < 64 && (NMap.get [] s.fabric.waiting u).isEmpty) then (applyHome s q, true)
  else ({ s with fabric := { s.fabric with waiting := NMap.set [] s.fabric.waiting u (NMap.get [] s.fabric.waiting u ++ [q]) } }, false)

/-- Operations behind a gap that has filled follow (R220). -/
def drainReorder : Nat → Nat → State → State
  | 0, _, s => s
  | k + 1, src, s =>
    let x := s.intoOf src 0
    match x.reorder.find? fun q => q.pkt.seq = x.next with
    | none => s
    | some q =>
      match takeHome (s.setInto src { x with reorder := x.reorder.filter fun r => r.pkt.seq ≠ q.pkt.seq }) q with
      | (s1, true) => drainReorder k src s1
      | (s1, false) => s1

/-- Bytes in the reorder store (R246). -/
def State.reorderBytes (s : State) : Nat :=
  s.fabric.into.foldl (fun a e => match e.2 with | some x => x.reorder.foldl (fun a q => a + pktBytes q.pkt) a | none => a) 0

/-- The same operation already waits for an entry. -/
def State.heldAtUnit (s : State) (p : FabPkt) : Bool :=
  s.fabric.waiting.any fun e => e.2.any fun q => q.pkt.src = p.src && q.pkt.seq = p.seq

/-- The home's side of a stream for a packet of epoch `p.epoch`: a newer epoch drops the state of the old (R220). -/
def State.openStream (s : State) (p : FabPkt) : State :=
  let x := s.intoOf p.src p.epoch
  if x.epoch = p.epoch then s.setInto p.src x
  else if seqDist x.epoch p.epoch < 2 ^ 31 then
    let s1 := s.setInto p.src { epoch := p.epoch, next := 0, reorder := [] }
    let keep (e : Nat × List HomeOp) : Option (Nat × List HomeOp) :=
      let l := e.2.filter fun q => q.pkt.src ≠ p.src
      if l.isEmpty then none else some (e.1, l)
    { s1 with fabric := { s1.fabric with waiting := s1.fabric.waiting.filterMap keep } }
  else s

/-- A packet of a member reaches its home: its place in the stream (R220, R246). It leaves its ingress buffer unless it waits there for an
entry. -/
def sequence (kind : HomeKind) (arg : Nat) (p : FabPkt) (s : State) : State :=
  let s0 := s.openStream p
  let x := s0.intoOf p.src p.epoch
  let q : HomeOp := { kind := kind, pkt := p, arg := arg, at_ := s.now }
  let d := seqDist x.next p.seq
  let out (s : State) : State := s.leaveIngress kind p
  if x.epoch ≠ p.epoch then out s
  else if d ≥ 2 ^ 31 then
    ((out s0).bump (aWF 0x018) 1).send { node := p.src, kind := .ack, number := (x.next + 2 ^ 32 - 1) % 2 ^ 32, epoch := x.epoch, data := [], poison := false }
  else if d = 0 then
    if s0.heldAtUnit p then out s0
    else match takeHome s0 q with
      | (s1, true) => drainReorder (x.reorder.length + 1) p.src s1
      | (s1, false) => s1
  else if x.reorder.any fun r => r.pkt.seq = p.seq then out s0
  else if s0.reorderBytes + pktBytes p > 65536 then (out s0).bump (aWF 0x830) 1
  else (out s0).setInto p.src { x with reorder := x.reorder ++ [{ q with pkt := { p with port := 8 } }] }

/-- A packet reaches this module: the partition check comes first (R214, R252). -/
def arrive (kind : HomeKind) (arg : Nat) (p : FabPkt) (s : State) : State :=
  if !s.variant.fabric || s.fabric.st = 0 then s
  else if NMap.get false s.fabric.members p.src then sequence kind arg p s
  else (s.leaveIngress kind p).bump (aWF 0x810) 1

/-- FABRIC_LOAD. -/
def execFabricLoad (p : FabPkt) (s : State) : Host.Outcome State Fault Refusal := .next (arrive .load 0 p s)
/-- FABRIC_STORE. -/
def execFabricStore (p : FabPkt) (s : State) : Host.Outcome State Fault Refusal := .next (arrive .store 0 p s)
/-- FABRIC_ATOMIC. -/
def execFabricAtomic (p : FabPkt) (s : State) : Host.Outcome State Fault Refusal := .next (arrive .atomic 0 p s)
/-- WRITE_BACK. -/
def execWriteBack (p : FabPkt) (s : State) : Host.Outcome State Fault Refusal := .next (arrive .writeBack 0 p s)
/-- OWNER_CHANGE. -/
def execOwnerChange (p : FabPkt) (owner : Nat) (s : State) : Host.Outcome State Fault Refusal := .next (arrive .ownerChange owner p s)
/-- PROBE. -/
def execProbe (p : FabPkt) (rights : Nat) (s : State) : Host.Outcome State Fault Refusal := .next (arrive .probe rights p s)
/-- IMPORT_RELEASE_NOTICE. -/
def execImportReleaseNotice (p : FabPkt) (s : State) : Host.Outcome State Fault Refusal := .next (arrive .release 0 p s)

/-- OWNER_NOTICE: an operation of the home's stream to this module. -/
def execOwnerNotice (p : FabPkt) (base epoch owner : Nat) (s : State) : Host.Outcome State Fault Refusal :=
  .next (arrive .notice owner { p with offset := base, ownEpoch := epoch } s)
/-- WRITE_BACK_REQUEST: an operation of the home's stream to this module. -/
def execWriteBackRequest (p : FabPkt) (base : Nat) (s : State) : Host.Outcome State Fault Refusal :=
  .next (arrive .writeBackAsk 0 { p with offset := base } s)

/-- A held operation is applied, what waits behind it in its stream follows; the time it was held is counted (R233). -/
def admitHeld (s : State) (unit : Nat) (q : HomeOp) : State :=
  let rest := (NMap.get [] s.fabric.waiting unit).erase q
  let s1 := { s with fabric := { s.fabric with waiting := NMap.set [] s.fabric.waiting unit rest } }
  let s2 := applyHome (s1.bump (aWF 0x040) ((s.now - q.at_) / 4)) q
  drainReorder ((s2.intoOf q.pkt.src q.pkt.epoch).reorder.length + 1) q.pkt.src s2

/-- A held operation takes a freed entry of its unit (R233). -/
def homeEntryAdmit (unit : Nat) (s : State) : State :=
  match NMap.get [] s.fabric.waiting unit with
  | [] => s
  | q :: _ => if s.lineBusy q.pkt.offset || (s.entries unit).length < 64 then admitHeld s unit q else s

/-- HOME_ENTRY_ADMIT. -/
def execHomeEntryAdmit (unit : Nat) (s : State) : Host.Outcome State Fault Refusal := .next (homeEntryAdmit unit s)

/-! ### Revocations that take effect (R216, R158) -/

/-- Operations of a region that are already sequenced, held for an entry, are applied before its revocation (R216 step 2). -/
def State.revokeRegion (s : State) (num id : Nat) : State :=
  match NMap.get none s.fabric.exports num with
  | none => s
  | some e =>
    let held := s.fabric.waiting.flatMap fun u => (u.2.filter fun q => e.base ≤ q.pkt.offset && q.pkt.offset < e.base + e.length).map fun q => (u.1, q)
    (held.foldl (fun s x => admitHeld s x.1 x.2) s).revoke num id

/-- What a REGION_REVOKE of an export does when it is accepted (R216). -/
def revokeAccepted (s : State) (c : Cmd) : State :=
  if c.p 0 1 = 0 then (s.revokeRegion (c.p 2 2) c.id).setCmd { c with since := s.now, result := [0] } else s

/-- FREE (R158, R218). -/
def runFree (s : State) (c : Cmd) : State :=
  let c := { c with stage := .waiting, since := s.now, fence := if freeBehind s c then [(0, 0)] else [] }
  settleFree ((s.exportNums c.tenant (refHandle (c.p 0 8))).foldl (fun s n => s.revokeRegion n c.id) (s.setCmd c)) c

/-- FREE. -/
def execOpFree (id : Nat) (s : State) : Host.Outcome State Fault Refusal := .next (runTier 0x1002 checkFree runFree id s)

/-! ### At the requester: acknowledgements, refusals, resends (R220–R223) -/

/-- An outstanding operation has been answered: a write-back request ends its revocation (R216), an owner notice its hand-over, and where another
node asked for that it is passed on to it (Table 10-8 step 5). -/
def answered (s : State) (o : Outstanding) : State :=
  if o.kind = 7 then s.dropExport (fieldAt o.pkt.data 0 8)
  else if o.kind = 8 then
    let s1 := match s.regionAt o.offset with
      | some (n, e) => s.setExport n (some { e with handing := none })
      | none => s
    if o.cmd = 0 then
      s1.send { node := fieldAt o.pkt.data 4 2, kind := .ack, number := fieldAt o.pkt.data 10 4, epoch := fieldAt o.pkt.data 6 4, data := [], poison := false }
    else s1
  else s

/-- ACKNOWLEDGEMENT: every operation of the stream up to `seq` is done, but for loads and probes, which wait for their responses. -/
def acknowledgement (node epoch seq : Nat) (s : State) : State :=
  s.fromMember node fun s => match NMap.get none s.fabric.out node with
    | none => s
    | some st =>
      if st.epoch ≠ epoch then s
      else
        let gone (o : Outstanding) : Bool := o.kind ≠ 4 && o.kind ≠ 9 && seqCovered seq o.seq
        let st1 := { st with pending := st.pending.filter fun o => !gone o, acked := seq, lastAck := s.now }
        ((st.pending.filter gone).foldl answered (s.setOut node (some st1))).settle

/-- ACKNOWLEDGEMENT. -/
def execAcknowledgement (node epoch seq : Nat) (s : State) : Host.Outcome State Fault Refusal := .next (acknowledgement node epoch seq s)

/-- A refused operation (R217, R223): a load's reader fails, a probe's REGION_IMPORT and a transfer's ownership change end; a new owner that
refuses its notice has not taken the region (R230 item 5); of a posted store, atomic or signal a command that still runs ends with TIER_FAILED,
else the refusal is held. A refused write-back is lost (R217). -/
def refused (s : State) (o : Outstanding) (kind : RefusalKind) : State :=
  let cause := match kind with | .fenced => 0x23 | _ => 0x13
  if o.kind = 9 then s.readFails o cause
  else if o.kind = 4 then s.answerFor o { (default : FabAnswer) with kind := match kind with | .fenced => .fenced | _ => .keyRejected }
  else if o.kind = 3 then
    match s.cmd? o.cmd with
    | some c =>
      if c.stage ≠ .waiting then s
      else match kind with
        | .keyRejected => s.finish c.id stShape [0x46]
        | .notOwner => s.finish c.id stNotOwner []
        | .fenced => s.finish c.id stFenced []
    | none => s
  else if o.kind = 8 then
    let s1 := match s.regionAt o.offset with
      | some (n, _) => s.undoHanding n
      | none => s
    match s1.cmd? o.cmd with
    | some c => if c.stage = .waiting then s1.finish c.id stUnreachable [] else s1
    | none => s1
  else if o.kind ≤ 1 ∨ o.kind = 6 then
    match s.cmd? o.cmd with
    | some c => if c.stage = .started ∨ c.stage = .waiting then s.failRunning c (stTierFailed, leBytes 1 cause) else s.holdRefusal o.tenant o.ctx kind
    | none => s.holdRefusal o.tenant o.ctx kind
  else s

/-- REFUSAL. -/
def refusal (node epoch seq : Nat) (kind : RefusalKind) (s : State) : State :=
  s.fromMember node fun s => match NMap.get none s.fabric.out node with
    | none => s
    | some st =>
      if st.epoch ≠ epoch then s
      else
        let st1 := { st with pending := st.pending.filter fun o => o.seq ≠ seq, lastAck := s.now }
        ((st.pending.filter fun o => o.seq = seq).foldl (fun s o => refused s o kind) (s.setOut node (some st1))).settle

/-- REFUSAL. -/
def execRefusal (node epoch seq : Nat) (kind : RefusalKind) (s : State) : Host.Outcome State Fault Refusal :=
  .next (refusal node epoch seq kind s)

/-- Virtual channel of an outstanding operation (Table 11-1): a resend keeps it (R242). -/
def Outstanding.channel (o : Outstanding) : Nat := if o.kind = 1 then 2 else if o.kind = 6 then 3 else 0

/-- Send an outstanding operation again, by the same number (R220). -/
def State.sendAgain (s : State) (node : Nat) (o : Outstanding) : State :=
  let m : Sent := { node := node, kind := .resent, number := o.seq, epoch := o.pkt.epoch, data := o.pkt.data, poison := o.pkt.poison }
  let s1 := { s with fabric := { s.fabric with sent := m :: s.fabric.sent } }
  if node = s.fabric.node then s1.loopIn (.op o) else s1.launch o.channel node o.pkt.data.length

/-- RESEND: every operation left unacknowledged for 200 µs is sent again (R220). -/
def resend (node : Nat) (s : State) : State :=
  match NMap.get none s.fabric.out node with
  | none => s
  | some st =>
    let late (o : Outstanding) : Bool := s.now ≥ o.sentAt + usec 200
    let n := st.pending.countP late
    if n = 0 ∨ s.fabric.st = 3 then s
    else
      let st1 := { st with pending := st.pending.map fun o => if late o then { o with sentAt := s.now } else o }
      (st.pending.filter late).foldl (fun (s : State) o => s.sendAgain node o) ((s.setOut node (some st1)).bump (aWF 0x020) n)

/-- RESEND. -/
def execResend (node : Nat) (s : State) : Host.Outcome State Fault Refusal := .next (resend node s)

/-- A context's outstanding operations to a node count as unreachable. -/
def State.loseNode (s : State) (t c node : Nat) : State :=
  let x := s.ctx t c
  if x.lost.contains node then s else s.setCtx t c { x with lost := x.lost ++ [node] }

/-- The waits of a FENCE or transfer on a broken stream can end only at their limit. -/
def State.breakWaits (s : State) (node : Nat) : State :=
  { s with cmds := s.cmds.map fun c =>
      if c.stage = .waiting then { c with fence := c.fence.map fun e => if e.1 = node ∧ !s.covered e then (node, 2 ^ 32) else e } else c }

/-- STREAM_BREAK: 10 ms without an acknowledgement; the stream restarts with a new epoch, and its outstanding operations, loads among them, count
as unreachable (R220). Where the stream goes on, a load unanswered for 10 ms ends its reader all the same (R175). -/
def streamBreak (node : Nat) (s : State) : State :=
  match NMap.get none s.fabric.out node with
  | none => s
  | some st =>
    if st.pending.isEmpty ∨ s.now < st.lastAck + msec 10 then
      let old (o : Outstanding) : Bool := o.kind = 9 && s.now ≥ o.issuedAt + msec 10
      if st.pending.any old then
        (st.pending.filter old).foldl (fun (s : State) o => s.readFails o 3) (s.setOut node (some { st with pending := st.pending.filter fun o => !old o }))
      else s
    else
      let s1 := s.breakWaits node
      let s2 := (st.pending.filter fun o => o.kind ≤ 1 ∨ o.kind = 6).foldl (fun s o => s.loseNode o.tenant o.ctx node) s1
      let s3 := s2.setOut node (some { epoch := (st.epoch + 1) % 2 ^ 32, next := 0, acked := 0, pending := [], lastAck := s.now })
      (st.pending.filter fun o => o.kind = 9).foldl (fun (s : State) o => s.readFails o 3) s3

/-- STREAM_BREAK. -/
def execStreamBreak (node : Nat) (s : State) : Host.Outcome State Fault Refusal := .next (streamBreak node s)

/-- A revocation's owner has not answered for 10 ms: what it held dirty is lost, result byte 0x01 (R216). Number 0 names those of function-level
resets (R218). -/
def revokeWriteBackTimeout (id : Nat) (s : State) : State :=
  let nums := s.fabric.exports.filterMap fun e => match e.2 with
    | some x => if x.revoking = some id ∧ s.now ≥ x.since + msec 10 then some e.1 else none
    | none => none
  if nums.isEmpty then s
  else
    let s1 := match s.cmd? id with
      | some c => s.setCmd { c with result := if c.opcode = 0x4003 then [1] else c.result }
      | none => s
    (nums.foldl (fun s n => s.dropExport n) s1).settle

/-- REVOKE_WRITE_BACK_TIMEOUT. -/
def execRevokeWriteBackTimeout (id : Nat) (s : State) : Host.Outcome State Fault Refusal := .next (revokeWriteBackTimeout id s)

end Sys2Proof.Machine
end

