-- ==== Sys2Proof/Machine/Tokens.lean ====
section
/-! DEFINITION. Tokens (R178–R184). -/
namespace Sys2Proof.Machine

/-- Count of a tenant's token. -/
def State.token (s : State) (t k : Nat) : Nat := NMap.get 0 (s.tenant t).tokens k
def State.setToken (s : State) (t k n : Nat) : State :=
  s.setTenant t { s.tenant t with tokens := NMap.set 0 (s.tenant t).tokens k n }

/-- A signal adds `n`; a count stays at 65,535 and the excess is counted in the east die's DP_TOKEN_SAT (R178, R180). -/
def State.signalToken (s : State) (t k n : Nat) : State :=
  let v := s.token t k + n
  let s1 := s.setToken t k (min v 65535)
  if v > 65535 then s1.bump (aDP 0 0x030) (v - 65535) else s1

/-- Need of a token: how often it appears in the wait list (R179). -/
def Cmd.needOf (c : Cmd) (k : Nat) : Nat := c.waits.count k

/-- Every token it waits on has a count at least equal to its need (R179). -/
def State.tokensReady (s : State) (c : Cmd) : Bool := c.waits.all fun k => c.needOf k ≤ s.token c.tenant k

/-- Subtract every need in one action (R179). -/
def State.takeTokens (s : State) (c : Cmd) : State := c.waits.foldl (fun s k => s.setToken c.tenant k (s.token c.tenant k - 1)) s

/-- A command that has started signals each of its tokens once (R181). -/
def State.giveSignals (s : State) (c : Cmd) : State := c.signals.foldl (fun s k => s.signalToken c.tenant k 1) s

/-! ### TOKEN_SIGNAL (R183) -/

def resvTokenSignal (_ : State) (c : Cmd) : Bool := zeroAt c.params 1 15
def checkTokenSignal (_ : State) (c : Cmd) : Option Fail := firstFail [need (c.p 0 1 ≠ 0) stShape 0x40]

/-- TOKEN_SIGNAL: the increment goes to each of its signal tokens in place of the signal of R181. -/
def runTokenSignal (s : State) (c : Cmd) : State :=
  let s1 := c.signals.foldl (fun s k => s.signalToken c.tenant k (c.p 0 1)) s
  (s1.setCmd { c with signals := [] }).ok c.id []

/-- TOKEN_SIGNAL. -/
def execOpTokenSignal (id : Nat) (s : State) : Host.Outcome State Fault Refusal := .next (runCoreless 0x3001 checkTokenSignal runTokenSignal id s)

/-! ### TOKEN_WAIT (R184) -/

def resvTokenWait (_ : State) (c : Cmd) : Bool := zeroAt c.params 4 12
def checkTokenWait (_ : State) (c : Cmd) : Option Fail := firstFail [need (c.p 0 4 ≤ 10000000) stShape 0x40]

/-- The limit of a TOKEN_WAIT has passed. -/
def State.waitOver (s : State) (c : Cmd) : Bool := c.opcode = 0x3002 && c.p 0 4 ≠ 0 && s.now ≥ c.acceptedAt + usec (c.p 0 4)

/-- TOKEN_WAIT, granted within its limit: the nanoseconds from acceptance to grant. -/
def runTokenWait (s : State) (c : Cmd) : State := s.ok c.id (leBytes 8 ((c.since - c.acceptedAt) / 4))

/-- TOKEN_WAIT. -/
def execOpTokenWait (id : Nat) (s : State) : Host.Outcome State Fault Refusal := .next (runCoreless 0x3002 checkTokenWait runTokenWait id s)

/-- A TOKEN_WAIT reaches its limit: it takes no count and signals nothing. -/
def tokenWaitTimeout (id : Nat) (s : State) : State :=
  match s.cmd? id with
  | some c => if c.stage = .accepted ∧ s.waitOver c then (s.setCmd { c with signals := [] }).finish id stWaitTimeout [] else s
  | none => s

/-- TOKEN_WAIT_TIMEOUT. -/
def execTokenWaitTimeout (id : Nat) (s : State) : Host.Outcome State Fault Refusal := .next (tokenWaitTimeout id s)

end Sys2Proof.Machine
end

