-- ==== Sys2Proof/Machine/Links.lean ====
section
/-! DEFINITION. Partitions, leases, ports and frames of the Wyrraop fabric (11), and receive signals (R267). -/
namespace Sys2Proof.Machine

/-! ### Fencing (R253, R256) -/

/-- Commands that wait on the fabric when it fences itself end with FENCED (R232, R256). -/
def fenceWaits (s : State) : State :=
  (s.cmds.filter fun c => c.stage = .waiting).foldl (fun s c =>
    if c.opcode = 0x3003 then settleFence s c
    else if c.opcode = 0x4002 ∨ c.opcode = 0x4004 then s.finish c.id stFenced []
    else s) s

/-- The module fences itself: reads under way end their commands with TIER_FAILED 0x23, and so do commands that wait on the fabric. -/
def State.fenceSelf (s : State) : State :=
  let loads := s.pendingOf fun o => o.kind = 9
  let s1 := s.keepPending fun o => o.kind ≠ 9
  fenceWaits (loads.foldl (fun (s : State) o => s.readFails o 0x23) { s1 with fabric := { s1.fabric with fenced := true } })

/-- LEASE_EXPIRY: the module's lease has passed (R256); posted operations not acknowledged are held for their contexts' next FENCE. -/
def leaseExpiry (s : State) : State :=
  match s.fabric.expiry with
  | some t =>
    if s.fabric.st = 1 ∧ !s.fabric.fenced ∧ s.now ≥ t then
      let s1 := { s with fabric := { s.fabric with st := 3 } }.fenceSelf
      s1.holdOpen.keepPending fun _ => false
    else s
  | none => s

/-- LEASE_EXPIRY. -/
def execLeaseExpiry (s : State) : Host.Outcome State Fault Refusal := .next (leaseExpiry s)

/-! ### LEASE_SET (R254, R255) -/

/-- Reserved fields of LEASE_SET; the key is zero on entries M and P (Table 11-6). -/
def resvLeaseSet (_ : State) (c : Cmd) : Bool := zeroAt c.params 12 4 && zeroAt c.params 26 6 && (c.entry = .remote || c.p 16 8 = 0)

def lsTarget (c : Cmd) : Nat := c.p 24 2

/-- The packet is for another module (R254). -/
def lsForwards (s : State) (c : Cmd) : Bool := c.entry = .pf && lsTarget c ≠ 0xFFFF && lsTarget c ≠ s.fabric.node

/-- A detach is under way: its revocations have not all completed. -/
def State.detaching (s : State) : Bool :=
  s.fabric.st ≠ 0 && s.cmds.any fun d => d.opcode = 0x4021 && d.p 0 1 = 2 && d.stage ≠ .done

/-- The lease had lapsed when the packet was accepted, or the module is leaving its partition. -/
def leaseLapsed (s : State) (c : Cmd) : Bool :=
  s.fabric.st = 3 || s.detaching || (match s.fabric.expiry with | some t => c.acceptedAt ≥ t | none => false)

/-- Checks of LEASE_SET: those of R255 for this module, joined and not fenced to forward. -/
def checkLeaseSet (s : State) (c : Cmd) : Option Fail :=
  let target := match c.entry with
    | .remote => decide (lsTarget c = s.fabric.node)
    | .pf => true
    | _ => decide (lsTarget c = 0xFFFF)
  if lsForwards s c then firstFail [(s.fabric.st = 1 && !s.fabric.fenced, (stFenced, []))]
  else firstFail
    [ need (1000 ≤ c.p 8 4 && c.p 8 4 ≤ 60000000 && target) stShape 0x4B,
      need (s.fabric.st = 0 || s.fabric.leased) stShape 0x4C,
      (c.entry ≠ .remote || c.p 16 8 == s.fabric.leaseKey.toNat, (stKeyRejected, [])),
      (s.fabric.st ≠ 0 && !leaseLapsed s c, (stFenced, [])) ]

/-- A LEASE_SET packet as it goes to its target: with the join's lease key in its key field, and sealed (Tables 2-2, 2-3, 11-6). -/
def forwardedLease (s : State) (c : Cmd) : List Byte :=
  let body := leBytes 2 0x4020 ++ leBytes 1 0x10 ++ leBytes 1 c.flags ++ leBytes 2 4 ++ leBytes 2 c.tag ++ leBytes 8 0
    ++ c.params.take 16 ++ leBytes 8 s.fabric.leaseKey.toNat ++ c.params.drop 24 ++ leBytes 8 0 ++ leBytes 2 c.tag ++ leBytes 2 0
  body ++ leBytes 4 (crc32c body)

/-- LEASE_SET starts: forwarded to its target, or applied; a key that differs is counted (R255 item 3). -/
def runLeaseSet (s : State) (c : Cmd) : State :=
  if lsForwards s c then
    (s.setCmd { c with stage := .waiting, since := s.now }).send
      { node := lsTarget c, kind := .lease, number := c.id, epoch := 0, data := forwardedLease s c, poison := false }
  else if (s.fabric.leaseSeq.map fun n => decide (c.p 0 8 ≤ n)).getD false then s.ok c.id [1]
  else
    let s1 := { s with fabric := { s.fabric with
      expiry := some (c.acceptedAt + usec (c.p 8 4)), leaseSeq := some (c.p 0 8), fenced := false, st := 1 } }
    s1.ok c.id [0]

/-- A LEASE_SET of entry W that has just ended because its key differs is counted in WF_LEASE_REJECT. -/
def countLease (id : Nat) (before s : State) : State :=
  match before.cmd? id, s.cmd? id with
  | some c, some d =>
    if c.opcode = 0x4020 ∧ c.entry = .remote ∧ c.stage ≠ .done ∧ d.stage = .done ∧ d.status = stKeyRejected then s.bump (aWF 0x820) 1 else s
  | _, _ => s

/-- LEASE_SET. -/
def execOpLeaseSet (id : Nat) (s : State) : Host.Outcome State Fault Refusal :=
  .next (countLease id s (runCoreless 0x4020 checkLeaseSet runLeaseSet id s))

/-- A forwarded LEASE_SET got no answer within 10 ms (R254). -/
def leaseForwardTimeout (id : Nat) (s : State) : State :=
  match s.cmd? id with
  | some c => if c.opcode = 0x4020 ∧ c.stage = .waiting ∧ s.now ≥ c.since + msec 10 then s.finish id stUnreachable [] else s
  | none => s

/-- LEASE_FORWARD_TIMEOUT. -/
def execLeaseForwardTimeout (id : Nat) (s : State) : Host.Outcome State Fault Refusal := .next (leaseForwardTimeout id s)

/-! ### PARTITION_SET (R247–R251, R253) -/

def psAction (c : Cmd) : Nat := c.p 0 1
def psLeased (c : Cmd) : Bool := (c.p 1 1).testBit 0

/-- Reserved fields of PARTITION_SET: those the action does not use among them (Table 11-3). -/
def resvPartitionSet (_ : State) (c : Cmd) : Bool :=
  psAction c ≤ 2 && c.p 1 1 < 2 && zeroAt c.params 12 4
    && (psAction c = 0 || (zeroAt c.params 1 11 && zeroAt c.params 24 8))
    && ((psAction c ≠ 2 && c.entry ≠ .mgmt) || c.p 16 8 = 0)

/-- Bytes of a partition image. -/
def imageLength : Nat := 139328

/-- The image: host memory on entry P, the WF_IMAGE window on entry M. -/
def State.imageBytes (s : State) (c : Cmd) : List Byte :=
  if c.entry = .mgmt then Memory.readN s.fabric.image 0 imageLength else Memory.readN (s.hostMem 0) (c.p 16 8) imageLength

/-- The image read meets poison or a host that is gone. -/
def State.imageBad (s : State) (c : Cmd) : Bool :=
  c.entry ≠ .mgmt && (!s.link.up || (List.range (imageLength / 64)).any fun i => NMap.get false s.hostPoison (hostLine 0 (c.p 16 8 + 64 * i)))

/-- Members, neighbours and route masks of an image. -/
def imgMember (a : Array Byte) (n : Nat) : Bool := (a.getD (64 + n / 8) 0).toNat.testBit (n % 8)
def imgHalf (a : Array Byte) (o : Nat) : Nat := (a.getD o 0).toNat + 256 * (a.getD (o + 1) 0).toNat
def imgNode (a : Array Byte) (p : Nat) : Nat := imgHalf a (32 + 2 * p)
def imgRank (a : Array Byte) (p : Nat) : Nat := imgHalf a (48 + 2 * p)
def imgRoute (a : Array Byte) (d cls : Nat) : Nat := (a.getD (8256 + 2 * d + cls) 0).toNat

/-- Format, length, CRC and header of an image; `node …` are what its header must equal (Table 11-5 check 4). -/
def imageHeader (img : List Byte) (node part epoch rank : Nat) : Bool :=
  fieldAt img 0 4 == 1 && fieldAt img 4 4 == imageLength && fieldAt img 24 4 == crc32c (img.take 24 ++ leBytes 4 0 ++ img.drop 28)
    && fieldAt img 8 2 == node && fieldAt img 10 2 == part && fieldAt img 12 4 == epoch && fieldAt img 16 2 == rank
    && zeroAt img 19 5 && zeroAt img 28 4

/-- Members of an image as a map. -/
def imgMembers (a : Array Byte) : NMap Bool := ((List.range 65536).filter (imgMember a)).map fun n => (n, true)
/-- Route masks of an image as a map. -/
def imgRoutes (a : Array Byte) : NMap Nat :=
  ((List.range 131072).filter fun k => a.getD (8256 + k) 0 ≠ 0).map fun k => (k, (a.getD (8256 + k) 0).toNat)

/-- R248 and R249 on one entry: only used ports; a class-1 entry only down ports; nothing for the module itself. -/
def routeOk (a : Array Byte) (node rank d cls : Nat) : Bool :=
  let m := imgRoute a d cls
  !imgMember a d || (if d = node then m = 0
    else (List.range 8).all fun p => !m.testBit p || (imgNode a p ≠ 0xFFFF && (cls = 0 || imgRank a p > rank)))

/-- The first entry that breaks R248 or R249: node and class. -/
def badRoute (a : Array Byte) (node rank : Nat) : Option (Nat × Nat) :=
  (List.range 131072).findSome? fun k => if routeOk a node rank (k / 2) (k % 2) then none else some (k / 2, k % 2)

/-- Node, partition, epoch and rank the image's header must equal: the parameters of a join, the values now for routes. -/
def imageIdentity (s : State) (c : Cmd) : Nat × Nat × Nat × Nat :=
  if psAction c = 0 then (c.p 2 2, c.p 4 2, c.p 8 4, c.p 6 2) else (s.fabric.node, s.fabric.partition, s.fabric.epoch, s.fabric.rank)

/-- Checks of PARTITION_SET (R461, Table 11-5). -/
def checkPartitionSet (s : State) (c : Cmd) : Option Fail :=
  let join := psAction c = 0
  let early := firstFail
    [ need (c.p 16 8 % 64 = 0) stShape 0x0F,
      need (!join || (c.p 2 2 ≠ 0xFFFF && c.p 6 2 ≠ 0xFFFF && (psLeased c = (c.p 24 8 ≠ 0)))) stShape 0x47,
      need (if join then s.fabric.st = 0 else s.fabric.st ≠ 0 && !s.detaching) stNoResources 6 ]
  if early.isSome ∨ psAction c = 2 then early
  else if s.imageBad c then some (stTierFailed, [4])
  else
    let img := s.imageBytes c
    let a := img.toArray
    let d := imageIdentity s c
    let used := (List.range 8).filter fun p => imgNode a p ≠ 0xFFFF
    firstFail
      [ need (imageHeader img d.1 d.2.1 d.2.2.1 d.2.2.2 && (join || imgMembers a == s.fabric.members)) stShape 0x48,
        need (imgMember a d.1 && used.all fun p => imgMember a (imgNode a p) && imgRank a p ≠ d.2.2.2) stShape 0x49 ]
    <|> (match badRoute a d.1 d.2.2.2 with
      | some (n, k) => some (stShape, [0x4A, 0, 0, 0] ++ leBytes 2 n ++ leBytes 1 k)
      | none => none)

/-- A port in training presents the module's node, partition, epoch and rank to its neighbour (R251). -/
def State.present (s : State) (p : Nat) : State :=
  let f := s.fabric
  let m : Sent := { node := p, kind := .presented, number := 0, epoch := f.epoch,
                    data := leBytes 2 f.node ++ leBytes 2 f.partition ++ leBytes 4 f.epoch ++ leBytes 2 f.rank, poison := false }
  { s with fabric := { f with sent := m :: f.sent } }

/-- Everything a join takes from its parameters and its image (R251); ports start training. -/
def runJoin (s : State) (c : Cmd) : State :=
  let a := (s.imageBytes c).toArray
  let used := (List.range 8).filter fun p => imgNode a p ≠ 0xFFFF
  let nb : NMap (Option (Nat × Nat)) := used.map fun p => (p, some (imgNode a p, imgRank a p))
  let fab := { s.fabric with
    st := if psLeased c then 2 else 1, leased := psLeased c, fenced := psLeased c, node := c.p 2 2, partition := c.p 4 2, rank := c.p 6 2,
    epoch := c.p 8 4, leaseKey := BitVec.ofNat 64 (c.p 24 8), expiry := none, leaseSeq := none, members := imgMembers a, routes := imgRoutes a,
    neighbours := nb, parent := (a.getD 18 0).toNat, out := [], into := [], waiting := [], units := [], lines := [], loop := [], paths := [],
    ports := used.map fun p => (p, { WfPort.init with st := 1, since := s.now }) }
  (used.foldl (fun (s : State) p => (s.pulse (31 + p)).present p) { s with fabric := fab }).ok c.id (leBytes 1 used.length)

/-- New route tables, taken between two packets (R251). -/
def runRoutes (s : State) (c : Cmd) : State :=
  let a := (s.imageBytes c).toArray
  { s with fabric := { s.fabric with routes := imgRoutes a } }.ok c.id []

/-- What a detach does when it is accepted (R253): the module fences itself, every export is revoked, every import is dead. Streams and ports go
once the revocations have completed (Table 11-8), at once where none waits for an owner's write-back. -/
def detachAccepted (s : State) (c : Cmd) : State :=
  let s0 := s.fenceSelf.setCmd { c with since := s.now }
  let s1 := (s0.fabric.exports.map Prod.fst).foldl (fun s n => s.revokeRegion n c.id) s0
  let dead (e : Nat × Option Import) : Nat × Option Import := (e.1, e.2.map fun i => { i with dead := true })
  let s2 := { s1 with fabric := { s1.fabric with imports := s1.fabric.imports.map dead } }
  if s2.fabric.exports.isEmpty then s2.leavePartition else s2

/-- The check of a started PARTITION_SET: a detach was judged when it took effect. -/
def checkPartitionStart (s : State) (c : Cmd) : Option Fail := if psAction c = 2 then none else checkPartitionSet s c

/-- PARTITION_SET starts; a detach waits until every revocation has completed. -/
def runPartitionSet (s : State) (c : Cmd) : State :=
  match psAction c with
  | 0 => runJoin s c
  | 1 => runRoutes s c
  | _ => if s.fabric.exports.isEmpty then (if s.fabric.st = 0 then s else s.leavePartition).ok c.id [] else s.await c.id

/-- PARTITION_SET. -/
def execOpPartitionSet (id : Nat) (s : State) : Host.Outcome State Fault Refusal :=
  .next (runCoreless 0x4021 checkPartitionStart runPartitionSet id s)

/-! ### Ports (R241, R243, R251) -/

/-- The image uses the port. -/
def State.portUsed (s : State) (p : Nat) : Bool := (NMap.get none s.fabric.neighbours p).isSome

/-- Fencing cause of what a neighbour presents (Table 11-12). -/
def fencingCause (s : State) (p : Nat) (n : Neighbour) : Nat :=
  let img := (NMap.get none s.fabric.neighbours p).getD (0xFFFF, 0xFFFF)
  if n.node ≠ img.1 then 1
  else if n.partition ≠ s.fabric.partition ∨ n.epoch ≠ s.fabric.epoch then 2
  else if n.rank ≠ img.2 then 3
  else if !NMap.get false s.fabric.members n.node then 4 else 0

/-- Credit of a channel's minimum and of the shared pool, 32-byte units (R243). -/
def minCredit : Nat := 768
def poolCredit : Nat := 5120

/-- A port changes; a change of its state raises its event source (Table 18-1). -/
def State.movePort (s : State) (p : Nat) (y : WfPort) : State :=
  let changed := decide ((s.wfPort p).st ≠ y.st)
  let s1 := s.setWfPort p y
  if changed then s1.pulse (31 + p) else s1

/-- Route class of a packet at this node: 1 when it arrived from a lower-ranked neighbour (R248). -/
def State.classOf (s : State) (q : OutPkt) : Nat :=
  match NMap.get none s.fabric.neighbours q.from_ with
  | some n => b2n (n.2 < s.fabric.rank)
  | none => 0

/-- A port with nothing in its buffers, and no credit. -/
def WfPort.emptied (x : WfPort) : WfPort :=
  { x with out := [], credit := [], shared := 0, ingress := [], owed := [], frames := [], replayed := 0, tries := 0, again := false,
           txSeq := 0, rxSeq := 0 }

/-- A port goes down to state `y`: that is counted, the link error logged (R401), and its packets go to other live ports of their entries, where
they arrive anew (R241). -/
def State.dropPort (s : State) (p : Nat) (y : WfPort) : State :=
  let s1 := ((s.movePort p { y.emptied with width := 0, since := s.now }).bump (aWP p 0x28) 1).addLog
    { LogRec.none_ with cls := 7, outcome := 6, island := 200 + p, domain := 15, detail := p }
  y.out.foldl (fun (s : State) e => e.2.foldl (fun (s : State) q => s.forward e.1 (s.classOf q) { q with losses := 0 }) s) s1

/-- Training, which needs the Ethernet reference (R437), ends (R251, R259): the port comes up, is fenced electrically, or stays down. A port that is up and has lost a lane trains at x2 on the
healthy pair without going down (R241, Table 11-8). -/
def portTraining (p : Nat) (n : Neighbour) (s : State) : State :=
  let x := s.wfPort p
  if p ≥ 8 ∨ s.pw.refLost.testBit 1 ∨ !(x.st = 1 ∨ (x.st = 2 ∧ n.trained ∧ !n.fourLanes)) then s
  else if !n.trained then s.movePort p { x with st := 0, since := s.now }
  else
    let cause := fencingCause s p n
    let y := { x with nNode := n.node, nRank := n.rank, cause := cause, since := s.now, los := false }
    if cause ≠ 0 then s.dropPort p { y with st := 4 }
    else if x.st = 2 then s.movePort p { y with st := 3, width := 1, delay := n.delay % 2 ^ 24 }
    else s.movePort p { y.emptied with
      st := if n.fourLanes then 2 else 3, width := if n.fourLanes then 2 else 1, delay := n.delay % 2 ^ 24,
      credit := (List.range 4).map fun v => (v, minCredit), shared := poolCredit }

/-- PORT_TRAINING. -/
def execPortTraining (port : Nat) (n : Neighbour) (s : State) : Host.Outcome State Fault Refusal := .next (portTraining port n s)

/-- A port goes down (R241). A mismatch fences it electrically. -/
def portDown (p : Nat) (cause : DownCause) (s : State) : State :=
  let x := s.wfPort p
  if p ≥ 8 ∨ (!x.live ∧ !(x.st = 1 ∧ cause = .mismatch)) then s
  else s.dropPort p { x with st := if cause = .mismatch then 4 else 0, los := x.los || cause = .lossOfSignal }

/-- PORT_DOWN. -/
def execPortDown (port : Nat) (cause : DownCause) (s : State) : Host.Outcome State Fault Refusal := .next (portDown port cause s)

/-- A down port of the image trains again after 10 ms (R241). -/
def portRetrain (p : Nat) (s : State) : State :=
  let x := s.wfPort p
  if p < 8 ∧ s.portUsed p ∧ x.st = 0 ∧ s.now ≥ x.since + msec 10 then (s.movePort p { x with st := 1, since := s.now }).present p else s

/-- PORT_RETRAIN. -/
def execPortRetrain (port : Nat) (s : State) : Host.Outcome State Fault Refusal := .next (portRetrain port s)

/-- A port fenced electrically tries again after 1 s (R251). -/
def fencedPortRetry (p : Nat) (s : State) : State :=
  let x := s.wfPort p
  if p < 8 ∧ x.st = 4 ∧ s.now ≥ x.since + msec 1000 then (s.movePort p { x with st := 1, since := s.now }).present p else s

/-- FENCED_PORT_RETRY. -/
def execFencedPortRetry (port : Nat) (s : State) : Host.Outcome State Fault Refusal := .next (fencedPortRetry port s)

/-! ### Link frames (R240, R243, R245) -/

/-- 32-byte units of a packet. -/
def units32 (bytes : Nat) : Nat := ceilDiv bytes 32

/-- Credit returned by the neighbour: a channel's minimum fills before the pool. -/
def WfPort.returnCredit (x : WfPort) (v n : Nat) : WfPort :=
  let own := NMap.get 0 x.credit v
  let a := min n (minCredit - own)
  { x with credit := NMap.set 0 x.credit v (own + a), shared := min poolCredit (x.shared + (n - a)) }

/-- Units of a port's ingress buffer that packets of channel `v` hold. -/
def WfPort.held (x : WfPort) (v : Nat) : Nat := NMap.get 0 x.ingress v

/-- The ingress buffer holds what its channels do: beyond their minimum, each out of the shared pool (R243). -/
def WfPort.fits (x : WfPort) : Bool := ((List.range 4).map fun v => x.held v - minCredit).sum ≤ poolCredit

/-- Packets of a frame enter the ingress buffer, each on its channel. -/
def WfPort.enter (x : WfPort) (qs : List (Nat × Nat × Nat × Nat)) : WfPort :=
  { x with ingress := qs.foldl (fun m q => NMap.set 0 m q.1 (NMap.get 0 m q.1 + units32 q.2.2.2)) x.ingress }

/-- A packet out of a frame: one for this module leaves the buffer by its own row, a response at once (R244); any other is queued towards its
destination in the class its arrival gives it (R248, R249). -/
def State.transit (s : State) (port : Nat) (q : Nat × Nat × Nat × Nat) : State :=
  if q.2.2.1 = s.fabric.node then (if q.1 = 1 then s.freeIngress port 1 (units32 q.2.2.2) else s)
  else
    let o : OutPkt := { bytes := q.2.2.2, src := q.2.1, dst := q.2.2.1, from_ := port, at_ := s.now, losses := 0 }
    s.forward q.1 (s.classOf o) o

/-- Frames that hold up at the sender: those before the number the receiver expects are done (R240). -/
def WfPort.acknowledge (x : WfPort) (ack : Nat) : WfPort :=
  let rest := x.frames.dropWhile fun f => f.seq ≠ ack && seqDist f.seq ack < 2 ^ 31
  let n := x.frames.length - rest.length
  { x with frames := rest, replayed := x.replayed - n, tries := if n > 0 then 0 else x.tries }

/-- LINK_FRAME_RECEIVE: a frame FEC cannot correct, or that fails its CRC, is dropped and its replay asked for; one out of sequence is dropped
(R240). One frame that fails 4 consecutive replays takes the port down (R241). A frame brings no packet that its credit does not cover. -/
def linkFrameReceive (p : Nat) (f : LinkFrame) (s : State) : State :=
  let x := s.wfPort p
  if p ≥ 8 ∨ !x.live then s
  else
    let s1 := (s.bump (aWP p 0x10) f.corrected).bump (aWP p 0x18) f.uncorrectable
    if f.uncorrectable > 0 ∨ !f.crcOk then s1.setWfPort p { x with again := true }
    else if f.seq ≠ x.rxSeq then s1
    else if !(x.enter f.packets).fits then s
    else
      let y := (f.credits.foldl (fun (x : WfPort) c => x.returnCredit c.1 c.2) { x with rxSeq := (x.rxSeq + 1) % 2 ^ 32 }).acknowledge f.ack
      let z := y.enter f.packets
      let z := if f.again then { z with replayed := 0, tries := z.tries + 1 } else z
      let s2 := f.packets.foldl (fun s q => s.transit p q) (s1.setWfPort p z)
      if z.tries > 4 then portDown p .replaysFailed s2 else s2

/-- LINK_FRAME_RECEIVE. -/
def execLinkFrameReceive (port : Nat) (f : LinkFrame) (s : State) : Host.Outcome State Fault Refusal := .next (linkFrameReceive port f s)

/-- The packet a channel would send next: the oldest aged one, else the oldest. -/
def channelHead (l : List OutPkt) : Option OutPkt :=
  match l.find? fun q => q.losses ≥ 8 with
  | some q => some q
  | none => l.head?

/-- The channel's credit covers a packet: its minimum, or beside it the shared pool. -/
def WfPort.covers (x : WfPort) (v n : Nat) : Bool := NMap.get 0 x.credit v + x.shared ≥ n

/-- Spend credit, the channel's minimum first (R243). -/
def WfPort.spend (x : WfPort) (v n : Nat) : WfPort :=
  let own := NMap.get 0 x.credit v
  let a := min own n
  { x with credit := NMap.set 0 x.credit v (own - a), shared := x.shared - (n - a) }

/-- Bytes of a 1 µs window that the control channel may take: 1/16 of the link's. -/
def WfPort.controlLimit (x : WfPort) : Nat := if x.st = 2 then 6250 else 3125

/-- A channel that holds a packet and credit. -/
def WfPort.ready (x : WfPort) (v : Nat) : Bool :=
  match channelHead (NMap.get [] x.out v) with
  | some q => x.covers v (units32 q.bytes)
  | none => false

/-- Round-robin turns: the response channel twice for each request and atomic turn (R245). -/
def turns : List Nat := [1, 0, 1, 2]

/-- The channel that wins arbitration and the next turn. -/
def WfPort.winner (x : WfPort) (now : Nat) : Option (Nat × Nat) :=
  let used := if x.control.2 / 4000 = now / 4000 then x.control.1 else 0
  let ctl := match channelHead (NMap.get [] x.out 3) with
    | some q => x.ready 3 && used + q.bytes ≤ x.controlLimit
    | none => false
  if ctl then some (3, x.turn)
  else ((List.range 4).find? fun i => x.ready (turns.getD ((x.turn + i) % 4) 0)).map fun i =>
    (turns.getD ((x.turn + i) % 4) 0, (x.turn + i + 1) % 4)

/-- Packets that take part in a frame's arbitration: of each channel with credit, the oldest from each input port (R245). -/
def WfPort.candidate (x : WfPort) (v : Nat) (q : OutPkt) : Bool :=
  x.covers v (units32 q.bytes) && (NMap.get [] x.out v).find? (fun r => r.from_ = q.from_) == some q

/-- Packet `q` of channel `v` wins: it leaves the queue, and the other candidates have lost an arbitration. -/
def WfPort.win (x : WfPort) (v : Nat) (q : OutPkt) : NMap (List OutPkt) :=
  x.out.map fun e => (e.1, (if e.1 = v then e.2.erase q else e.2).map fun r => if x.candidate e.1 r then { r with losses := r.losses + 1 } else r)

/-- A port's next frame goes out: new, with what acknowledgement, replay request and credit there is to return; it stays in the replay buffer
(R240, R243). -/
def WfPort.sendFrame (x : WfPort) (packets : List (Nat × Nat × Nat × Nat)) : WfPort :=
  let f : LinkFrame := { seq := x.txSeq, ack := x.rxSeq, again := x.again, uncorrectable := 0, crcOk := true, corrected := 0, packets := packets,
                         credits := x.owed }
  { x with frames := x.frames ++ [f], replayed := x.replayed + 1, txSeq := (x.txSeq + 1) % 2 ^ 32, again := false, owed := [] }

/-- Frames that the 64 KiB replay buffer holds. -/
def replayFrames : Nat := 65536 / 280

/-- LINK_FRAME_TRANSMIT: a frame to be replayed goes first (R240); else one arbitration and its frame (R245), while the replay buffer has room. A
packet that waits for credit is counted 2.5 ns a frame. -/
def linkFrameTransmit (p : Nat) (s : State) : State :=
  let x := s.wfPort p
  if p ≥ 8 ∨ !x.live then s
  else if x.replayed < x.frames.length then (s.setWfPort p { x with replayed := x.replayed + 1 }).bump (aWP p 0x20) 1
  else if x.frames.length ≥ replayFrames then s
  else
    let waits := (List.range 4).any fun v => !(NMap.get [] x.out v).isEmpty && !x.ready v
    let s1 := if waits then s.bump (aWP p 0x30) (2 + s.now / 10 % 2) else s
    match x.winner s.now with
    | none => s1.setWfPort p (x.sendFrame [])
    | some (v, turn) =>
      match channelHead (NMap.get [] x.out v) with
      | none => s1.setWfPort p (x.sendFrame [])
      | some q =>
        let used := if x.control.2 / 4000 = s.now / 4000 then x.control.1 else 0
        let y := { x.spend v (units32 q.bytes) with
          out := x.win v q, turn := turn, control := if v = 3 then (used + q.bytes, s.now) else x.control }
        let s2 := (if q.losses ≥ 8 then s1.bump (aWF 0x828) 1 else s1).setWfPort p (y.sendFrame [(v, q.src, q.dst, q.bytes)])
        s2.freeIngress q.from_ v (units32 q.bytes)

/-- LINK_FRAME_TRANSMIT. -/
def execLinkFrameTransmit (port : Nat) (s : State) : Host.Outcome State Fault Refusal := .next (linkFrameTransmit port s)

/-! ### Receive signals (R265, R267) -/

/-- Fields of a receive header (Table 12-4). -/
def rxMagic (s : State) (e : Export) : Bool := leNat (s.regionRead e e.base 4).1 == 0x56434552
def rxSenders (s : State) (e : Export) : Nat := leNat (s.regionRead e (e.base + 4) 2).1
def rxToken (s : State) (e : Export) (h : Nat) : Nat := leNat (s.regionRead e (e.base + 16 + 4 * h) 4).1

/-- Count an arrival of a receive signal naming `token`; a full round signals the token. -/
def receiveArrival (s : State) (num : Nat) (e : Export) (token : Nat) : State × Option Fail :=
  let half := if token = rxToken s e 0 then some 0 else if token = rxToken s e 1 then some 1 else none
  match half with
  | none => (s, some (stShape, [0x65]))
  | some h =>
    if e.arrivals.isNone ∧ (s.fabric.exports.countP fun x => match x.2 with | some y => y.arrivals.isSome | none => false) ≥ 256 then
      (s, some (stNoResources, [7]))
    else
      let a := e.arrivals.getD (0, 0)
      let n := (if h = 0 then a.1 else a.2) + 1
      let full := n ≥ rxSenders s e
      let m := if full then 0 else n
      let s1 := s.setExport num (some { e with arrivals := some (if h = 0 then (m, a.2) else (a.1, m)) })
      (if full then s1.signalToken e.tenant token 1 else s1, none)

/-- A failure of a remote-command packet is recorded in the target tenant's ring with the device-origin bit (R39). -/
def State.remoteFail (s : State) (t ctx op : Nat) (f : Fail) : State :=
  s.reply t { tag := 0, status := f.1, ctx := if scopeC op then ctx else 0, final := true, origin := true,
              step := if scopeC op then s.stepOf t ctx else 0, result := f.2 }

/-- A receive signal may be handed on: every operation of its stream through `after` has been applied (R272). -/
def State.signalDue (s : State) (p : FabPkt) (after : Nat) : Bool :=
  seqCovered (((s.intoOf p.src p.epoch).next + 2 ^ 32 - 1) % 2 ^ 32) after

/-- RECEIVE_SIGNAL: handed on once every operation of its stream through `after` has been applied (R272); a region whose magic
differs takes it as a TOKEN_SIGNAL. It then leaves its ingress buffer. -/
def receiveSignal (p : FabPkt) (token after : Nat) (s : State) : State :=
  let t := s.freeIngress p.port 3 (ceilDiv (pktBytes p) 32)
  if !s.variant.fabric ∨ s.fabric.st = 0 then s
  else if !NMap.get false s.fabric.members p.src then t.bump (aWF 0x810) 1
  else if s.fabric.st = 3 then t.answer p .fenced [] false
  else if !s.signalDue p after then s
  else match s.regionFor p 0 with
    | none => t.rejectKey p
    | some (num, e) =>
      if !e.complete ∨ e.revoking.isSome then t.rejectKey p
      else if !e.remoteCmd then (t.rejectKey p).remoteFail e.tenant e.ctx 0x3001 (stKeyRejected, [])
      else match s.contextCheck 0x3001 e.tenant e.ctx with
        | some f => t.remoteFail e.tenant e.ctx 0x3001 f
        | none =>
          if rxMagic s e then
            match receiveArrival t num e token with
            | (s1, none) => s1.recordSignal e p.src p.offset token
            | (s1, some f) => s1.remoteFail e.tenant e.ctx 0x3001 f
          else t.signalToken e.tenant token 1

/-- RECEIVE_SIGNAL. -/
def execReceiveSignal (p : FabPkt) (token after : Nat) (s : State) : Host.Outcome State Fault Refusal := .next (receiveSignal p token after s)

/-! ### From this module to itself (R211) -/

/-- An answer of this module's home to this module. -/
def ownAnswer (m : Sent) : FabAnswer :=
  let f (o n : Nat) : Nat := fieldAt m.data o n
  let a : FabAnswer := { (default : FabAnswer) with node := m.node, stream := m.epoch, seq := m.number, poison := m.poison }
  match m.kind with
  | .data => { a with kind := .data, data := m.data }
  | .probed => { a with kind := .probed, mode := f 0 1, operation := f 1 1, owner := f 2 2, epoch := f 4 4, length := f 8 8, readOnly := f 16 1 ≠ 0 }
  | _ => { a with kind := match f 0 1 with | 0 => .incomplete | 3 => .tooManyWriters | 4 => .secondCopyWriter | _ => .badRights }

/-- An operation of this module on a region of its own passes through its own sequencing. -/
def ownOperation (o : Outstanding) (s : State) : State :=
  match o.kind with
  | 0 => arrive .store 0 o.pkt s
  | 1 => arrive .atomic 0 o.pkt s
  | 2 => arrive .writeBack 0 o.pkt s
  | 3 => arrive .ownerChange (fieldAt o.pkt.data 0 2) o.pkt s
  | 4 => arrive .probe (fieldAt o.pkt.data 0 1) o.pkt s
  | 5 => arrive .release 0 o.pkt s
  | 9 => arrive .load 0 o.pkt s
  | 7 => arrive .writeBackAsk 0 o.pkt s
  | 8 | 10 => arrive .notice s.fabric.node o.pkt s
  | _ => s

/-- One item on its way from this module to itself arrives. -/
def State.deliverOwn (s : State) : State :=
  match s.fabric.loop with
  | [] => s
  | x :: rest =>
    let s1 := { s with fabric := { s.fabric with loop := rest } }
    match x with
    | .op o => ownOperation o s1
    | .signal p token after => if s1.signalDue p after then receiveSignal p token after s1 else s1.loopIn x
    | .answer m =>
      match m.kind with
      | .ack => acknowledgement m.node m.epoch m.number s1
      | .keyRejected => refusal m.node m.epoch m.number .keyRejected s1
      | .notOwner => refusal m.node m.epoch m.number .notOwner s1
      | .fenced => refusal m.node m.epoch m.number .fenced s1
      | .data | .probed | .importRefused => loadResponse (ownAnswer m) s1
      | _ => s1

end Sys2Proof.Machine
end

