-- ==== Sys2Proof/Machine/Ports.lean ====
section
/-! DEFINITION. Ethernet port numbers and sub-ports (R349, R350), egress queues and their finish tags (R354, R357). -/
namespace Sys2Proof.Machine

/-- Mode of port EPp (Table 16-1). -/
def State.ethModeOf (s : State) (p : Nat) : Nat := NMap.get 0 s.ethMode p

/-- A port number exists in a mode (R350). -/
def inMode (mode n : Nat) : Bool := if mode = 0 then n % 4 = 0 else if mode = 1 then n % 2 = 0 else true

/-- A port number is present on the variant and exists in its port's current mode. -/
def State.portExists (s : State) (n : Nat) : Bool := n < 4 * s.variant.ethPorts && inMode (s.ethModeOf (n / 4)) n

/-- Line rate of a sub-port in Gb/s (Table 16-1). -/
def State.lineRate (s : State) (n : Nat) : Nat :=
  if s.ethModeOf (n / 4) = 0 then 400 else if s.ethModeOf (n / 4) = 1 then 200 else 100

def State.sub (s : State) (n : Nat) : SubPort := NMap.get SubPort.init s.eth n
def State.setSub (s : State) (n : Nat) (p : SubPort) : State := { s with eth := NMap.set SubPort.init s.eth n p }

/-- A sub-port carries frames: present, enabled, its link up, domain 16 on (R362). -/
def State.subUp (s : State) (n : Nat) : Bool :=
  s.portExists n && (s.sub n).enabled && (s.sub n).link = 2 && s.pw.on.testBit 16

/-- Queue `q` of a sub-port; one not configured stands at its defaults. -/
def SubPort.queue (p : SubPort) (q : Nat) : Queue := (NMap.get none p.queues q).getD (Queue.init q)
def SubPort.setQueue (p : SubPort) (q : Nat) (x : Queue) : SubPort :=
  { p with queues := NMap.set none p.queues q (if x = Queue.init q then none else some x) }

/-- Line bytes of a frame (R356). -/
def lineBytes (length : Nat) : Nat := length + 20

/-- A frame of queue `q` is in service (R357). -/
def SubPort.serves (p : SubPort) (now q : Nat) : Bool := (p.busy.map fun b => decide (b.1 = q ∧ now < b.2)).getD false

/-- A frame joins a queue with its finish tag (R357). -/
def SubPort.enqueue (p : SubPort) (now q length : Nat) (bytes : List Byte) (poison : Bool) : SubPort :=
  let x := p.queue q
  let fresh := x.frames.isEmpty && !p.serves now q
  let tag := ((if fresh then p.v else x.lastTag) + ceilDiv (lineBytes length * 1024) x.weight) % 2 ^ 48
  p.setQueue q { x with frames := x.frames ++ [{ tag := tag, length := length, bytes := bytes, poison := poison }], lastTag := tag }

/-- A frame of the device's own joins a queue of a port number. -/
def State.queueFrame (s : State) (n q length : Nat) (bytes : List Byte) : State :=
  if s.portExists n then s.setSub n ((s.sub n).enqueue s.now q length bytes false) else s

/-- TM_ counters of a port number (Table 16-7). -/
def aTM (n off : Nat) : Nat := 0x07000000 + n * 0x1000 + off

/-- A queue is unbound: its frames are discarded and counted, its rings released (R361). -/
def State.unbindQueue (s : State) (n q : Nat) : State :=
  let p := s.sub n
  let x := p.queue q
  (s.setSub n (p.setQueue q { Queue.init q with shaper := x.shaper })).bump (aTM n 0x050) x.frames.length

/-- FLR or withdrawal unbinds a tenant's queues (R361); queues 0–7 are tenant 0's own. -/
def State.unbindTenant (s : State) (t : Nat) : State :=
  s.eth.foldl (fun s e => ((List.range 64).filter fun q => q ≥ 8 && (e.2.queue q).tenant == some t).foldl
    (fun s q => s.unbindQueue e.1 q) s) s

/-- A capture joins its source's FIFO, or is dropped and counted (R375). -/
def State.capture (s : State) (src : Nat) (second : Bool) (data : Nat) : State :=
  let x := NMap.get Capture.init s.sx.captures src
  let flags := b2n second + 2 * s.sx.out + 8 * b2n s.sx.slew.isSome
  let put (z : Capture) (r : State) : State :=
    { r with sx := { r.sx with captures := NMap.set Capture.init r.sx.captures src z } }
  if x.fifo.length < 64 then put { x with last := some s.now, fifo := x.fifo ++ [(s.sx.time, flags, data)] } s
  else put { x with drops := min 0xFFFFFFFF (x.drops + 1) } (s.bump 0x08000038 1)

/-- A frame passes a port number: the stamp is captured where its EtherType and direction are configured (R375). -/
def State.captureFrame (s : State) (n : Nat) (sent : Bool) (etherType data : Nat) : State :=
  let x := NMap.get Capture.init s.sx.captures (16 + n)
  if x.edges.testBit (b2n sent) ∧ x.etherType = etherType then s.capture (16 + n) sent data else s

/-- The link of a sub-port comes up, its virtual time starting at 0, or goes down; its event source rises (Table 18-1). -/
def State.moveLink (s : State) (n : Nat) (up : Bool) : State :=
  let p := s.sub n
  let p1 := if up then { p with link := 2, v := 0 } else { p with link := 0, xoff := 0, paused := 0, ingress := [], busy := none }
  (s.setSub n p1).pulse (39 + n)

end Sys2Proof.Machine
end

