-- ==== Sys2Proof/Machine/Tenants.lean ====
section
/-! DEFINITION. Tenants and contexts (03): provisioning, contexts, the heartbeat, function level reset and host loss; and the
records of sequences (R205) that ending a context writes. -/
namespace Sys2Proof.Machine

/-! ### Completion queues (R195) -/

/-- Reserved entries of a die's queue. -/
def State.cq (s : State) (die : Nat) : Nat := if die = 0 then s.cqUsed.1 else s.cqUsed.2

/-- Entries of a die's queue change; event source 55 is high while the reserve for radio commands is in use (Table 18-1). -/
def State.setCq (s : State) (die n : Nat) : State :=
  let p := s.cqPeak
  let used := if die = 0 then (n, s.cqUsed.2) else (s.cqUsed.1, n)
  let peak := if die = 0 then (max n p.1, p.2) else (p.1, max n p.2)
  { s with cqUsed := used, cqPeak := peak }.drive 55 (960 < used.1 || 960 < used.2)

/-- Context commands may take an entry: 64 of the 1,024 are kept for radio commands. -/
def State.cqFree (s : State) (die : Nat) : Bool := s.cq die < 960

/-- Free the entry a command holds. -/
def State.freeEntry (s : State) (c : Cmd) : State :=
  match c.queue with
  | some d => s.setCq d (s.cq d - 1)
  | none => s

/-! ### Placement that has become impossible (R185) -/

/-- No core is eligible for the command any more: it ends with NO_RESOURCES, reason 0x02, without running (R185). -/
def State.noCore (s : State) (c : Cmd) : State := (s.setCmd { c with signals := [] }).finish c.id stNoResources [2]

/-- Commands that have not started and whose set of eligible cores has become empty end so. -/
def State.sweepPlacement (s : State) : State :=
  (s.cmds.filter fun c => coreOp c.opcode && c.unstarted && !(List.range 64).any (s.eligible c)).foldl (fun s c => s.noCore c) s

/-- A command is placed on core `k`: it is bound to it and reserves its entry in the queue of the core's die (R186, R195). -/
def State.seat (s : State) (k : Nat) (c : Cmd) : State :=
  (s.setCmd { c with core := some k, queue := some (dieOf k) }).setCq (dieOf k) (s.cq (dieOf k) + 1)

/-- A placement that cannot stand is undone: the command waits for a core again. -/
def State.unseat (s : State) (c : Cmd) : State := (s.freeEntry c).setCmd { c with core := none, queue := none }

/-- The commands a barrier holds at their feeders are let go, to be granted as others are (R420, R422). -/
def State.letGo (s : State) (held : List (Nat × Nat)) : State :=
  held.foldl (fun s h => match s.cmd? h.2 with
    | some c => if c.stage = .accepted then s.unseat c else s
    | none => s) s

/-! ### Sequences that end (R205, Table 9-8) -/

/-- Result of a SEQ_SUBMIT record. -/
def seqResult (token position ident end_ cause : Nat) : List Byte :=
  leBytes 4 token ++ leBytes 4 position ++ leBytes 4 ident ++ leBytes 1 end_ ++ leBytes 1 cause ++ leBytes 2 0

/-- A sequence leaves the context's queue and batch. -/
def State.removeSequence (s : State) (t c : Nat) (q : Sequence) : State :=
  let x := s.ctx t c
  s.setCtx t c { x with queue := x.queue.filter (·.tag ≠ q.tag), running := x.running.filter (·.tag ≠ q.tag) }

/-- A sequence ends without a token: one final record with token 0xFFFF_FFFF; the position of no token is a free value (log 4). -/
def State.endSequence (s : State) (t c : Nat) (q : Sequence) (status end_ cause : Nat) : State :=
  let d := s.draw
  (d.2.removeSequence t c q).finish q.tag status (seqResult 0xFFFFFFFF d.1.toNat q.ident end_ cause)

/-- Every sequence of a context ends. -/
def State.endSequences (s : State) (t c status end_ cause : Nat) : State :=
  let x := s.ctx t c
  (x.running ++ x.queue).foldl (fun s q => s.endSequence t c q status end_ cause) s

/-- A step fails: the context dies, every sequence gets a final record with that status. -/
def failStep (s : State) (t c status cause : Nat) : State :=
  let s1 := s.endSequences t c status 5 cause
  (s1.setCtx t c { s1.ctx t c with stepping := none, sampling := false, stepFailed := none }).kill t c

/-- Packets of a context's step program that have not started. -/
def State.programWaits (s : State) (t c : Nat) : Bool :=
  s.cmds.any fun d => d.program && d.tenant = t && d.ctx = c && d.unstarted

/-- CONTEXT_RESET cancels the sequences (R60, R206): a running one in a step that still completes reports its token there. -/
def State.cancelSequences (s : State) (t c : Nat) (stepLives : Bool) : State :=
  let x := s.ctx t c
  if x.stepping.isSome ∧ stepLives then
    let s1 := x.queue.foldl (fun s q => s.endSequence t c q stOK 3 0) s
    let y := s1.ctx t c
    s1.setCtx t c { y with running := y.running.map fun q => { q with cancelled := true } }
  else
    let s1 := s.endSequences t c stOK 3 0
    s1.setCtx t c { s1.ctx t c with stepping := none, sampling := false, stepFailed := none }

/-! ### A context's hold on the cores (R59, R60, R189, R190) -/

/-- Residency and spilled regions the test selects are released, those in a spill or fill too. -/
def State.dropResidency (s : State) (p : Resident → Bool) : State :=
  let keep (e : Nat × Core) : Nat × Core :=
    (e.1, { e.2 with residents := e.2.residents.filter (!p ·), filling := e.2.filling.filter (!p ·),
                     spilling := e.2.spilling.map fun x => (x.1.filter (!p ·), x.2.filter (!p ·)) })
  let cores := (s.cores.map keep).filter fun e => decide (e.2 ≠ Core.init)
  { s with cores := cores, spilled := s.spilled.filter fun e => !p e.2 }

/-- A replay in progress ends; REPLAY_START writes its record with the entries fed (R418). -/
def State.endReplay (s : State) (t c : Nat) : State :=
  match (s.ctx t c).replaying with
  | none => s
  | some r => (s.setCtx t c { s.ctx t c with replaying := none }).ok r.id (leBytes 8 r.fed)

/-- Arrival counts of receive halves of the context's exports go back to zero (R267). -/
def State.clearArrivals (s : State) (t c : Nat) : State :=
  let clr (e : Nat × Option Export) : Nat × Option Export :=
    (e.1, e.2.map fun x => if x.tenant = t ∧ x.ctx = c then { x with arrivals := none } else x)
  { s with fabric := { s.fabric with exports := s.fabric.exports.map clr } }

/-! ### CONTEXT_OPEN (R57) -/

def resvContextOpen (_ : State) (c : Cmd) : Bool := c.p 1 1 < 8 && zeroAt c.params 2 14

/-- Lowest closed context of a tenant. -/
def State.lowestClosed (s : State) (t : Nat) : Option Nat :=
  (List.range (s.tenant t).contexts).find? fun n => (s.ctx t n).st = .closed

def checkContextOpen (s : State) (c : Cmd) : Option Fail :=
  let x := s.tenant c.tenant
  let n := c.p 0 1
  firstFail
    [ need (n = 0xFF || n < x.contexts) stNoResources 4,
      need (c.p 1 1 ≤ x.ceiling) stNoResources 3,
      need (n = 0xFF || (s.ctx c.tenant n).st = .closed) stNoResources 1,
      need (n ≠ 0xFF || (s.lowestClosed c.tenant).isSome) stNoResources 2 ]

/-- A context's tier counters start over (R174). -/
def State.clearTier (s : State) (t c : Nat) : State := s.clearCounters (aTI t c 0) (aTI t c 0x30)

/-- CONTEXT_OPEN: the context is live with step counter and seed 0. -/
def runContextOpen (s : State) (c : Cmd) : State :=
  let n := if c.p 0 1 = 0xFF then (s.lowestClosed c.tenant).getD 0 else c.p 0 1
  ((s.clearTier c.tenant n).setCtx c.tenant n { Ctx.init with st := .live, prio := c.p 1 1 }).ok c.id (leBytes 1 n)

/-- CONTEXT_OPEN. -/
def execOpContextOpen (id : Nat) (s : State) : Host.Outcome State Fault Refusal := .next (runCoreless 0x0005 checkContextOpen runContextOpen id s)

/-- The first CONTEXT_OPEN of the physical function accepted after the link returned clears HOST_LOST (Table 3-7). -/
def openAccepted (s : State) (c : Cmd) : State :=
  if c.tenant = 0 ∧ !s.hostGone then s.setFn 0 { s.fn 0 with hostLost := false } else s

/-! ### CONTEXT_CLOSE and CONTEXT_RESET (R58–R60) -/

/-- Commands of the context accepted before `c` that have not completed. -/
def State.earlier (s : State) (c : Cmd) : Bool :=
  s.cmds.any fun d => d.tenant = c.tenant && d.ctx = c.ctx && scopeC d.opcode && d.id < c.id && d.entry ≠ .mgmt

/-- CONTEXT_CLOSE takes effect at its acceptance: the context is closing, and a replay in it ends. -/
def closeAccepted (s : State) (c : Cmd) : State :=
  (s.setCtx c.tenant c.ctx { s.ctx c.tenant c.ctx with st := .closing }).endReplay c.tenant c.ctx

/-- A context that closes gives up residency, sequences, record ring, promotions and pins (R59, R162). -/
def settleClose (s : State) (c : Cmd) : State :=
  if s.earlier c then s
  else
    let s1 := (((s.dropResidency fun r => r.tenant = c.tenant && r.ctx = c.ctx).stopRecording c.tenant c.ctx).dropHolds c.tenant c.ctx)
    (s1.setCtx c.tenant c.ctx Ctx.init).ok c.id []

/-- CONTEXT_CLOSE starts: it waits for the commands accepted before it. -/
def runContextClose (s : State) (c : Cmd) : State := settleClose (s.await c.id) c

/-- CONTEXT_CLOSE. -/
def execOpContextClose (id : Nat) (s : State) : Host.Outcome State Fault Refusal :=
  .next (runCoreless 0x0006 (fun _ _ => none) runContextClose id s)

/-- CONTEXT_RESET acts at its acceptance (R60 steps 1 to 3): unstarted commands end and are counted, started ones run on, sequences
are cancelled. -/
def resetAccepted (s : State) (c : Cmd) : State :=
  let n := s.cmds.countP fun d => d.tenant = c.tenant && d.ctx = c.ctx && scopeC d.opcode && d.unstarted && d.opcode ≠ 0x0006
    && d.opcode ≠ 0x0007 && d.id ≠ c.id
  let lives := !s.programWaits c.tenant c.ctx
  let s1 := ((s.endUnstarted c.tenant c.ctx).setCmd { c with stage := .waiting, startedAt := s.now, result := leBytes 4 n })
  ((s1.endReplay c.tenant c.ctx).cancelSequences c.tenant c.ctx lives).abandonRounds fun r => r.tenant = c.tenant ∧ r.ctx = c.ctx

/-- R60 steps 3 to 5, once every command accepted before has completed. -/
def settleReset (s : State) (c : Cmd) : State :=
  if s.earlier c then s
  else
    let s1 := (((s.dropResidency fun r => r.tenant = c.tenant && r.ctx = c.ctx).stopRecording c.tenant c.ctx).clearArrivals c.tenant c.ctx)
    let x := s1.ctx c.tenant c.ctx
    ((s1.clearTier c.tenant c.ctx).setCtx c.tenant c.ctx { x with st := .live, step := 0, seed := 0, stepping := none, sampling := false, stepFailed := none }).ok c.id c.result

/-- A replay whose entries have all been fed ends once its packets have completed (R418). -/
def settleReplay (s : State) (c : Cmd) : State :=
  match (s.ctx c.tenant c.ctx).replaying with
  | some r =>
    if r.id = c.id ∧ r.fed ≥ r.total ∧ !(s.cmds.any fun d => d.replayed && d.tenant = c.tenant && d.ctx = c.ctx) then s.endReplay c.tenant c.ctx
    else s
  | none => s

/-- Commands that wait for other commands of their context end when they may. -/
def State.settleContexts (s : State) : State :=
  (s.cmds.filter fun c => c.stage = .waiting).foldl (fun s c =>
    if c.opcode = 0x0006 then settleClose s c else if c.opcode = 0x0007 then settleReset s c else if c.opcode = 0x9003 then settleReplay s c
    else s) s

/-- CONTEXT_RESET. -/
def execOpContextReset (id : Nat) (s : State) : Host.Outcome State Fault Refusal :=
  .next (match s.cmd? id with
    | some c => if c.opcode = 0x0007 ∧ c.stage = .waiting then settleReset s c else s
    | none => s)

/-! ### Tearing a tenant down (R63) -/

/-- Steps 1 to 5 of R63: commands end without a record, contexts close, objects and programs go, regions are revoked and
released, tokens clear, queues are unbound (R361). -/
def State.teardown (s : State) (n : Nat) : State :=
  let s1 := ((s.cmds.filter fun c => c.tenant = n && c.entry ≠ .mgmt).foldl
    (fun s c => ((s.releaseCore c).freeEntry c).dropCmd c.id) s).unbindTenant n
  let s2 := (s1.abandonRounds (·.tenant = n)).dropResidency (·.tenant = n)
  let outs := s2.fabric.exports.filterMap fun e => e.2.bind fun x => if x.tenant = n then some e.1 else none
  let s3 := outs.foldl (fun s k => s.revokeRegion k 0) s2
  let ins := s3.fabric.imports.filterMap fun e => e.2.bind fun x => if x.tenant = n then some (e.1, x) else none
  let s4 := ins.foldl (fun s e =>
    let r := s.setImport e.1 none
    if r.fabric.fenced then r else r.post e.2.node n 0 0 5 (request e.2.base e.2.key [] 0)) s3
  let trackers := s4.trackers.filter fun e => (e.2.map fun k => decide (k.tenant ≠ n)).getD false
  let gone (id : Nat) : Bool := (s4.cmd? id).isNone
  let s4 := s4.fabric.barriers.foldl (fun (s : State) e => if (e.2.armed.map gone).getD false then s.letGo e.2.heldCores else s) s4
  let bars := s4.fabric.barriers.map fun e =>
    (e.1, if (e.2.armed.map gone).getD false then { e.2 with armed := none, heldCores := [] } else e.2)
  let s5 := { s4 with trackers := trackers, fabric := { s4.fabric with barriers := bars.filter fun e => decide (e.2 ≠ default) } }
  let x := s5.tenant n
  ((s5.setTenant n { x with ctxs := [], tokens := [], objs := [], programs := [], programCharge := 0 }).settle).settleContexts

/-- Steps 6 and 7 of R63: ring and window start over. -/
def Fn.flr (f : Fn) : Fn :=
  { f.restart with enable := false, head := 0, tail := 0, held := [], owed := [], sinceIrq := 0, noticeDrop := 0 }

/-- The effects of R63 on a tenant and its function. -/
def State.flr (s : State) (n : Nat) : State := let s1 := s.teardown n; s1.setFn n (s1.fn n).flr

/-- A virtual function goes back to the unprovisioned state, its quota and share released (R56); handles go on where they were
(R154). -/
def State.unprovision (s : State) (n : Nat) : State :=
  let s1 := s.flr n
  s1.setTenant n { Tenant.init with lastHandle := (s1.tenant n).lastHandle }

/-- Tenant `n` names an enabled virtual function. -/
def State.vfExists (s : State) (n : Nat) : Bool := 1 ≤ n && n ≤ 15 && s.link.vfEnable && n ≤ s.link.numVfs

/-- VIRTUAL_FUNCTION_FLR: the function's tenant loses its work and keeps its provisioning; notice 0x02. -/
def virtualFunctionFlr (fn : Nat) (s : State) : State :=
  if s.vfExists fn ∧ s.link.up then (s.flr fn).notice 0 stOK (leBytes 1 2 ++ leBytes 1 fn) else s

/-- VIRTUAL_FUNCTION_FLR. -/
def execVirtualFunctionFlr (fn : Nat) (s : State) : Host.Outcome State Fault Refusal := .next (virtualFunctionFlr fn s)

/-! ### TENANT_PROVISION (R55, R56) -/

namespace Cmd
def tpTenant (c : Cmd) : Nat := c.p 0 1 % 16
def tpAction (c : Cmd) : Nat := c.p 1 1
def tpContexts (c : Cmd) : Nat := c.p 2 1
def tpCeiling (c : Cmd) : Nat := c.p 3 1 % 8
def tpQuota (c : Cmd) : Nat := c.p 4 4
def tpMask (c : Cmd) : Nat := c.p 8 8
def tpShare (c : Cmd) : Nat := c.p 16 2
def tpWatchdog (c : Cmd) : Nat := c.p 20 4
def tpHeartbeat (c : Cmd) : Nat := c.p 24 4
end Cmd

/-- Reserved fields of TENANT_PROVISION (Table 3-10). -/
def resvTenantProvision (s : State) (c : Cmd) : Bool :=
  c.p 0 1 < 16 && c.tpAction ≤ 2 && zeroAt c.params 28 12
    && (if c.tpAction = 2 then zeroAt c.params 2 26 else c.p 3 1 < 8 && c.tpShare < 2048 && s.maskLegal c.tpMask)

/-- Sum over the virtual-function tenants other than `n`. Tenant 0 has no stated quota and takes no part (log 11). -/
def State.sumOthers (s : State) (n : Nat) (f : Tenant → Nat) : Nat :=
  ((List.range 16).filter fun k => k ≠ n && k ≠ 0).foldl (fun a k => a + f (s.tenant k)) 0

/-- A modify that would set a limit below what is in use (reason 0x09). -/
def State.modifyFits (s : State) (c : Cmd) : Bool :=
  let n := c.tpTenant
  let x := s.tenant n
  let opened := (List.range 64).filter fun k => (s.ctx n k).st ≠ .closed
  x.held ≤ c.tpQuota * 2 ^ 20 && opened.all (fun k => k < c.tpContexts && (s.ctx n k).prio ≤ c.tpCeiling)
    && (s.fabric.exports.countP fun e => (e.2.map fun y => decide (y.tenant = n)).getD false) ≤ c.p 18 1
    && (s.fabric.imports.countP fun e => (e.2.map fun y => decide (y.tenant = n)).getD false) ≤ c.p 19 1

/-- Checks of TENANT_PROVISION (Table 3-11). -/
def checkTenantProvision (s : State) (c : Cmd) : Option Fail :=
  let n := c.tpTenant
  let x := s.tenant n
  let set := c.tpAction ≠ 2
  firstFail
    [ need (s.vfExists n) stNoResources 1,
      need (x.provisioned = (c.tpAction ≠ 0)) stNoResources 2,
      need (!set || (1 ≤ c.tpContexts && c.tpContexts ≤ 64)) stNoResources 3,
      need (!set || c.tpCeiling ≠ 7) stNoResources 4,
      need (!set || (List.range s.variant.cores).any fun k => c.tpMask.testBit k && !(s.core k).quarantined) stNoResources 5,
      need (!set || s.sumOthers n (·.quota) + c.tpQuota + s.variant.radioMiB ≤ s.variant.memoryMiB) stNoResources 6,
      need (!set || s.sumOthers n (·.share) + c.tpShare ≤ 1024) stNoResources 7,
      need (!set || (c.tpWatchdog ≤ 60000 && c.tpHeartbeat ≤ 60000)) stNoResources 8,
      need (c.tpAction ≠ 1 || s.modifyFits c) stNoResources 9 ]

/-- The limits of Table 3-10. -/
def Tenant.limits (x : Tenant) (c : Cmd) (now : Nat) : Tenant :=
  { x with provisioned := true, contexts := c.tpContexts, ceiling := c.tpCeiling, quota := c.tpQuota, coreMask := c.tpMask,
           share := c.tpShare, exports := c.p 18 1, imports := c.p 19 1,
           watchdog := if c.tpWatchdog = 0 then 1000 else c.tpWatchdog, heartbeat := c.tpHeartbeat,
           hbStart := if x.heartbeat = 0 then some now else x.hbStart }

/-- TENANT_PROVISION: provision, modify or withdraw. -/
def runTenantProvision (s : State) (c : Cmd) : State :=
  let n := c.tpTenant
  if c.tpAction = 2 then (s.unprovision n).ok c.id []
  else if c.tpAction = 1 then ((s.setTenant n ((s.tenant n).limits c s.now)).sweepPlacement).ok c.id []
  else
    let x := Tenant.limits { Tenant.init with lastHandle := (s.tenant n).lastHandle } c s.now
    ((s.setTenant n x).setFn n { (s.fn n).restart with hostLost := false, noticeDrop := 0 }).ok c.id []

/-- TENANT_PROVISION. -/
def execOpTenantProvision (id : Nat) (s : State) : Host.Outcome State Fault Refusal :=
  .next (runCoreless 0xE007 checkTenantProvision runTenantProvision id s)

/-! ### Heartbeat (R62) -/

/-- The heartbeat's period in progress has elapsed at the last whole millisecond of the local counter (R62). -/
def State.heartbeatDue (s : State) (t : Nat) : Bool :=
  let x := s.tenant t
  x.provisioned && x.heartbeat > 0 && (match x.hbStart with
    | some b => s.now / msec 1 * msec 1 ≥ b + msec x.heartbeat
    | none => false)

/-- HEARTBEAT_EXPIRY: at a whole millisecond of the local counter a whole period has elapsed. Every live context dies; notice 0x01. A period
expires once; a write of HW_HEARTBEAT, or a TENANT_PROVISION that enables the heartbeat, starts the next. -/
def heartbeatExpiry (t : Nat) (s : State) : State :=
  if s.heartbeatDue t then
    let s1 := (s.setFn t { s.fn t with hbExpired := true }).setTenant t { s.tenant t with hbStart := none }
    let s2 := (List.range 64).foldl (fun s c => s.kill t c) s1
    (s2.addLog { LogRec.none_ with cls := 6, outcome := 5, tenant := t }).notice 0 stOK (leBytes 1 1 ++ leBytes 1 t)
  else s

/-- HEARTBEAT_EXPIRY. -/
def execHeartbeatExpiry (tenant : Nat) (s : State) : Host.Outcome State Fault Refusal := .next (heartbeatExpiry tenant s)

/-! ### Host loss (R64, R65) -/

/-- A running cell of the radio enters holdover (R65). -/
def State.cellsHoldover (s : State) : State :=
  let cells := s.cells.map fun e =>
    (e.1, e.2.map fun x => if x.st = .running then { x with st := CellState.holdover, mutePending := false } else x)
  { s with cells := cells, link := { s.link with holdover := cells.any fun e => (e.2.map fun x => decide (x.st = .holdover)).getD false } }

/-- Host loss (R65): the link is down, contexts die with HOST_LOST set, running cells enter holdover. -/
def State.hostLoss (s : State) : State :=
  if s.link.lostAt.isSome then { s with link := { s.link with up := false } }
  else
    let s1 := { s with link := { s.link with up := false, lostAt := some s.now } }
    let ts := (List.range 16).filter fun t => (s.tenant t).provisioned
    let s2 := ts.foldl (fun s t =>
      let r := (List.range 64).foldl (fun s c => s.kill t c) s
      r.setFn t { r.fn t with hostLost := true }) s1
    s2.cellsHoldover

/-- VF Enable clears: every virtual function is unprovisioned (R64). What its tenant exported stays until the link returns. -/
def State.clearVfs (s : State) : State :=
  let s1 := { s with link := { s.link with vfEnable := false, numVfs := 0 } }
  ((List.range 16).filter (· ≠ 0)).foldl (fun s t => s.setTenant t { s.tenant t with provisioned := false }) s1

/-- SURPRISE_DOWN: the data link goes down unannounced; the link error is logged. -/
def surpriseDown (s : State) : State :=
  if s.link.up then s.hostLoss.addLog { LogRec.none_ with cls := 7, outcome := 0, island := 212, domain := 17 } else s

/-- SURPRISE_DOWN. -/
def execSurpriseDown (s : State) : Host.Outcome State Fault Refusal := .next (surpriseDown s)

/-- HOLDOVER_EXPIRY: HOLDOVER_MS has passed without the link; cells in holdover mute at their next slot boundary (R65). -/
def holdoverExpiry (s : State) : State :=
  match s.link.lostAt with
  | some t =>
    if s.now ≥ t + msec (min 60000 s.link.holdoverMs) then
      { s with cells := s.cells.map fun e =>
          (e.1, e.2.map fun x => if x.st = .holdover then { x with mutePending := true } else x) }
    else s
  | none => s

/-- HOLDOVER_EXPIRY. -/
def execHoldoverExpiry (s : State) : Host.Outcome State Fault Refusal := .next (holdoverExpiry s)

/-- LINK_RETURN (R66): virtual functions are unprovisioned, tenant 0's contexts are closed, the physical function starts as after
FLR, and notice 0x03 waits for its first enabled ring. -/
def linkReturn (s : State) : State :=
  match s.link.lostAt with
  | none => s
  | some t =>
    if s.pw.perst then s
    else
      let s1 := ((List.range 16).filter (· ≠ 0)).foldl (fun s n => s.unprovision n) s
      let mine (c : Cmd) : Bool := c.tenant = 0 && scopeC c.opcode && c.entry ≠ .mgmt
      let s2 := (s1.cmds.filter mine).foldl (fun s c => ((s.releaseCore c).freeEntry c).dropCmd c.id) s1
      let s3 := (s2.abandonRounds (·.tenant = 0)).dropResidency (·.tenant = 0)
      let s4 := s3.setTenant 0 { s3.tenant 0 with ctxs := [] }
      let s5 := s4.setFn 0 (s4.fn 0).flr
      { s5 with link := { s5.link with up := true, lostAt := none } }.settle.notice 0 stOK
        (leBytes 1 3 ++ leBytes 3 0 ++ leBytes 4 ((s.now - t) / msec 1))

/-- LINK_RETURN. -/
def execLinkReturn (s : State) : Host.Outcome State Fault Refusal := .next (linkReturn s)

end Sys2Proof.Machine
end

