-- ==== Sys2Proof/Machine/Capacity.lean ====
section
/-! DEFINITION. The radio's capacity (R280, R281, R323, R328) and the withdrawal of cores (R84, R192, R298, R393–R395). -/
namespace Sys2Proof.Machine

/-- Engine kinds of Table 15-1: first number, count. -/
def engineKinds : List (Nat × Nat) := [(0, 16), (16, 8), (24, 4), (28, 2), (30, 4), (34, 2)]

/-- Size-table item 0x000B as it now stands (R323, R328). -/
def State.cluCapacity (s : State) : Nat :=
  let nom := s.variant.nominalClu
  let healthy := (List.range 128).countP fun n => !(s.sc n).quarantined
  let kind (k : Nat × Nat) : Nat :=
    nom * ((List.range k.2).countP fun i => !s.rel.engines.testBit (k.1 + i)) / k.2 / 4 * 4
  (engineKinds.map kind).foldl min (min nom (8 * healthy))

/-- Effective capacity (R281). -/
def State.effectiveCapacity (s : State) : Nat :=
  min s.cluCapacity (128 * ((List.range s.variant.cores).countP fun k => s.radioCore k && !(s.core k).quarantined))

/-- Admitted total (R281). -/
def State.admittedTotal (s : State) : Nat := s.cells.foldl (fun a e => a + (e.2.map (·.cost)).getD 0) 0

/-- A cell is started: running, in holdover or muted (Table 13-4). -/
def CellState.started : CellState → Bool
  | .running | .holdover | .muted => true
  | .admitted | .configured => false

/-- Some cell is started. -/
def State.anyStarted (s : State) : Bool := s.cells.any fun e => (e.2.map (·.st.started)).getD false

/-- A core is withdrawn: it leaves the radio-eligible set at once (R192), whose capacity falls with notice 0x11 (R298), and commands
with no core left end (R185). -/
def State.quarantineCore (s : State) (k : Nat) (sticky : Bool) : State :=
  let x := s.core k
  if x.quarantined then s.setCore k { x with sticky := x.sticky || sticky }
  else
    let radio := s.radioCore k
    let s1 := s.setCore k { x with quarantined := true, sticky := sticky }
    let s2 := { s1 with rel := { s1.rel with events := s1.rel.events + 1 },
                        radioSet := if radio then s1.radioSet - 2 ^ k else s1.radioSet }
    let s3 := s2.sweepPlacement
    if radio then s3.notice 0 stOK (leBytes 4 0x11 ++ leBytes 2 s3.effectiveCapacity) else s3

end Sys2Proof.Machine
end

