-- ==== Sys2Proof/Machine/Units.lean ====
section
/-! DEFINITION. What a power domain's units gain and lose when it is switched (R16, R17, R82, R84, R167, R305, R323, R328, R433). -/
namespace Sys2Proof.Machine

def aSC (n off : Nat) : Nat := 0x05000000 + n * 0x1000 + off
/-- WE_ counter addresses (Table 15-9). -/
def aWE (off : Nat) : Nat := 0x06000000 + off
/-- Power domain of a cluster (R300). -/
def clusterDomain (k : Nat) : Nat := if k < 4 then 12 else 13

/-- Log record of a withdrawal by self-test (class 0x05). -/
def withdrawLog (island domain unit flags : Nat) : LogRec :=
  { LogRec.none_ with cls := 5, outcome := 6, island := island, domain := domain, flags := flags, detail := unit }

/-- The map names at most `n` places, none twice (R82). -/
def mapLegal (n : Nat) (m : List Nat) : Bool := m.length ≤ n && decide m.Nodup

/-- A repair register: place i is served by spare i, 0xFF unused (Tables 4-7, 4-8). -/
def spareWord (n : Nat) (m : List Nat) : Word :=
  BitVec.ofNat 32 ((List.range n).foldr (fun i a => m.getD i 0xFF % 256 * 256 ^ i + a) 0)

/-- A core's repair map is loaded and the core tested at its quarter's power-up (R82, R84); one that fails is withdrawn, one that
passes returns unless it was withdrawn until module reset (R394). -/
def State.testCore (s : State) (t : SelfTest) (k : Nat) : State :=
  let lanes := Config.repairLanes k
  let cols := Config.repairCols k
  let legal := mapLegal 4 lanes && mapLegal 2 cols
  let pass := legal && !t.cores.contains k
  let x := s.core k
  let y := { x with bistPass := pass, quarantined := x.quarantined && (x.sticky || !pass),
                    repairLanes := if legal then spareWord 4 lanes else 0xFFFFFFFF, repairCols := if legal then spareWord 2 cols else 0xFFFF }
  let s1 := s.setCore k y
  if pass || x.quarantined then s1 else (s1.quarantineCore k false).addLog (withdrawLog (2 * k) (k / 8) k 0)

/-- A signal core is tested at its cluster's power-up (R323). -/
def State.testSc (s : State) (t : SelfTest) (n : Nat) : State :=
  let bad := t.signalCores.contains n
  let x := s.sc n
  let s1 := s.setSc n { x with quarantined := bad, bistPass := !bad }
  if bad && !x.quarantined then
    { s1 with rel := { s1.rel with events := s1.rel.events + 1 } }.addLog (withdrawLog (176 + n / 16) (clusterDomain (n / 16)) n 2)
  else s1

/-- A cluster's cores are tested and the library is loaded (R305, R323). -/
def State.testCluster (s : State) (t : SelfTest) (k : Nat) : State :=
  let cores := (List.range 16).map (16 * k + ·)
  let s1 := cores.foldl (fun s n => s.testSc t n) s
  s1.setCluster k { Cluster.init with
    loaded := true, passed := (List.range 16).foldl (fun m j => if t.signalCores.contains (16 * k + j) then m else m + 2 ^ j) 0 }

/-- Island of an engine (Table 1-4). -/
def engineIsland (e : Nat) : Nat :=
  if e < 16 then 184 + e / 2 else if e < 24 then 192 + (e - 16) / 2 else if e < 28 then 196 else if e < 30 then 197
  else if e < 34 then 198 else 199

/-- The engines are tested at domain 14's power-up (R328). -/
def State.testEngines (s : State) (t : SelfTest) : State :=
  let bad := (List.range 36).filter t.engines.contains
  let mask := bad.foldl (fun m e => m + 2 ^ e) 0
  let fresh := bad.filter fun e => !s.rel.engines.testBit e
  let s1 := { s with rel := { s.rel with engines := mask, healthy := 2 ^ 36 - 1 - mask, events := s.rel.events + fresh.length } }
  fresh.foldl (fun s e => s.addLog (withdrawLog (engineIsland e) 14 e 2)) s1

/-- The channels of a die are trained at its memory domain's power-up; those that fail are marked (R167). -/
def State.trainChannels (s : State) (t : SelfTest) (die : Nat) : State :=
  let mine := (List.range 64).map (64 * die + ·)
  { s with rel := { s.rel with channels := mine.foldl (fun m ch => NMap.set false m ch (t.channels.contains ch)) s.rel.channels
                               linkBad := NMap.drop (fun ch => ch / 64 = die) s.rel.linkBad } }

/-- Power domain `d` comes on and its units are tested. -/
def State.powerUp (s : State) (t : SelfTest) (d : Nat) : State :=
  let s1 := { s with pw := { s.pw with on := s.pw.on ||| 2 ^ d } }
  if d < 8 then ((List.range 8).map (8 * d + ·)).foldl (fun s k => s.testCore t k) s1
  else match d with
  | 10 => s1.trainChannels t 0
  | 11 => s1.trainChannels t 1
  | 12 => (List.range 4).foldl (fun s k => s.testCluster t k) s1
  | 13 => (List.range 4).foldl (fun s k => s.testCluster t (4 + k)) s1
  | 14 => s1.testEngines t
  | _ => s1

/-- A core loses what it holds; its withdrawal and CHECK_SUSPECT last. -/
def State.coreOff (s : State) (k : Nat) : State :=
  let x := s.core k
  (s.setCore k { Core.init with quarantined := x.quarantined, sticky := x.sticky, suspect := x.suspect }).forgetCounters (aMC k 0) (aMC k 0x1000)
    |>.forgetCounters (aVE k 0) (aVE k 0x1000)

/-- A cluster loses its image, memories and flags, its cores everything but their withdrawal (R305, R324). -/
def State.clusterOff (s : State) (k : Nat) : State :=
  let off (s : State) (n : Nat) : State :=
    (s.setSc n { Sc.init with quarantined := (s.sc n).quarantined }).forgetCounters (aSC n 0) (aSC n 0x1000)
  ((List.range 16).map (16 * k + ·)).foldl off (s.setCluster k Cluster.init)

/-- Power domain `d` goes off: dirty lines of an L2 are written back first, as far as their homes may be written (R162, R175); regions of residents are dropped with their core; links
of a SerDes domain go down (R17, R362, R433). -/
def State.powerOff (s : State) (d : Nat) : State :=
  let s1 :=
    if d < 8 then ((List.range 8).map (8 * d + ·)).foldl (fun s k => s.coreOff k)
      ((s.abandonRound d).forgetCounters (aCoop d 0) (aCoop d 0x1000))
    else match d with
    | 8 | 9 =>
      let objs := s.tenants.flatMap fun e => (NMap.keys e.2.objs).map fun h => (e.1, h)
      let back (s : State) (e : Nat × Nat) : State := match s.obj e.1 e.2 with
        | some o => if (s.backStop o).isNone && s.owns o then s.writeBackAll e.1 e.2 else s
        | none => s
      let r := objs.foldl back s
      let u := (r.forgetCounters (aDP (d - 8) 0) (aDP (d - 8) 0x1000)).forgetCounters (aTID (d - 8) 0) (aTID (d - 8) 0x1000)
      { u with trackers := NMap.drop (fun k => k / 128 = d - 8) u.trackers }
    | 12 => (List.range 4).foldl (fun s k => s.clusterOff k) s
    | 13 => (List.range 4).foldl (fun s k => s.clusterOff (4 + k)) s
    | 14 => { s.forgetCounters (aWE 0x010) (aWE 0x1000) with engineStatus := [] }
    | 15 => { s with fabric := { s.fabric with ports := [] } }
    | 16 => (List.range 16).foldl (fun s n => if (s.sub n).link = 2 then s.moveLink n false else s) s
    | _ => s
  { s1 with pw := { s1.pw with on := s1.pw.on &&& (0xFFFFF - 2 ^ d) } }

end Sys2Proof.Machine
end

