-- ==== Sys2Proof/Machine/Dispatcher.lean ====
section
/-! DEFINITION. The Dispatchers (09): grants, placement and residency, run limits, radio commands, completions and RADIO_RESERVE. -/
namespace Sys2Proof.Machine

/-! ### Grants (R179, R180, R195) -/

/-- The previous packet of R26 has completed. -/
def State.prevDone (s : State) (c : Cmd) : Bool :=
  match c.prev.bind s.cmd? with
  | some d => d.stage = .done && d.disputed = 0 && d.replay.isNone
  | none => true

/-- The command is ready and, where it uses no core, the east completion queue has a free entry. The east Dispatcher, which holds the
counts (R180), has power (Table 1-5). One held at a feeder for a barrier waits for its fire (R420). -/
def State.mayGrant (s : State) (c : Cmd) : Bool :=
  c.stage = .accepted && c.core.isNone && c.entry ≠ .mgmt && s.pw.on.testBit 8 && s.tokensReady c && s.prevDone c && !s.stalled c.tenant && !s.waitOver c
    && (coreOp c.opcode || s.cqFree 0)

/-- Die that counts the grant: the die the command is offered to first (R186). -/
def State.grantDie (s : State) (c : Cmd) : Nat :=
  if coreOp c.opcode && !(List.range 32).any (s.eligible c) && (List.range 32).any (fun k => s.eligible c (32 + k)) then 1 else 0

/-- Grant a command: its needs are subtracted in one action; a coreless command reserves its entry. One that no core is eligible for ends here
(R185). -/
def State.grant (s : State) (c : Cmd) : State :=
  if coreOp c.opcode && !(List.range 64).any (s.eligible c) then s.noCore c
  else
  let s1 := s.takeTokens c
  let s2 := if coreOp c.opcode then s1.setCmd { c with stage := .granted, since := s.now }
    else (s1.setCmd { c with stage := .granted, since := s.now, queue := some 0 }).setCq 0 (s1.cq 0 + 1)
  s2.bump (aDP (s.grantDie c) 0x010) 1

/-- COMMAND_GRANT: the command, where no older one of its tenant may be granted before it. -/
def commandGrant (id : Nat) (s : State) : State :=
  match s.cmd? id with
  | some c => if s.mayGrant c ∧ !(s.cmds.any fun d => d.tenant = c.tenant && d.id < id && s.mayGrant d) then s.grant c else s
  | none => s

/-- COMMAND_GRANT. -/
def execCommandGrant (id : Nat) (s : State) : Host.Outcome State Fault Refusal := .next (commandGrant id s)

/-! ### Choice of the next command of a core (R186, R187) -/

/-- The core is held at its feeder for a barrier (R420). -/
def State.heldCore (s : State) (k : Nat) : Bool := s.fabric.barriers.any fun e => e.2.heldCores.any (·.1 = k)

/-- The command placed on a core that waits there for its residency (R190). -/
def State.placedOn (s : State) (k : Nat) : Option Cmd := s.cmds.find? fun c => c.stage = .granted && decide (c.core = some k)

/-- Idle for a context command: no command runs on it, is placed on it or held at its feeder (R186), and a completion entry is free on its die
(R195). A spill or fill does not keep it from being idle. -/
def State.coreIdle (s : State) (k : Nat) : Bool :=
  (s.core k).running.isNone && (s.placedOn k).isNone && !s.heldCore k && s.cqFree (dieOf k)

/-- A disputed command waits for its replay on core `k`, the lowest-numbered idle core eligible for it (R393). -/
def State.replayOn (s : State) (k : Nat) (d : Cmd) : Bool :=
  d.disputed ≠ 0 && d.replay.isNone && d.core ≠ some k && s.eligible d k
    && !(List.range k).any fun j => d.core ≠ some j && s.eligible d j && s.coreIdle j

/-- A replay goes ahead of every waiting command of no higher priority (R393). -/
def State.replayAhead (s : State) (k : Nat) (c : Cmd) : Bool :=
  s.cmds.any fun d => d.disputed ≠ 0 && (s.ctx d.tenant d.ctx).prio ≥ (s.ctx c.tenant c.ctx).prio && s.replayOn k d

/-- The command may be placed on core `k`: granted, not placed yet, eligible there, and no lower-numbered eligible core is idle. -/
def State.candidate (s : State) (k : Nat) (c : Cmd) : Bool :=
  coreOp c.opcode && c.stage = .granted && c.core.isNone && s.eligible c k && !s.stalled c.tenant && !s.heldBack c
    && !((List.range k).any fun j => s.eligible c j && s.coreIdle j) && !s.replayAhead k c

/-- Keys 2 to 4 of R187: `a` goes before `b` on a die. -/
def State.goesBefore (s : State) (die : Nat) (a b : Cmd) : Bool :=
  let pa := (s.ctx a.tenant a.ctx).prio
  let pb := (s.ctx b.tenant b.ctx).prio
  if pa ≠ pb then pa > pb
  else if a.tenant = b.tenant then a.id < b.id
  else
    let sa := (s.tenant a.tenant).share
    let sb := (s.tenant b.tenant).share
    let x := s.usedTime a.tenant die * sb
    let y := s.usedTime b.tenant die * sa
    if sa = 0 ∧ sb = 0 then a.tenant < b.tenant
    else if sa = 0 then false
    else if sb = 0 then true
    else if x = y then a.tenant < b.tenant else x < y

/-- Insert into a list in the order of R187. -/
def State.insertChoice (s : State) (die : Nat) (c : Cmd) : List Cmd → List Cmd
  | [] => [c]
  | d :: r => if s.goesBefore die c d then c :: d :: r else d :: s.insertChoice die c r

/-- Waiting commands for a core in the order of R187. -/
def State.choices (s : State) (k : Nat) : List Cmd :=
  (s.cmds.filter (s.candidate k)).foldl (fun l c => s.insertChoice (dieOf k) c l) []

/-! ### Residency (R189–R191) -/

def Resident.is (r : Resident) (t c : Nat) : Bool := r.tenant = t && r.ctx = c

/-- The command's context is resident on the core. -/
def Core.hosts (x : Core) (c : Cmd) : Bool := x.residents.any (·.is c.tenant c.ctx)

/-- A context has a granted command eligible for the core. -/
def State.wanted (s : State) (k : Nat) (r : Resident) : Bool :=
  s.cmds.any fun c => coreOp c.opcode && c.stage = .granted && r.is c.tenant c.ctx && s.eligible c k

/-- The keys of R191: `a` is taken before `b`. -/
def State.victimBefore (s : State) (k : Nat) (a b : Resident) : Bool :=
  let pa := (s.ctx a.tenant a.ctx).prio
  let pb := (s.ctx b.tenant b.ctx).prio
  let wa := s.wanted k a
  let wb := s.wanted k b
  if pa ≠ pb then pa < pb else if wa ≠ wb then !wa else a.lastUse < b.lastUse

/-- The victim of R191: a resident that is not protected and in no fill. -/
def State.victim (s : State) (k : Nat) : Option Resident :=
  let x := s.core k
  (x.residents.filter fun r => !r.guarded && !(x.filling.any fun f => f.is r.tenant r.ctx)).foldl (fun v r => match v with
    | none => some r
    | some w => if s.victimBefore k r w then some r else some w) none

/-- A spilled region of a context on a die. -/
def State.spilledOf (s : State) (die t c : Nat) : Option Resident :=
  (s.spilled.find? fun e => e.1 = die && e.2.is t c).map Prod.snd

/-- A context becomes resident, protected until its first command there starts; its spilled region is filled first. -/
def State.bringIn (s : State) (k t c : Nat) : State :=
  let x := s.core k
  let others := x.residents.filter (!·.is t c)
  let r : Resident := { tenant := t, ctx := c, bytes := 0, guarded := true, lastUse := s.now }
  match s.spilledOf (dieOf k) t c with
  | some old =>
    let r1 := { r with bytes := old.bytes }
    { s.setCore k { x with residents := others ++ [r1], filling := some r1 } with
      spilled := s.spilled.filter fun e => !(e.1 = dieOf k && e.2.is t c) }
  | none => s.setCore k { x with residents := others ++ [r] }

/-- SPILL_END: the victim's region lies in L2, in place of an older one of its context on the die; the newcomer is resident. What was dropped
meanwhile, because its context was closed or reset, stays dropped (R59, R60). -/
def spillEnd (k : Nat) (s : State) : State :=
  let x := s.core k
  match x.spilling with
  | none => s
  | some (v, n) =>
    let die := dieOf k
    let s1 := s.setCore k { x with spilling := none }
    let s2 := match v with
      | some r => { s1 with spilled := s.spilled.filter (fun (e : Nat × Resident) => !(e.1 = die && e.2.is r.tenant r.ctx)) ++ [(die, r)] }.bump (aDP die 0x020) r.bytes
      | none => s1
    match n with
    | some r => if x.residents.length < 4 ∧ x.filling.isNone then s2.bringIn k r.tenant r.ctx else s2
    | none => s2

/-- SPILL_END. -/
def execSpillEnd (core : Nat) (s : State) : Host.Outcome State Fault Refusal := .next (spillEnd core s)

/-- FILL_END: the context's region is back in its core. -/
def fillEnd (k : Nat) (s : State) : State :=
  let x := s.core k
  match x.filling with
  | none => s
  | some r => (s.setCore k { x with filling := none }).bump (aDP (dieOf k) 0x020) r.bytes

/-- FILL_END. -/
def execFillEnd (core : Nat) (s : State) : Host.Outcome State Fault Refusal := .next (fillEnd core s)

/-! ### Starts (R33, R85, R188, R195) -/

/-- The opcode's own checks, judged again at the start (R33). -/
def coreOpCheck (s : State) (c : Cmd) : Option Fail :=
  match c.opcode with
  | 0x2001 => checkChain s c
  | 0x2002 => checkVectorRun s c
  | 0x2004 => checkReduce s c
  | 0x2005 => checkGather s c
  | _ => checkSample s c

/-- The command's context is resident on the core, where there is room for it. -/
def Core.takeIn (x : Core) (c : Cmd) (now : Nat) : List Resident :=
  if x.hosts c then x.residents.map fun r => if r.is c.tenant c.ctx then { r with guarded := false } else r
  else if x.residents.length < 4 then x.residents ++ [{ tenant := c.tenant, ctx := c.ctx, bytes := 0, guarded := false, lastUse := now }]
  else x.residents

/-- The core runs the command. -/
def Core.runs (x : Core) (c : Cmd) (now : Nat) : Core :=
  let chain := c.opcode = 0x2001
  let mode := pairMode c.chACode c.chBCode
  { x with running := some c.id, residents := x.takeIn c now, mode := if chain then mode else 0,
           split := if chain then (if splitOf mode c.chK = 4 then 2 else splitOf mode c.chK - 1) else 0 }

/-- FORCE as a command that starts now finds it: that of the last CHECK_CONFIG accepted (R403), though it has its effect on the settings only as
it completes (R408). -/
def State.forceNow (s : State) : Nat :=
  s.cmds.foldl (fun f c => if c.opcode = 0x8002 ∧ c.stage ≠ .done then c.p 0 2 else f) s.rel.force

/-- A command as it starts on core `k`: its run limit, whether checking is forced (R403), the image of a VECTOR_RUN (R144) and the step counter of
a SAMPLE (R207) are those of now. -/
def State.atStart (s : State) (k : Nat) (c : Cmd) : Cmd :=
  { c with core := some k, startedAt := s.now, limit := s.runLimit c, slowed := 0, forced := s.forceNow.testBit c.tenant,
           image := if c.opcode = 0x2002 then (s.tenant c.tenant).image (c.p 0 1) else [],
           atStep := if c.opcode = 0x2013 then (s.ctx c.tenant c.ctx).step else 0 }

/-- Memory references of a command's operands, which the stager brings up: all it names but those it only writes. -/
def operandRefs (c : Cmd) : List Nat :=
  let outs := match c.opcode with
    | 0x2001 => [32, 40, 80]
    | 0x2002 => []
    | 0x2004 => [0]
    | _ => [8]
  (((refOffsets c.opcode (c.p 14 1)).filter fun o => !outs.contains o).map fun o => c.p o 8).eraseDups

/-- A placed command starts on its core. -/
def State.startOn (s : State) (k : Nat) (c : Cmd) : State :=
  let c1 := s.atStart k c
  match s.contextAtStart c <|> coreOpCheck s c with
  | some f => (s.setCmd { c1 with signals := [] }).finish c.id f.1 f.2
  | none => ((s.setCmd { c1 with stage := .started }).setCore k ((s.core k).runs c s.now)).stage c (operandRefs c)

/-- Residency a command needs on the core: its context resident, and its region in none but the core (R190, R191). -/
inductive Entry1 where
  /-- it can start -/
  | ready
  /-- a spill or fill in progress stands in the way -/
  | wait
  /-- its spilled region is to be filled -/
  | fill
  /-- a resident is to be spilled -/
  | spill (v : Resident)
  /-- every resident is protected -/
  | full
  deriving DecidableEq, Repr

/-- What stands between a command and its start on core `k`. -/
def State.entering (s : State) (k : Nat) (c : Cmd) : Entry1 :=
  let x := s.core k
  let mine (r : Option Resident) : Bool := r.any (·.is c.tenant c.ctx)
  if mine x.filling || (x.spilling.any fun p => mine p.1 || mine p.2) then .wait
  else if x.hosts c || x.residents.length < 4 then
    if (s.spilledOf (dieOf k) c.tenant c.ctx).isNone then .ready else if x.filling.isSome then .wait else .fill
  else if x.spilling.isSome then .wait
  else match s.victim k with
    | some v => .spill v
    | none => .full

/-- A command placed on core `k` starts there, or its residency changes first (R190). -/
def State.settleOn (s : State) (k : Nat) (c : Cmd) : State :=
  if !s.eligible c k then s.unseat c
  else if s.stalled c.tenant || s.heldBack c then s
  else
    let x := s.core k
    match s.entering k c with
    | .ready => s.startOn k c
    | .wait | .full => s
    | .fill => s.bringIn k c.tenant c.ctx
    | .spill v =>
      let d := s.draw
      let v1 := { v with bytes := d.1.toNat % (s.scratch k + 1) }
      let n : Resident := { tenant := c.tenant, ctx := c.ctx, bytes := 0, guarded := true, lastUse := s.now }
      (d.2.setCore k { x with residents := x.residents.filter (!·.is v.tenant v.ctx), spilling := some (some v1, some n) }).bump
        (aDP (dieOf k) 0x018) 1

/-- Place a chosen command on core `k`: it is bound to the core and reserves its entry, then starts or waits for its residency. -/
def State.place (s : State) (k : Nat) (c : Cmd) : State :=
  (s.seat k c).settleOn k { c with core := some k, queue := some (dieOf k) }

/-- The radio command a radio-eligible core takes: the oldest that waits. -/
def State.nextRadio (s : State) (k : Nat) : Option RadioCmd :=
  let x := s.core k
  if k < s.variant.cores && s.radioCore k && x.running.isNone && !s.heldCore k && !x.removing && s.pw.on.testBit (k / 8)
      && s.cq (dieOf k) < 1024 then
    s.radioCmds.find? fun r => r.run.isNone
  else none

/-- A radio command starts on a core; its wait is measured (R194). -/
def State.startRadio (s : State) (k : Nat) (r : RadioCmd) : State :=
  let die := dieOf k
  let mark (q : RadioCmd) : RadioCmd := if q.id = r.id then { q with run := some (k, s.now) } else q
  let s1 := { s with radioCmds := s.radioCmds.map mark }
  ((s1.setCore k { s1.core k with running := some r.id }).setCq die (s1.cq die + 1)).bumpMax (aDP die 0x038) ((s.now - r.issuedAt) / 4)

/-- COMMAND_START: at a command boundary the Dispatcher takes a radio command first, else the command already placed on the core, else the
first choice of R187 that R191 lets in, else the first whose context is resident. -/
def commandStart (k : Nat) (s : State) : State :=
  match s.nextRadio k with
  | some r => s.startRadio k r
  | none =>
    if (s.core k).running.isSome || s.heldCore k then s
    else match s.placedOn k with
      | some c => s.settleOn k c
      | none =>
        if !s.coreIdle k then s
        else match s.choices k with
          | [] => s
          | c :: cs =>
            if s.entering k c ≠ .full then s.place k c
            else match (c :: cs).find? (s.core k).hosts with
              | some d => s.place k d
              | none => s

/-- COMMAND_START. -/
def execCommandStart (core : Nat) (s : State) : Host.Outcome State Fault Refusal := .next (commandStart core s)

/-! ### Run limits and the context watchdog (R61, R86, R188) -/

/-- SLOT_GUARD_LIMIT: the command running on the core has reached its run limit. -/
def slotGuardLimit (k : Nat) (s : State) : State :=
  match (s.core k).running.bind s.cmd? with
  | none => s
  | some c =>
    if c.stage ≠ .done ∧ s.limitReached c then
      (s.bump (aDP (dieOf k) 0x028) 1).failRunning c (stOverrun, [1])
    else s

/-- SLOT_GUARD_LIMIT. -/
def execSlotGuardLimit (core : Nat) (s : State) : Host.Outcome State Fault Refusal := .next (slotGuardLimit core s)

/-- Commands the context watchdog does not measure (R61). It measures the packets of a step program: DESIGN CHOICE (log 125), R61 has the step
watched by the serving loop's watchdog, and Table 9-8 lists OVERRUN with cause 0x02 for a packet of it. -/
def unwatched (op : Nat) : Bool := [0x0006, 0x0007, 0x2011, 0x9003, 0x3002, 0x3003, 0x3004].contains op

/-- Time a command's watchdog measures from: none while it waits for other commands of its tenant (R61). -/
def State.watchedSince (s : State) (c : Cmd) : Option Nat :=
  if c.opcode = 0x1002 ∧ c.stage = .waiting then (if c.fence.isEmpty then some c.since else none)
  else if c.opcode = 0x4004 ∧ c.stage = .waiting then
    if c.fence.isEmpty && !transferReady s c then none else some (if c.fence.isEmpty then c.startedAt else c.since)
  else some c.startedAt

/-- CONTEXT_WATCHDOG: a started command of scope C reaches its tenant's period; time at a reduced clock accrues as R426
gives. -/
def contextWatchdog (id : Nat) (s : State) : State :=
  match s.cmd? id with
  | none => s
  | some c =>
    let running : Bool := c.stage = .started || c.stage = .waiting
    let late := (s.watchedSince c).map fun t => decide (16 * s.now ≥ 16 * (t + msec (s.tenant c.tenant).watchdog) + c.slowed)
    if running ∧ scopeC c.opcode ∧ c.entry ≠ .mgmt ∧ !unwatched c.opcode ∧ late.getD false then
      (s.addLog { cmdLog 6 5 c with status := stOverrun }).failRunning c (stOverrun, [2])
    else s

/-- CONTEXT_WATCHDOG. -/
def execContextWatchdog (id : Nat) (s : State) : Host.Outcome State Fault Refusal := .next (contextWatchdog id s)

/-! ### Radio commands (R192, R194, R395) -/

/-- RADIO_COMMAND_ISSUE: the radio sequencer issues a radio command for a started cell; its running time and what its check shows
are the environment's. -/
def radioCommandIssue (cell ns : Nat) (disagree : Bool) (s : State) : State :=
  if s.variant.radio ∧ ((s.cell cell).map (·.st.started)).getD false then
    { s with
      radioCmds := s.radioCmds ++ [{ id := s.nextId + 1, cell := cell, time := 4 * ns, disagree := disagree, issuedAt := s.now, run := none }]
      nextId := s.nextId + 1 }
  else s

/-- RADIO_COMMAND_ISSUE. -/
def execRadioCommandIssue (cell ns : Nat) (disagree : Bool) (s : State) : Host.Outcome State Fault Refusal :=
  .next (radioCommandIssue cell ns disagree s)

/-- A disagreement of a radio command: logged, its outputs poisoned; the third within 1 s withdraws the core (R395). -/
def State.radioDispute (s : State) (k : Nat) : State :=
  let x := s.core k
  let times := s.now :: x.radioBad.filter fun t => s.now < t + msec 1000
  let s1 := (s.setCore k { x with radioBad := times }).addLog
    { LogRec.none_ with cls := 4, outcome := 1, island := 2 * k, domain := k / 8, tenant := 0, flags := 2, detail := k + 256 * 0xFF }
  if times.length ≥ 3 then
    (s1.quarantineCore k false).addLog { LogRec.none_ with cls := 5, outcome := 6, island := 2 * k, domain := k / 8, flags := 2 }
  else s1

/-- A radio command has ended: its core is free and its entry posted. -/
def State.postRadio (s : State) (die : Nat) (r : RadioCmd) (k : Nat) : State :=
  let s1 := ({ s with radioCmds := s.radioCmds.filter (·.id ≠ r.id) }.setCore k { s.core k with running := none }).setCq die (s.cq die - 1)
  if r.disagree then s1.radioDispute k else s1

/-! ### Completions (R35, R37, R181, R196) -/

/-- The command writes a record. -/
def Cmd.records (c : Cmd) : Bool :=
  if c.program then false
  else if c.entry = .remote then c.status ≥ 0x100
  else c.wantsReply || c.status ≠ stOK || c.opcode = 0x2011

/-- Its record cannot join the held records yet (R37). -/
def State.recordWaits (s : State) (c : Cmd) : Bool :=
  c.records && c.entry ≠ .remote && !s.hostGone && (s.tenant c.tenant).provisioned && (s.fn c.tenant).held.length ≥ 256

/-- Die whose queue a command completes in. -/
def Cmd.die (c : Cmd) : Nat := c.queue.getD 0

/-- Order of R196 among commands: ascending core number, then coreless ones in acceptance order. -/
def postBefore (a b : Cmd) : Bool :=
  let ka := a.core.getD 64
  let kb := b.core.getD 64
  if ka = kb then a.id < b.id else ka < kb

/-- The next command of a die to post. -/
def State.nextPost (s : State) (die : Nat) : Option Cmd :=
  (s.cmds.filter fun c => c.stage = .done && c.disputed = 0 && c.replay.isNone && c.die = die && !(c.signalled && s.recordWaits c)).foldl
    (fun v c => match v with
      | none => some c
      | some w => if postBefore c w then some c else some w) none

/-- A packet has ended its step: any status but OK, DEFERRED or CHECK_RESOLVED does (R202). -/
def Cmd.failsStep (c : Cmd) : Bool := c.program && c.status ≠ stOK && c.status ≠ stDeferred && c.status ≠ stResolved

/-- A packet of a step program completes. One that fails its step does so at once: the context dies and its sequences end with the status; of
packets that ended together with it because the context died, the one that killed it counts (R202). A step is measured from the start of
its first packet (R203). -/
def State.programDone (s : State) (c : Cmd) : State :=
  let x := s.ctx c.tenant c.ctx
  if !c.program then s
  else if c.failsStep ∧ x.stepping.isSome then
    let mine := c :: s.cmds.filter fun d => d.tenant = c.tenant && d.ctx = c.ctx && d.stage = .done && d.failsStep
    let b := (mine.find? fun d => d.status ≠ stContextDead).getD c
    failStep s c.tenant c.ctx b.status (if b.status = stOverrun then fieldAt b.result 0 1 else 0)
  else s.setCtx c.tenant c.ctx { x with stepping := x.stepping.map fun p => (p.1, some (min (p.2.getD c.startedAt) c.startedAt)) }

/-- A LEASE_SET forwarded to this module answers the module that sent it with its status (R254). -/
def State.answerLease (s : State) (c : Cmd) : State :=
  if c.entry = .remote ∧ c.opcode = 0x4020 then
    s.send { node := leNat (c.trailer.take 2), kind := .status, number := 0, epoch := 0, data := leBytes 2 c.status ++ c.result, poison := false }
  else s

/-- Post a command: its tokens are signalled, then its record is passed to the reply engine; one that cannot join the held records
keeps its entry. -/
def State.postCmd (s : State) (c : Cmd) : State :=
  let s1 := if c.signalled then s else s.giveSignals c
  if s1.recordWaits c then s1.setCmd { c with signalled := true }
  else
    let s2 := (if c.records then s1.reply c.tenant (s1.cmdReply c true) else s1).answerLease c
    (((s2.freeEntry c).dropCmd c.id).programDone c).settle.settleContexts

/-- COMPLETION_POST: one entry of a die's queue, radio commands first. -/
def completionPost (die : Nat) (s : State) : State :=
  let ended (r : RadioCmd) : Bool := (r.run.map fun x => decide (dieOf x.1 = die ∧ s.now ≥ x.2 + r.time)).getD false
  match s.radioCmds.find? ended with
  | some r => s.postRadio die r ((r.run.map Prod.fst).getD 0)
  | none => match s.nextPost die with
    | some c => s.postCmd c
    | none => s

/-- COMPLETION_POST. -/
def execCompletionPost (die : Nat) (s : State) : Host.Outcome State Fault Refusal := .next (completionPost die s)

/-! ### RADIO_RESERVE (R193) -/

def rrSet (s : State) (c : Cmd) : Nat := if c.p 0 8 = 0 then s.variant.defaultRadioSet else c.p 0 8
def rrGuard (c : Cmd) : Nat := if c.p 8 4 = 0 then 2000 else c.p 8 4

def resvRadioReserve (s : State) (c : Cmd) : Bool := s.maskLegal (c.p 0 8) && zeroAt c.params 12 4

/-- Checks of Table 9-2. -/
def checkRadioReserve (s : State) (c : Cmd) : Option Fail :=
  let set := rrSet s c
  firstFail
    [ need (100 ≤ rrGuard c && rrGuard c ≤ 2000) stShape 0x57,
      need ((setBits 64 set).all fun k => k < s.variant.cores && !(s.core k).quarantined) stNoResources 1,
      need ((setBits 64 set).length ≤ 16) stNoResources 3,
      need (!s.anyStarted || (Nat.land s.radioSet set = s.radioSet && rrGuard c ≤ s.guard)) stNoResources 2 ]

/-- RADIO_RESERVE: the new set and Slot Guard limit; regions on its cores keep nothing inside the carve-out. -/
def runRadioReserve (s : State) (c : Cmd) : State :=
  let cut (k : Nat) (r : Resident) : Resident := if (rrSet s c).testBit k then { r with bytes := min r.bytes 0x180000 } else r
  let trim (e : Nat × Core) : Nat × Core := (e.1, { e.2 with residents := e.2.residents.map (cut e.1), filling := e.2.filling.map (cut e.1) })
  let s1 := { s with radioSet := rrSet s c, guard := rrGuard c, cores := s.cores.map trim }
  (s1.sweepPlacement).ok c.id (leBytes 8 (rrSet s c) ++ leBytes 4 (rrGuard c))

/-- RADIO_RESERVE. -/
def execOpRadioReserve (id : Nat) (s : State) : Host.Outcome State Fault Refusal := .next (runCoreless 0x5020 checkRadioReserve runRadioReserve id s)

end Sys2Proof.Machine
end

