-- ==== Sys2Proof/Machine/Replay.lean ====
section
/-! DEFINITION. Settling a check disagreement (R393, R394), barriers (R419–R422) and the start of a replay (R417). -/
namespace Sys2Proof.Machine

/-! ### Disagreements (R393, R394, Table 19-2) -/

/-- The command reads what it writes (R394). -/
def readsWrites (c : Cmd) : Bool :=
  (c.opcode = 0x2001 && c.chResidual ≠ 0 && c.chResidual = c.chDest)
    || (c.opcode = 0x2002 && (List.range 8).any fun b => c.vrRef b ≠ 0 && c.vrAccess b = 3)

/-- The disagreement of core `k` with kind `kind` stays open: the outputs are poisoned, the context is live. -/
def State.unresolved (s : State) (c : Cmd) (k replay kind : Nat) : State :=
  let s1 := s.poisonRanges c.tenant (cmdOutputs s c)
  (s1.setCmd { c with status := stUnresolved, result := [], disputed := 0, replay := none }).addLog
    (checkLog 4 { c with status := stUnresolved } k replay (4 < kind && kind < 8))

/-- The disagreement is resolved. -/
def State.resolved (s : State) (c : Cmd) (outcome k replay kind : Nat) : State :=
  (s.setCmd { c with status := stResolved, disputed := 0, replay := none }).addLog
    (checkLog outcome { c with status := stResolved } k replay (4 < kind && kind < 8))

/-- The checker is judged faulty: CHECK_SUSPECT, and a core already suspect is withdrawn (R394). -/
def State.suspectCore (s : State) (k : Nat) : State :=
  if (s.core k).suspect then s.quarantineCore k true else s.setCore k { s.core k with suspect := true }

/-- The replay starts: the whole command runs again on core `j`, with a fresh run limit and with checking. -/
def State.startReplay (s : State) (c : Cmd) (k j : Nat) : State :=
  (s.setCmd { s.atStart j c with stage := .started, forced := true, status := 0, result := [], disputed := 0, replay := some (k, c.disputed) }).setCore j
    ((s.core j).runs c s.now)

/-- The replay of the command, begun on core `k` and replayed on `j`, has ended and is settled (Table 19-2). `passed`: its own check passed. -/
def State.settleReplay (s : State) (c : Cmd) (k j kind : Nat) (o : ReplayObs) : State :=
  let passed := c.status = stOK ∧ c.disputed = 0 ∧ o.passes
  if passed ∧ (kind = 5 ∨ (kind ≠ 6 ∧ o.same)) then (s.resolved c 2 k j kind).suspectCore k
  else if passed ∧ (kind = 6 ∨ (!o.same ∧ o.agrees)) then (s.resolved c 3 k j kind).quarantineCore k (kind ≠ 6)
  else s.unresolved c k j kind

/-- REPLAY: a completed command whose check disagreed is replayed on the lowest-numbered other core that is idle and eligible, or ends where it
has no replay (R394); once its replay has ended, REPLAY settles it. The environment's part is what the comparison of two cores' bits shows where
this model injected nothing. -/
def replay (id : Nat) (o : ReplayObs) (s : State) : State :=
  match s.cmd? id with
  | none => s
  | some c =>
    match c.core with
    | none => s
    | some k =>
      if !(coreOp c.opcode && c.stage = .done && !c.signalled) then s
      else match c.replay with
        | some (k0, kind) => s.settleReplay c k0 k kind o
        | none =>
          let others := (List.range 64).filter fun j => j ≠ k && s.eligible c j
          if c.status ≠ stOK then s
          else if others.isEmpty || readsWrites c || !c.checked then s.unresolved c k 0xFF c.disputed
          else match others.find? s.coreIdle with
            | none => s
            | some j => s.startReplay c k j

/-- REPLAY. -/
def execReplay (id : Nat) (o : ReplayObs) (s : State) : Host.Outcome State Fault Refusal := .next (replay id o s)

/-! ### Barriers (R259, R419–R422) -/

def State.barrier (s : State) (b : Nat) : Barrier := NMap.get default s.fabric.barriers b
def State.setBarrier (s : State) (b : Nat) (x : Barrier) : State :=
  { s with fabric := { s.fabric with barriers := NMap.set default s.fabric.barriers b x } }

/-- Child ports of the barrier tree: ports the image uses, other than the parent's. -/
def State.barrierChildren (s : State) : List Nat :=
  (List.range 8).filter fun p => p ≠ s.fabric.parent && (NMap.get none s.fabric.neighbours p).isSome && Config.barrierChild s.fabric.node p

/-- A sideband signal leaves on a port that is up. -/
def State.sideband (s : State) (p : Nat) (kind : SentKind) (number : Nat) (data : List Byte) : State :=
  if (s.wfPort p).live then
    { s with fabric := { s.fabric with
      sent := { node := p, kind := kind, number := number, epoch := s.fabric.epoch, data := data, poison := false } :: s.fabric.sent } }
  else s

/-- A release with `remaining` goes to every child port. -/
def State.sendRelease (s : State) (b : Nat) (remaining : Int) : State :=
  s.barrierChildren.foldl (fun s p => s.sideband p .barrierRelease b (leBytes 4 (BitVec.ofInt 32 remaining).toNat)) s

/-- D of a BARRIER_ARM. -/
def baDelay (c : Cmd) : Nat := if c.p 4 4 = 0 then 40000 else c.p 4 4

/-- Armed here and by every child: the arm goes up, or at the root the release goes out. -/
def State.passArm (s : State) (b : Nat) : State :=
  let x := s.barrier b
  match x.armed.bind s.cmd? with
  | none => s
  | some c =>
    if x.sent || !(s.barrierChildren.all x.arms.contains) then s
    else if s.fabric.parent = 0xFF then
      (s.setBarrier b { x with sent := true, arms := [], release := some ((baDelay c : Int), s.now) }).sendRelease b (baDelay c)
    else (s.setBarrier b { x with sent := true }).sideband s.fabric.parent .barrierArm b []

/-- The command qualifies to be held for an armed barrier (R420): its needs are met once the arm's signals are given, and not
before. -/
def State.holdable (s : State) (arm c : Cmd) : Bool :=
  coreOp c.opcode && c.stage = .accepted && c.core.isNone && c.tenant = arm.tenant && c.ctx = arm.ctx && s.prevDone c && !s.stalled c.tenant
    && !s.tokensReady c
    && c.waits.all fun k => c.needOf k ≤ s.token c.tenant k + (if arm.signals.contains k then arm.signals.count k else 0)

/-- Core a held command is placed on: idle, eligible and outside the radio-eligible set, with room for its context. -/
def State.holdPlace (s : State) (c : Cmd) : Option Nat :=
  (List.range 64).find? fun k => s.eligible c k && !s.radioCore k && s.coreIdle k && s.entering k c = .ready

/-- Commands held at the feeder at arm time. -/
def State.holdCommands (s : State) (b : Nat) (arm : Cmd) : State :=
  (s.cmds.filter (s.holdable arm)).foldl (fun s c => match s.holdPlace c with
    | some k => let x := s.barrier b; (s.setBarrier b { x with heldCores := x.heldCores ++ [(k, c.id)] }).seat k c
    | none => s) s

def resvBarrierArm (_ : State) (c : Cmd) : Bool := zeroAt c.params 1 3 && zeroAt c.params 12 4

def checkBarrierArm (s : State) (c : Cmd) : Option Fail :=
  firstFail
    [ (s.fabric.st ≠ 0 && !s.fabric.fenced, (stFenced, [])),
      need (c.p 0 1 < 16 && (c.p 4 4 = 0 || (4000 ≤ c.p 4 4 && c.p 4 4 ≤ 400000)) && c.p 8 4 ≤ 10000000) stShape 0xB0,
      need (s.barrier (c.p 0 1)).armed.isNone stNoResources 0x51 ]

/-- BARRIER_ARM arms the barrier and waits for the fire. -/
def runBarrierArm (s : State) (c : Cmd) : State :=
  let b := c.p 0 1
  let s1 := (s.setCmd { c with stage := .waiting, since := s.now }).setBarrier b { s.barrier b with armed := some c.id, sent := false }
  (s1.holdCommands b c).passArm b

/-- BARRIER_ARM. -/
def execOpBarrierArm (id : Nat) (s : State) : Host.Outcome State Fault Refusal := .next (runCoreless 0x3004 checkBarrierArm runBarrierArm id s)

/-- A barrier signal may come in on a port of a joined module. -/
def State.sidebandIn (s : State) (p : Nat) : Bool := s.variant.fabric && s.fabric.st = 1 && (s.wfPort p).live

/-- BARRIER_ARM_SIGNAL: a child's arm arrives. -/
def barrierArmSignal (b p : Nat) (s : State) : State :=
  if s.sidebandIn p && s.barrierChildren.contains p then
    let x := s.barrier b
    (s.setBarrier b { x with arms := if x.arms.contains p then x.arms else x.arms ++ [p] }).passArm b
  else s

/-- BARRIER_ARM_SIGNAL. -/
def execBarrierArmSignal (barrier port : Nat) (s : State) : Host.Outcome State Fault Refusal := .next (barrierArmSignal barrier port s)

/-- BARRIER_RELEASE: a release arrives from the parent; the link's delay, and for the children the time it is held here, are taken
off what remains. -/
def barrierRelease (b p : Nat) (remaining : Int) (held : Nat) (s : State) : State :=
  if s.sidebandIn p && p = s.fabric.parent then
    let left := remaining - (s.wfPort p).delay
    let x := s.barrier b
    let s1 := s.setBarrier b { x with arms := [], sent := x.armed.isSome, release := if x.armed.isSome then some (left, s.now) else none }
    s1.sendRelease b (left - held)
  else s

/-- BARRIER_RELEASE. -/
def execBarrierRelease (barrier port : Nat) (remaining : Int) (held : Nat) (s : State) : Host.Outcome State Fault Refusal :=
  .next (barrierRelease barrier port remaining held s)

/-- A held command starts at the fire where its tokens are there and its core may still run it; else it is granted as others are (R180, R420). -/
def State.startHeld (s : State) (h : Nat × Nat) : State :=
  match s.cmd? h.2 with
  | some c =>
    if c.stage ≠ .accepted then s
    else if s.tokensReady c ∧ s.eligible c h.1 then
      ((s.takeTokens c).bump (aDP (dieOf h.1) 0x010) 1).startOn h.1 { c with since := s.now }
    else s.unseat c
  | none => s

/-- A barrier that has fired or timed out here: no longer armed; arms of children that came for its next use are kept. -/
def Barrier.disarmed (x : Barrier) : Barrier := { x with armed := none, release := none, sent := false, heldCores := [] }

/-- BARRIER_FIRE: what remained has run out: BARRIER_ARM completes with its tokens signalled, held commands start. -/
def barrierFire (b : Nat) (s : State) : State :=
  let x := s.barrier b
  match x.release, x.armed.bind s.cmd? with
  | some (left, at_), some c =>
    if (s.now : Int) ≥ at_ + max left 0 then
      let s1 := s.setBarrier b x.disarmed
      let s2 := (s1.setCmd { c with signals := [] }).ok c.id (leBytes 1 (b2n (left < 0)))
      x.heldCores.foldl (fun s h => s.startHeld h) (s2.giveSignals c)
    else s
  | _, _ => s

/-- BARRIER_FIRE. -/
def execBarrierFire (barrier : Nat) (s : State) : Host.Outcome State Fault Refusal := .next (barrierFire barrier s)

/-- BARRIER_TIMEOUT: the member's limit passes before it fires (R422). -/
def barrierTimeout (id : Nat) (s : State) : State :=
  match s.cmd? id with
  | none => s
  | some c =>
    let b := c.p 0 1
    let x := s.barrier b
    let stop := c.since + usec (c.p 8 4)
    let fires := (x.release.map fun r => decide ((r.2 : Int) + max r.1 0 ≤ stop)).getD false
    if c.opcode = 0x3004 ∧ c.stage = .waiting ∧ c.p 8 4 ≠ 0 ∧ s.now ≥ stop ∧ !fires then
      (((s.setBarrier b x.disarmed).setCmd { c with signals := [] }).finish
        id stWaitTimeout []).letGo x.heldCores
    else s

/-- BARRIER_TIMEOUT. -/
def execBarrierTimeout (id : Nat) (s : State) : Host.Outcome State Fault Refusal := .next (barrierTimeout id s)

/-! ### REPLAY_START (R417) -/

def resvReplayStart (_ : State) (c : Cmd) : Bool := refOk (c.p 0 8) && c.p 8 1 < 2 && zeroAt c.params 9 7

/-- The header of a record ring (Table 20-1) of the agreed version; why there is none (R155, R398, R417). -/
def ringHead (s : State) (c : Cmd) : Except Fail (List Byte) :=
  let r := s.readRef c.id c.tenant (c.p 0 8) 0 64
  let size := ((s.obj c.tenant (refHandle (c.p 0 8))).map (·.size)).getD 0
  let h := r.bytes
  match r.fail with
  | some f => .error f
  | none =>
    if r.poison then .error (stPoison, [0])
    else if refOff (c.p 0 8) = 0 && 64 ≤ fieldAt h 0 8 && fieldAt h 0 8 ≤ size && fieldAt h 0 8 % 32 = 0
      && fieldAt h 16 1 ≤ 2 && fieldAt h 17 1 < 8 && zeroAt h 20 4 && zeroAt h 40 24 && fieldAt h 18 2 = (s.fn c.tenant).version then .ok h
    else .error (stShape, [0xB3])

/-- A header that can be read is checked before the command starts. -/
def checkReplayStart (s : State) (c : Cmd) : Option Fail :=
  match ringHead s c with
  | .ok _ => none
  | .error f => if f.1 = stShape then some f else none

/-- REPLAY_START: step counter and seed take the header's values; the entries are fed from then on. -/
def runReplayStart (s : State) (c : Cmd) : State :=
  match ringHead s c with
  | .error f => if f.1 = stShape then (s.setCmd { c with signals := [] }).finish c.id f.1 f.2 else s.fail c.id f.1 f.2
  | .ok h =>
    let x := s.ctx c.tenant c.ctx
    let r : Replaying := { ring := c.p 0 8, sendRemote := (c.p 8 1).testBit 0, id := c.id, next := 64, fed := 0, total := fieldAt h 8 8 }
    (s.setCtx c.tenant c.ctx { x with step := BitVec.ofNat 64 (fieldAt h 24 8), seed := BitVec.ofNat 64 (fieldAt h 32 8),
                                      replaying := some r, last := none }).await c.id

/-- REPLAY_START. -/
def execOpReplayStart (id : Nat) (s : State) : Host.Outcome State Fault Refusal := .next (runCoreless 0x9003 checkReplayStart (reading runReplayStart) id s)

end Sys2Proof.Machine
end

