-- ==== Sys2Proof/Machine/Serving.lean ====
section
/-! DEFINITION. The serving loop (R197–R206): sequences, their admission, the rows of a step and its sampling. Composer.lean runs the steps. -/
namespace Sys2Proof.Machine

/-! ### STEP_COMPOSE (R197, Table 9-5) -/

namespace Cmd
def scBudget (c : Cmd) : Nat := if c.p 12 2 = 0 then 2048 else c.p 12 2
def scChunk (c : Cmd) : Nat := if c.p 14 2 = 0 then min 512 c.scBudget else c.p 14 2
def scMaxLen (c : Cmd) : Nat := c.p 52 4
def scMaxSeqs (c : Cmd) : Nat := c.p 60 2
def scVocab (c : Cmd) : Nat := c.p 48 4
end Cmd

def resvStepCompose (_ : State) (c : Cmd) : Bool := [0, 16, 24, 32, 40].all fun o => refOk (c.p o 8)

/-- Every field lies within Table 9-5. -/
def composeFields (c : Cmd) : Bool :=
  c.p 8 4 % 16 = 0 && 32 ≤ c.p 8 4 && c.p 8 4 ≤ 1048576 && c.scBudget ≤ 4096 && c.scChunk ≤ c.scBudget
    && c.scVocab % 16 = 0 && 16 ≤ c.scVocab && c.scVocab ≤ 262144
    && c.scMaxLen % 64 = 0 && 64 ≤ c.scMaxLen && c.scMaxLen ≤ 65536
    && 1 ≤ c.p 56 4 && c.p 56 4 ≤ 1048576 && 1 ≤ c.scMaxSeqs && c.scMaxSeqs ≤ min 1024 c.scBudget && c.p 62 2 ≤ 60000

/-! ### SEQ_SUBMIT and SEQ_CANCEL (R204, R206, Table 9-7) -/

namespace Cmd
def ssLen (c : Cmd) : Nat := c.p 8 4
def ssMax (c : Cmd) : Nat := c.p 12 4
def ssStops (c : Cmd) : Nat := c.p 33 1
def ssIdent (c : Cmd) : Nat := c.p 52 4
end Cmd

/-- Pages a sequence reserves (R200). -/
def pagesFor (len max_ : Nat) : Nat := ceilDiv (len + max_) 64

/-- Reserved fields; a top-k above 64 and more than four stops are values the table does not define. -/
def resvSeqSubmit (_ : State) (c : Cmd) : Bool :=
  refOk (c.p 0 8) && c.p 32 1 ≤ 64 && c.ssStops ≤ 4 && zeroAt c.params 34 2
    && zeroAt c.params (36 + 4 * c.ssStops) (16 - 4 * c.ssStops) && zeroAt c.params 56 8

def checkSeqSubmit (s : State) (c : Cmd) : Option Fail :=
  let x := s.ctx c.tenant c.ctx
  let all := x.queue ++ x.running
  firstFail
    [ need x.serving.isSome stShape 0x52,
      need (1 ≤ c.ssLen && 1 ≤ c.ssMax && c.ssLen + c.ssMax ≤ (x.serving.map (·.maxLen)).getD 0) stShape 0x50,
      need (temperatureOk (BitVec.ofNat 32 (c.p 24 4)) && topPOk (BitVec.ofNat 32 (c.p 28 4))) stShape 0x51,
      need (!all.any (·.ident = c.ssIdent)) stShape 0x53,
      need (all.length < 1024) stNoResources 1,
      need (pagesFor c.ssLen c.ssMax ≤ (x.serving.map (·.pages)).getD 0) stNoResources 2 ]

/-- SEQ_SUBMIT: the sequence joins the queue; the command lasts until its final record. -/
def runSeqSubmit (s : State) (c : Cmd) : State :=
  let q : Sequence :=
    { tag := c.id, prompt := c.p 0 8, promptLen := c.ssLen, tokens := [], maxNew := c.ssMax, seed := BitVec.ofNat 64 (c.p 16 8),
      temperature := BitVec.ofNat 32 (c.p 24 4), topP := BitVec.ofNat 32 (c.p 28 4), topK := if c.p 32 1 = 0 then 64 else c.p 32 1,
      stops := (List.range c.ssStops).map fun i => c.p (36 + 4 * i) 4, ident := c.ssIdent, decoding := false, done := 0, last := 0,
      len := c.ssLen, slot := 0, pages := [], cancelled := false }
  let x := s.ctx c.tenant c.ctx
  (s.setCtx c.tenant c.ctx { x with queue := x.queue ++ [q] }).await c.id

/-- SEQ_SUBMIT. -/
def execOpSeqSubmit (id : Nat) (s : State) : Host.Outcome State Fault Refusal := .next (runCoreless 0x2011 checkSeqSubmit runSeqSubmit id s)

def resvSeqCancel (_ : State) (c : Cmd) : Bool := zeroAt c.params 4 12

/-- SEQ_CANCEL: a queued sequence goes at once; a running one after the step in progress, whose token it reports. -/
def runSeqCancel (s : State) (c : Cmd) : State :=
  let x := s.ctx c.tenant c.ctx
  let mine (q : Sequence) : Bool := q.ident = c.p 0 4 && !q.cancelled
  match x.queue.find? mine with
  | some q => (s.endSequence c.tenant c.ctx q stOK 3 0).ok c.id [0]
  | none => match x.running.find? mine with
    | none => s.ok c.id [2]
    | some q =>
      if x.stepping.isSome then
        (s.setCtx c.tenant c.ctx { x with running := x.running.map fun r => if mine r then { r with cancelled := true } else r }).ok c.id [1]
      else (s.endSequence c.tenant c.ctx q stOK 3 0).ok c.id [1]

/-- SEQ_CANCEL. -/
def execOpSeqCancel (id : Nat) (s : State) : Host.Outcome State Fault Refusal := .next (runCoreless 0x2012 (fun _ _ => none) runSeqCancel id s)

/-! ### Admission (R200, R201) -/

/-- The lowest `n` free pages of the pool. -/
def freePages (cfg : Serving) (running : List Sequence) (n : Nat) : List Nat :=
  let used := running.flatMap (·.pages)
  ((List.range cfg.pages).filter fun p => !used.contains p).take n

/-- The lowest free sequence slot. -/
def freeSlot (cfg : Serving) (running : List Sequence) : Nat :=
  ((List.range cfg.maxSeqs).find? fun k => running.all (·.slot ≠ k)).getD 0

/-- Words of a slot's KV row list: every position of its pages. -/
def kvRowList (pages : List Nat) : List Byte := pages.flatMap fun p => (List.range 64).flatMap fun i => leBytes 4 (64 * p + i)

/-- Admit the head of the queue, where there is room for it; a prompt that cannot be read ends its sequence with the read's status
(the end code is a free value, log 4). True where something was done. -/
def admitHead (s : State) (t c : Nat) (cfg : Serving) : State × Bool :=
  let x := s.ctx t c
  match x.queue with
  | [] => (s, false)
  | q :: rest =>
    let pages := freePages cfg x.running (pagesFor q.promptLen q.maxNew)
    if x.running.length ≥ cfg.maxSeqs ∨ pages.length < pagesFor q.promptLen q.maxNew then (s, false)
    else match s.consume 0 t q.prompt 0 (4 * q.promptLen) with
      | .error f => let d := s.draw; (d.2.endSequence t c q f.1 (d.1.toNat % 256) 0, true)
      | .ok bs =>
        let slot := freeSlot cfg x.running
        let q1 := { q with tokens := (wordsOf bs).map (·.toNat), pages := pages, slot := slot }
        let s1 := s.setCtx t c { x with queue := rest, running := x.running ++ [q1] }
        ((s1.writeRef t c 0 cfg.kvRows (4 * slot * cfg.maxLen) (kvRowList pages) false false).1, true)

/-- Admission, strictly in submission order. -/
def admitAll (t c : Nat) (cfg : Serving) : Nat → State → State
  | 0, s => s
  | k + 1, s =>
    match admitHead s t c cfg with
    | (s1, true) => admitAll t c cfg k s1
    | (s1, false) => s1

/-! ### Composition of a step (R199, R201) -/

/-- A row of a batch: token, position, slot, flags, and whose it is. -/
structure BatchRow where
  token : Nat
  position : Nat
  slot : Nat
  flags : Nat
  ident : Nat
  deriving Repr

/-- Decode rows, in admission order. -/
def decodeRows (running : List Sequence) : List BatchRow :=
  (running.filter (·.decoding)).map fun q => { token := q.last, position := q.len - 1, slot := q.slot, flags := 7, ident := q.ident }

/-- Prefill rows, in admission order, in what the budget leaves; the sequences with their progress. -/
def prefillRows (cfg : Serving) : List Sequence → Nat → List BatchRow × List Sequence
  | [], _ => ([], [])
  | q :: rest, rows =>
    if q.decoding then let r := prefillRows cfg rest rows; (r.1, q :: r.2)
    else
      let n := min cfg.chunk (min (q.promptLen - q.done) (cfg.budget - rows))
      if n = 0 then ([], q :: rest)
      else
        let one (i : Nat) : BatchRow :=
          { token := q.tokens.getD (q.done + i) 0, position := q.done + i, slot := q.slot,
            flags := b2n (i + 1 = n && q.done + n = q.promptLen) + 4 * b2n (i = 0), ident := q.ident }
        let r := prefillRows cfg rest (rows + n)
        ((List.range n).map one ++ r.1, { q with done := q.done + n } :: r.2)

/-- The batch table (Table 9-6). -/
def batchTable (step : Dbl) (decode : Nat) (rows : List BatchRow) : List Byte :=
  leBytes 8 step.toNat ++ leBytes 4 rows.length ++ leBytes 4 decode ++ leBytes 4 (rows.countP fun r => r.flags.testBit 0) ++ leBytes 44 0
    ++ rows.flatMap fun r => leBytes 4 r.token ++ leBytes 4 r.position ++ leBytes 2 r.slot ++ leBytes 1 r.flags ++ leBytes 1 0
        ++ leBytes 4 (r.position + 1)

/-- The row mask: rows B to budget − 1 are masked. -/
def rowMaskBytes (b budget : Nat) : List Byte :=
  (List.range (ceilDiv budget 8)).map fun k => BitVec.ofNat 8 ((List.range 8).foldl (fun a i => a + (if b ≤ 8 * k + i ∧ 8 * k + i < budget then 2 ^ i else 0)) 0)

/-! ### The end of a step (R201, R202, R205) -/

/-- One token of a sequence: its record, and its end where it is the last. -/
def giveToken (s : State) (t c : Nat) (q : Sequence) (token : Nat) : State :=
  let q1 := { q with last := token, len := q.len + 1, decoding := true }
  let res (e : Nat) := seqResult token q.len q.ident e 0
  if q.cancelled then (s.removeSequence t c q).finish q.tag stOK (res 3)
  else if q.stops.contains token then (s.removeSequence t c q).finish q.tag stOK (res 2)
  else if q1.len = q.promptLen + q.maxNew then (s.removeSequence t c q).finish q.tag stOK (res 1)
  else
    let x := s.ctx t c
    let s1 := s.setCtx t c { x with running := x.running.map fun r => if r.tag = q.tag then q1 else r }
    match s1.cmd? q.tag with
    | some d => s1.reply t { s1.cmdReply { d with status := stOK, result := res 0 } false with final := false }
    | none => s1

/-- A further token record must wait (R37). -/
def State.tokenWaits (s : State) (t : Nat) : Bool :=
  !s.hostGone && (s.tenant t).provisioned && (s.fn t).held.length ≥ 256

/-- Sample the rows of a step in row order; a logits row that cannot be read fails the step. -/
def sampleStep (t c : Nat) (cfg : Serving) : List SampleRow → State → State
  | [], s =>
    let x := s.ctx t c
    let s1 := s.setCtx t c { x with stepping := none, sampling := false }
    (x.running.filter (·.cancelled)).foldl (fun s q => s.endSequence t c q stOK 3 0) s1
  | r :: rest, s =>
    let x := s.ctx t c
    if s.tokenWaits t then s.setCtx t c { x with stepping := x.stepping.map fun p => (r :: rest, p.2) }
    else match x.running.find? (·.ident = r.ident) with
      | none => sampleStep t c cfg rest s
      | some q =>
        match s.consume 0 t cfg.logits (4 * cfg.vocab * r.row) (4 * cfg.vocab) with
        | .error f => failStep s t c f.1 0
        | .ok bs =>
          let u := drawOf (rowan q.seed (BitVec.ofNat 64 q.len) 0 0)
          match sampleRow (wordsOf bs) q.temperature q.topP q.topK u with
          | .nan => sampleStep t c cfg rest (s.endSequence t c q stOK 4 0)
          | .token v => sampleStep t c cfg rest (giveToken s t c q v)
          | .unstated => let d := s.draw; sampleStep t c cfg rest (giveToken d.2 t c q d.1.toNat)

end Sys2Proof.Machine
end

