-- ==== Sys2Proof/Machine/Time.lean ====
section
/-! DEFINITION. Sexton (17): domains, the output time, pin triggers, captures and the time opcodes. -/
namespace Sys2Proof.Machine

/-- Parts of a 0.25 ns unit in which offsets are held: one part is what a rate of 2⁻¹⁶ ppb gains in one unit. -/
def sxUnit : Nat := 65536 * 1000000000

/-- A time value (Table 17-1). -/
def timeValue (t : Nat) : List Byte := leBytes 6 (t / 4000000000) ++ leBytes 4 (t % 4000000000) ++ leBytes 2 0

/-- The time a time value names, where its fields are in range. -/
def valueTime (bs : List Byte) (o : Nat) : Nat := fieldAt bs o 6 * 4000000000 + fieldAt bs (o + 6) 4

def Sexton.dom (x : Sexton) (d : Nat) : Domain := if d = 0 then x.doms[0] else x.doms[1]
def Sexton.setDom (x : Sexton) (d : Nat) (y : Domain) : Sexton := { x with doms := if d = 0 then x.doms.set 0 y else x.doms.set 1 y }
def State.dom (s : State) (d : Nat) : Domain := s.sx.dom d
def State.setDom (s : State) (d : Nat) (y : Domain) : State := { s with sx := s.sx.setDom d y }

/-! ### Output time (R364, R369) -/

/-- Rate at which the output runs: the followed rate, and while slewing up to the slew limit beside it. -/
def Sexton.outRate (x : Sexton) : Int :=
  match x.slew with
  | none => x.rate
  | some o => x.rate + max (-(x.slewPpb * 65536 : Nat) : Int) (min (x.slewPpb * 65536 : Nat) o)

/-- One unit of 0.25 ns of the local counter passes for Sexton. -/
def Sexton.tick (x : Sexton) : Sexton :=
  let r := x.outRate
  let f := x.frac + r
  let move (d : Domain) : Domain := if d.st = 0 then d else { d with offset := d.offset + d.rate - r }
  { x with time := (x.time + 1 + f / sxUnit).toNat, frac := f % sxUnit,
           slew := x.slew.map fun o => o - (r - x.rate), doms := x.doms.map move }

/-! ### Output state and selection (R369–R372) -/

/-- A change of output state or selected domain is told: notice 0x20 and event source 30 (R372). An offset outside its four bytes
reads as a free value. -/
def State.sxNotice (s : State) (cause : Nat) (off : Int) : State :=
  let d := s.draw
  let w : Nat := if -2147483648 ≤ off ∧ off ≤ 2147483647 then (BitVec.ofInt 32 off).toNat else d.1.toNat
  (d.2.pulse 30).notice 0 stOK (leBytes 1 0x20 ++ leBytes 1 s.sx.out ++ leBytes 1 s.sx.selected ++ leBytes 1 cause ++ leBytes 4 w)

/-- Edges whose times a step jumps over are not produced (R373). -/
def Trigger.jump (g : Trigger) (t : Nat) : Trigger :=
  if !g.armed || g.next ≥ t then g
  else if g.period = 0 then { g with armed := false }
  else { g with next := g.next + roundUp (t - g.next) g.period }

/-- The output follows domain `d`, which is locked: by a step at the first lock after reset, else by a slew. -/
def State.follow (s : State) (d cause : Nat) : State :=
  let x := s.sx
  let off := (x.dom d).offset
  let told := x.selected ≠ d || x.out ≠ 1
  let s1 := { s with sx :=
    if x.stepped then { x with selected := d, out := 1, rate := (x.dom d).rate, slew := if off = 0 then none else some off }
    else
      let t := (x.time + off / sxUnit).toNat
      let back (y : Domain) : Domain := { y with offset := y.offset - off }
      { x with selected := d, out := 1, rate := (x.dom d).rate, slew := none, stepped := true, time := t, frac := 0,
               doms := x.doms.map back, triggers := x.triggers.map fun g => g.jump t } }
  if !told then s1 else if x.stepped then s1.sxNotice cause (off / sxUnit) else s1.sxNotice 3 0

/-- The output enters HOLDOVER. -/
def State.enterHoldover (s : State) (cause : Nat) : State :=
  ({ s with sx := { s.sx with out := 2, slew := none } }.bump 0x08000030 1).sxNotice cause 0

/-- A domain the output may follow: LOCKED, and the timing reference there; without it the output acts as if both domains were lost (R437). -/
def State.locked (s : State) (d : Nat) : Bool := (s.dom d).st = 2 && !s.pw.refLost.testBit 2

/-- Domain `d` is no longer locked: rules 2 and 3 of R370 where the output followed it. -/
def State.loseDomain (s : State) (d : Nat) : State :=
  let x := s.sx
  if x.out ≠ 1 || x.selected ≠ d then s
  else if x.auto && s.locked (1 - d) then (s.bump 0x08000020 1).follow (1 - d) 1
  else s.enterHoldover 1

/-- Domain `d` has become locked: the first lock, or rule 4 of R370. -/
def State.lockDomain (s : State) (d : Nat) : State :=
  let x := s.sx
  if x.out = 1 || !s.locked d then s
  else if x.selected = d then s.follow d 2
  else if x.out = 2 && x.auto then (s.bump 0x08000020 1).follow d 2
  else s

/-- The output takes up a domain that has stayed locked, the selected one first. -/
def State.relock (s : State) : State := (s.lockDomain s.sx.selected).lockDomain (1 - s.sx.selected)

/-- CELL_START with HOLDOVER_START in FREERUN (R371). -/
def State.holdoverStart (s : State) : State := if s.sx.out = 0 then s.enterHoldover 4 else s

/-! ### Domain states (R368) -/

/-- A domain enters ACQUIRING. -/
def Domain.acquire (d : Domain) (now : Nat) : Domain := { d with st := 1, good := 0, heard := now, back := (false, false) }

/-- A domain becomes LOST. -/
def State.toLost (s : State) (d : Nat) : State :=
  ((s.setDom d { s.dom d with st := 3, good := 0, back := (false, false) }).bump 0x08000028 1).loseDomain d

/-- A Sync from the parent, with what the servo made of it. -/
def State.syncMessage (s : State) (m : PtpMsg) : State :=
  let x := s.dom m.domain
  let sel := s.sx.selected = m.domain && s.sx.out = 1
  let off : Int := if sel && s.sx.slew.isNone then 0 else m.offset * sxUnit
  let y := { x with heard := s.now, offset := off, rate := m.rate }
  let s1 := s.setDom m.domain y
  let s2 := if sel then { s1 with sx := { s1.sx with rate := m.rate, slew := s1.sx.slew.map fun _ => off } } else s1
  if x.st = 3 then
    s2.setDom m.domain (if x.back.2 then y.acquire s.now else { y with back := (true, x.back.2) })
  else if m.filtered.natAbs > x.loss then s2.toLost m.domain
  else if x.st = 1 then
    let good := if m.filtered.natAbs < x.lock then x.good + 1 else 0
    if good ≥ 16 then (s2.setDom m.domain { y with st := 2, good := good }).lockDomain m.domain
    else s2.setDom m.domain { y with good := good }
  else s2

/-- PTP_MESSAGE: a Sync or Announce of an enabled domain arrives on its slave port. -/
def ptpMessage (m : PtpMsg) (s : State) : State :=
  let x := s.dom m.domain
  if m.domain > 1 || x.st = 0 || !s.subUp x.slave then s
  else match m.kind with
    | .sync => s.syncMessage m
    | .announce => s.setDom m.domain { x with heard := s.now, back := (x.back.1, x.back.2 || x.st = 3) }

/-- PTP_MESSAGE. -/
def execPtpMessage (m : PtpMsg) (s : State) : Host.Outcome State Fault Refusal := .next (ptpMessage m s)

/-- ANNOUNCE_TIMEOUT: 3 Announce intervals without Announce or Sync from the parent. -/
def announceTimeout (d : Nat) (s : State) : State :=
  let x := s.dom d
  if d ≤ 1 ∧ (x.st = 1 ∨ x.st = 2) ∧ s.now ≥ x.heard + msec 375 then s.toLost d else s

/-- ANNOUNCE_TIMEOUT. -/
def execAnnounceTimeout (domain : Nat) (s : State) : Host.Outcome State Fault Refusal := .next (announceTimeout domain s)

/-- SLEW_END: the offset is zero. -/
def slewEnd (s : State) : State := if s.sx.slew = some 0 then { s with sx := { s.sx with slew := none } } else s

/-- SLEW_END. -/
def execSlewEnd (s : State) : Host.Outcome State Fault Refusal := .next (slewEnd s)

/-- SYNC_TRANSMIT: a one-step Sync of an enabled domain leaves by queue 0 of a master port (R354, R367), a frame of the
least length (log 41). -/
def syncTransmit (d n : Nat) (s : State) : State :=
  let x := s.dom d
  if d ≤ 1 && x.st ≠ 0 && x.masters.testBit n && s.subUp n then
    ({ s with sx := { s.sx with syncs := (d, n) :: s.sx.syncs } }).queueFrame n 0 64 (leBytes 12 0 ++ [0x88, 0xF7])
  else s

/-- SYNC_TRANSMIT. -/
def execSyncTransmit (domain port : Nat) (s : State) : Host.Outcome State Fault Refusal := .next (syncTransmit domain port s)

/-! ### Triggers (R373, R374) -/

def Sexton.trigger (x : Sexton) (j : Nat) : Trigger := if h : j < 5 then x.triggers[j] else Trigger.init
def State.setTrigger (s : State) (j : Nat) (g : Trigger) : State :=
  if h : j < 5 then { s with sx := { s.sx with triggers := s.sx.triggers.set j g } } else s

/-- TRIGGER_EDGE: the next edge of an armed trigger; the pin is active for W from it. A pin whose trigger has FREE_OK clear stays inactive in FREERUN. -/
def triggerEdge (j : Nat) (s : State) : State :=
  let g := s.sx.trigger j
  if !g.armed || s.sx.time < g.next then s
  else
    let left := g.left.map (· - 1)
    let shown := s.sx.out ≠ 0 || g.flags.testBit 1
    s.setTrigger j { g with edges := if shown then g.edges + 1 else g.edges, left := left, next := g.next + g.period,
                            until_ := if shown then g.next + g.width else g.until_, armed := decide (g.period ≠ 0 ∧ left ≠ some 0) }

/-- TRIGGER_EDGE. -/
def execTriggerEdge (trigger : Nat) (s : State) : Host.Outcome State Fault Refusal := .next (triggerEdge trigger s)

/-- CAPTURE_EDGE: an edge on PPS_IN (0) or CI0–CI3 (1–4), of a pulse wide enough to count (log 136). The 100 ns between captures are a duration, so
measured on the local counter (R364). -/
def captureEdge (src : Nat) (falling : Bool) (s : State) : State :=
  let x := NMap.get Capture.init s.sx.captures src
  let near := (x.last.map fun t => decide (s.now < t + 400)).getD false
  if src > 4 || !x.edges.testBit (b2n falling) || near then s else s.capture src falling 0

/-- CAPTURE_EDGE. -/
def execCaptureEdge (source : Nat) (falling : Bool) (s : State) : Host.Outcome State Fault Refusal := .next (captureEdge source falling s)

/-! ### DOMAIN_CONFIG, DOMAIN_SELECT (Tables 17-7, 17-8) -/

def resvDomainConfig (_ : State) (c : Cmd) : Bool := c.p 1 1 < 2 && zeroAt c.params 5 1 && zeroAt c.params 18 14

def checkDomainConfig (s : State) (c : Cmd) : Option Fail :=
  let d := c.p 0 1
  let other := s.dom (1 - d)
  let ports := [c.p 3 1] ++ (if c.p 4 1 = 0xFF then [] else [c.p 4 1]) ++ setBits 16 (c.p 6 2)
  firstFail
    [ need (d ≤ 1 && 24 ≤ c.p 2 1 && c.p 2 1 ≤ 43 && 10 ≤ c.p 8 4 && c.p 8 4 ≤ 1000 && 100 ≤ c.p 12 4 && c.p 12 4 ≤ 100000
        && c.p 8 4 < c.p 12 4) stShape 0x90,
      need (ports.all s.portExists && !(c.p 6 2).testBit (c.p 3 1)) stShape 0x91,
      need (!(c.p 1 1 = 1 && other.st ≠ 0 && other.number = c.p 2 1 && other.slave = c.p 3 1)) stNoResources 0x31 ]

/-- DOMAIN_CONFIG takes effect when the packet is accepted. -/
def domainAccepted (s : State) (c : Cmd) : State :=
  let d := c.p 0 1
  let x := s.dom d
  let moved := x.slave ≠ c.p 3 1 || x.number ≠ c.p 2 1 || x.synce ≠ c.p 4 1
  let y := { x with number := c.p 2 1, slave := c.p 3 1, synce := c.p 4 1, masters := c.p 6 2, lock := c.p 8 4, loss := c.p 12 4,
                    asym := toSigned 16 (c.p 16 2) }
  let z := if c.p 1 1 = 0 then { y with st := 0, good := 0 } else if x.st = 0 || moved then y.acquire s.now else y
  let s1 := s.setDom d z
  if z.st ≠ 2 then s1.loseDomain d else s1

/-- DOMAIN_CONFIG completes. -/
def execOpDomainConfig (id : Nat) (s : State) : Host.Outcome State Fault Refusal :=
  .next (runCoreless 0x6001 (fun _ _ => none) (fun s c => s.ok c.id []) id s)

def resvDomainSelect (_ : State) (c : Cmd) : Bool := zeroAt c.params 4 12

def checkDomainSelect (s : State) (c : Cmd) : Option Fail :=
  firstFail
    [ need (c.p 0 1 ≤ 1 && c.p 1 1 < 2 && c.p 2 2 ≤ 100) stShape 0x90,
      need (s.locked (c.p 0 1)) stNoResources 0x30 ]

/-- DOMAIN_SELECT: rule 1 of R370; its slew limit applies from this slew on. -/
def runDomainSelect (s : State) (c : Cmd) : State :=
  let s1 := { s with sx := { s.sx with auto := c.p 1 1 = 1, slewPpb := if c.p 2 2 = 0 then 100 else c.p 2 2 } }
  (s1.follow (c.p 0 1) 0).ok c.id []

/-- DOMAIN_SELECT. -/
def execOpDomainSelect (id : Nat) (s : State) : Host.Outcome State Fault Refusal := .next (runCoreless 0x6002 checkDomainSelect runDomainSelect id s)

/-! ### TRIGGER_SET (Table 17-4) -/

def resvTriggerSet (_ : State) (c : Cmd) : Bool :=
  c.p 2 1 < 4 && zeroAt c.params 3 1 && (c.p 0 1 ≠ 4 || zeroAt c.params 4 20) && zeroAt c.params 14 2

/-- W of a TRIGGER_SET. -/
def tsWidth (c : Cmd) : Nat := if c.p 24 4 = 0 then 400000000 else c.p 24 4

def checkTriggerSet (_ : State) (c : Cmd) : Option Fail :=
  let p := c.p 16 8
  firstFail
    [ need (c.p 0 1 ≤ 4 && c.p 1 1 ≤ 1 && c.p 10 4 < 4000000000 && (p = 0 || (4000 ≤ p && p ≤ 4000000000000))
        && 40 ≤ tsWidth c && tsWidth c ≤ 3999999999 && (p = 0 || tsWidth c < p)) stShape 0x90,
      need (c.p 0 1 = 4 || c.p 1 1 = 1 || p ≠ 0 || valueTime c.params 4 ≥ c.acceptedOut + usec 10) stShape 0x92 ]

/-- P of a TRIGGER_SET; PPS_OUT rises on every whole second. -/
def tsPeriod (c : Cmd) : Nat := if c.p 0 1 = 4 then 4000000000 else c.p 16 8

/-- First edge: the first S + kP at least 10 µs after acceptance. -/
def tsFirst (c : Cmd) : Nat :=
  let t := c.acceptedOut + usec 10
  let st := if c.p 0 1 = 4 then 0 else valueTime c.params 4
  let p := tsPeriod c
  if st ≥ t ∨ p = 0 then st else st + roundUp (t - st) p

/-- TRIGGER_SET arms a pin trigger, an edge in progress completing its W, or disarms it, the pin inactive at once. -/
def runTriggerSet (s : State) (c : Cmd) : State :=
  let j := c.p 0 1
  let g := s.sx.trigger j
  let g1 : Trigger := if c.p 1 1 = 1 then { g with armed := false, until_ := 0 }
    else { armed := true, flags := c.p 2 1, start := valueTime c.params 4, period := tsPeriod c, width := tsWidth c,
           left := if c.p 28 4 = 0 then none else some (c.p 28 4), next := tsFirst c, edges := g.edges, until_ := g.until_ }
  (s.setTrigger j g1).ok c.id []

/-- TRIGGER_SET. -/
def execOpTriggerSet (id : Nat) (s : State) : Host.Outcome State Fault Refusal := .next (runCoreless 0x6003 checkTriggerSet runTriggerSet id s)

/-! ### CAPTURE_READ (Table 17-6) and TIME_READ (Table 17-9) -/

def resvCaptureRead (_ : State) (c : Cmd) : Bool := zeroAt c.params 3 1 && zeroAt c.params 16 16 && (c.entry ≠ .mgmt || zeroAt c.params 8 8)

def checkCaptureRead (s : State) (c : Cmd) : Option Fail :=
  let src := c.p 0 1
  let read := c.p 1 1 = 0
  firstFail
    [ need (!read || c.p 8 8 % 16 = 0) stShape 0x0F,
      need ((src ≤ 4 || (16 ≤ src && src < 32)) && c.p 1 1 ≤ 1 && (if read then 1 ≤ c.p 6 2 && c.p 6 2 ≤ 64 else c.p 2 1 < 4)) stShape 0x90,
      need (src < 16 || s.portExists (src - 16)) stShape 0x91 ]

/-- A capture entry (Table 17-5). -/
def captureEntry (e : Nat × Nat × Nat) : List Byte := timeValue e.1 ++ leBytes 1 e.2.1 ++ leBytes 1 0 ++ leBytes 2 e.2.2

/-- CAPTURE_READ: configure a source and clear its FIFO, or remove entries and hand them over. -/
def runCaptureRead (s : State) (c : Cmd) : State :=
  let src := c.p 0 1
  let x := NMap.get Capture.init s.sx.captures src
  let put (y : Capture) : State := { s with sx := { s.sx with captures := NMap.set Capture.init s.sx.captures src y } }
  if c.p 1 1 = 1 then
    (put { x with edges := c.p 2 1, etherType := if src ≥ 16 then c.p 4 2 else 0, fifo := [] }).ok c.id []
  else
    let n := min (c.p 6 2) x.fifo.length
    let bs := (x.fifo.take n).flatMap captureEntry
    let s1 := put { x with fifo := x.fifo.drop n, drops := 0 }
    let s2 := if c.entry = .mgmt then s1.setCmd { c with trailer := bs } else s1.dmaWrite c.fn (c.p 8 8) bs false
    s2.ok c.id (leBytes 2 n ++ leBytes 2 (x.fifo.length - n) ++ leBytes 4 x.drops)

/-- CAPTURE_READ. -/
def execOpCaptureRead (id : Nat) (s : State) : Host.Outcome State Fault Refusal := .next (runCoreless 0x6004 checkCaptureRead runCaptureRead id s)

/-- TIME_READ samples Table 17-9 at one instant; byte 13 reads zero on entry V. -/
def runTimeRead (s : State) (c : Cmd) : State :=
  let x := s.sx
  let b := (x.dom 0).st + 4 * (x.dom 1).st + 16 * x.selected + 32 * b2n x.slew.isSome
  s.ok c.id (timeValue x.time ++ leBytes 1 x.out ++ leBytes 1 (if c.entry = .vf then 0 else b) ++ leBytes 2 0)

/-- TIME_READ. -/
def execOpTimeRead (id : Nat) (s : State) : Host.Outcome State Fault Refusal := .next (runCoreless 0x6005 (fun _ _ => none) runTimeRead id s)

end Sys2Proof.Machine
end

