-- ==== Sys2Proof/Machine/Radio.lean ====
section
/-! DEFINITION. The radio pool (13): cell admission, cell states, FAPI carriage, the slot pipeline and its deadlines. -/
namespace Sys2Proof.Machine

/-! ### Fields of CELL_CONFIG (Table 13-2) -/

/-- Bandwidth factor b and antenna factor a (Table 13-1); 0 for a value not in the table. -/
def bandFactor (mhz : Nat) : Nat :=
  if mhz = 5 ∨ mhz = 10 then 1 else if mhz = 15 ∨ mhz = 20 then 2
  else if [25, 30, 40, 50].contains mhz then 3 else if [60, 70, 80, 90, 100].contains mhz then 4 else 0
def antFactor (n : Nat) : Nat := ([(1, 1), (2, 2), (4, 4), (8, 8), (16, 12), (32, 20), (64, 32)].lookup n).getD 0

/-- The 56 parameter bytes by field. -/
def cfScs (b : List Byte) : Nat := fieldAt b 2 1
def cfMhz (b : List Byte) : Nat := fieldAt b 3 1
def cfAnt (b : List Byte) : Nat := max (fieldAt b 4 1) (fieldAt b 5 1)
def cfSplit (b : List Byte) : Nat := fieldAt b 7 1
def cfComp (b : List Byte) : Nat := fieldAt b 8 1
def cfPort (b : List Byte) : Nat := fieldAt b 9 1
def cfLead (b : List Byte) : Nat := if fieldAt b 10 1 = 0 then 2 else fieldAt b 10 1
def cfVlan (b : List Byte) : Nat := fieldAt b 12 2 % 4096
def cfEaxc (b : List Byte) : Nat := fieldAt b 14 2
def cfRu (b : List Byte) : Nat := fieldAt b 16 6
def cfRing (b : List Byte) : Nat := fieldAt b 24 8
def cfRingBytes (b : List Byte) : Nat := fieldAt b 32 4
def cfT1aMax (b : List Byte) : Nat := if fieldAt b 36 2 = 0 then 150 else fieldAt b 36 2
def cfT1aMin (b : List Byte) : Nat := if fieldAt b 38 2 = 0 then 70 else fieldAt b 38 2
def cfTa4Max (b : List Byte) : Nat := if fieldAt b 40 2 = 0 then 100 else fieldAt b 40 2

/-- Cost in cell-load units (R280). -/
def cluCost (b : List Byte) : Nat := bandFactor (cfMhz b) * antFactor (cfAnt b)

/-- Smallest FFT-engine size at least 1.25 × `nsc` (R283, R329). -/
def fftSizeFor (nsc : Nat) : Nat :=
  ([128, 256, 512, 1024, 1536, 2048, 3072, 4096].find? fun n => 4 * n ≥ 5 * nsc).getD 4096

/-- Three times the fronthaul rate F in bits per second (R283). -/
def fronthaulRate3 (b : List Byte) : Nat :=
  let nsc := 12 * Config.nrb (cfScs b) (cfMhz b)
  if cfSplit b = 2 then fftSizeFor nsc * 15000 * 2 ^ cfScs b * cfAnt b * 32 * 3
  else
    let a := if cfSplit b = 1 then min (cfAnt b) 16 else cfAnt b
    nsc * 14 * 1000 * 2 ^ cfScs b * a * (if cfComp b = 0 then 96 else 6 * cfComp b + 2)

/-- Three times the port load of a port number (R283). -/
def State.portLoad3 (s : State) (n : Nat) : Nat :=
  s.cells.foldl (fun a e => match e.2 with
    | some x => if cfPort x.config = n then a + fronthaulRate3 x.config else a
    | none => a) 0

/-- Slot length in 0.25 ns (R288). -/
def slotTime (b : List Byte) : Nat := msec 1 / 2 ^ cfScs b
def Cell.slotTime (x : Cell) : Nat := Machine.slotTime x.config

/-! ### CELL_CONFIG (R284, Table 13-3) -/

/-- Reserved fields: action and SCS are enumerations with reserved values; release uses the cell alone. -/
def resvCellConfig (_ : State) (c : Cmd) : Bool :=
  if c.p 1 1 = 1 then zeroAt c.params 2 54
  else c.p 1 1 = 0 && c.p 2 1 ≤ 2 && zeroAt c.params 11 1 && zeroAt c.params 22 2 && zeroAt c.params 42 14

/-- Fields within Table 13-2. -/
def cellFieldsOk (b : List Byte) : Bool :=
  bandFactor (cfMhz b) ≠ 0 && Config.nrb (cfScs b) (cfMhz b) ≠ 0 && antFactor (fieldAt b 4 1) ≠ 0 && antFactor (fieldAt b 5 1) ≠ 0
    && fieldAt b 6 1 ≤ 1 && cfSplit b ≤ 2 && [0, 8, 9, 12, 14].contains (cfComp b)
    && (cfSplit b ≠ 2 || cfComp b = 0 || cfComp b = 12) && fieldAt b 10 1 ≤ 8 && cfRing b % 4096 = 0
    && cfRingBytes b % 4096 = 0 && 65536 ≤ cfRingBytes b && cfRingBytes b ≤ 67108864
    && 20 ≤ cfT1aMax b && cfT1aMax b ≤ 1000 && cfT1aMin b ≤ cfT1aMax b && 20 ≤ cfTa4Max b && cfTa4Max b ≤ 500

/-- Result of a denial: reason, then cost, admitted total and the limit that failed. -/
def denial (reason cost total limit : Nat) : Fail :=
  (stDenied, leBytes 2 reason ++ leBytes 2 cost ++ leBytes 2 total ++ leBytes 2 limit)

/-- The cell is admitted and stopped; one whose start is pending is not stopped. -/
def State.cellStopped (s : State) (n : Nat) : Bool :=
  match s.cell n with
  | some x => !x.st.started && x.starting.isNone
  | none => false

def checkCellConfig (s : State) (c : Cmd) : Option Fail :=
  let b := c.params
  let n := c.p 0 1
  let adding := c.p 1 1 = 0
  let rate := s.lineRate (cfPort b)
  firstFail
    [ need (!adding || cellFieldsOk b) stShape 0x70,
      need (!adding || s.portExists (cfPort b)) stShape 0x71,
      need (if adding then (s.cell n).isNone else s.cellStopped n) stNoResources 0x10,
      (!adding || s.admittedTotal + cluCost b ≤ s.effectiveCapacity, denial 1 (cluCost b) s.admittedTotal s.effectiveCapacity),
      (!adding || 10 * (s.portLoad3 (cfPort b) + fronthaulRate3 b) ≤ 27 * rate * 1000000000,
        denial 2 (cluCost b) s.admittedTotal (9 * rate / 10)) ]

/-- Loop state at admission of a time-domain cell (R344, Table 15-8): defaults, gain 30 dB, frequency word 0. -/
def Head.init (antennas : Nat) : Head :=
  { flags := 3, target := -60, hysteresis := 4, attack := 48, decay := 2, burst := 24, a := 3, step := 100000, hold := 0,
    gains := List.replicate antennas 120, words := [], manual := [], manualWord := none, pending := none, prev := [], allLow := [],
    frozen := false, prachFreeze := false, gain0 := List.replicate antennas 120, freq := 0, sent := [] }

/-- A cell just admitted. -/
def Cell.init (b : List Byte) : Cell :=
  { st := .admitted, config := b, cost := cluCost b, fapi := [], sfn := 0, slot := 0, starting := none, stopping := [], held := [],
    fill := false, noUplink := false, ringAt := 0, lap := 0, windows := [], unsent := 0, missing := 0, mutePending := false,
    head := if cfSplit b = 2 then some (Head.init (cfAnt b)) else none, rach := [], qEvm := 0x8000, qSinr := 0x8000, qStamp := 0 }

/-- CELL_CONFIG admits or releases. -/
def runCellConfig (s : State) (c : Cmd) : State :=
  let n := c.p 0 1
  let cost := if c.p 1 1 = 0 then cluCost c.params else ((s.cell n).map (·.cost)).getD 0
  let s1 := s.setCell n (if c.p 1 1 = 0 then some (Cell.init c.params) else none)
  s1.ok c.id (leBytes 2 cost ++ leBytes 2 s1.admittedTotal ++ leBytes 2 s1.effectiveCapacity)

/-- CELL_CONFIG. -/
def execOpCellConfig (id : Nat) (s : State) : Host.Outcome State Fault Refusal := .next (runCoreless 0x5001 checkCellConfig runCellConfig id s)

/-! ### The indication ring (R292) -/

/-- Bytes written circularly into a ring of `size` bytes. -/
def State.writeRing (s : State) (base size at_ : Nat) (bs : List Byte) : State :=
  let first := size - at_ % size
  let s1 := s.dmaWrite 0 (base + at_ % size) (bs.take first) false
  if bs.length ≤ first then s1 else s1.dmaWrite 0 base (bs.drop first) false

/-- One batch of a cell's messages, then notice 0x10; nothing is written while the link is down or the cell is in holdover or
muted (R299, Table 13-4). -/
def State.batch (s : State) (n sfn slot : Nat) (late : Bool) (msgs : List (List Byte)) : State :=
  match s.cell n with
  | none => s
  | some x =>
    if s.hostGone || x.st = .holdover || x.st = .muted || msgs.isEmpty then s
    else
      let body := msgs.flatten
      let size := cfRingBytes x.config
      let bs := leBytes 2 sfn ++ leBytes 1 slot ++ leBytes 1 (b2n late) ++ leBytes 4 x.lap ++ leBytes 4 body.length
        ++ leBytes 4 msgs.length ++ body
      let stop := x.ringAt + bs.length
      let s1 := (s.writeRing (cfRing x.config) size x.ringAt bs).setCell n
        (some { x with ringAt := stop % size, lap := (x.lap + stop / size) % 2 ^ 32 })
      s1.notice 0 stOK (leBytes 1 0x10 ++ leBytes 1 n ++ leBytes 2 0 ++ leBytes 4 x.ringAt ++ leBytes 4 bs.length)

/-- An ERROR.indication: cell, SFN, slot, the request's kind and what is wrong with it. -/
def errorIndication (n sfn slot kind error : Nat) : List Byte := Config.fapiMessage 3 [n, sfn, slot, kind, error]

/-! ### Starting and stopping (R287) -/

/-- HOLDOVER and MUTED follow the cells (Table 3-9, R65). -/
def State.radioFlags (s : State) : State :=
  let has (st : CellState) : Bool := s.cells.any fun e => (e.2.map fun x => decide (x.st = st)).getD false
  { s with link := { s.link with holdover := has .holdover, muted := has .muted && (s.link.muted || !has .holdover) } }

/-! ### Control messages to companion heads (R340, Table 15-6) -/

/-- Slots per frame, and the frame and slot of output time. -/
def Cell.perFrame (x : Cell) : Nat := msec 10 / x.slotTime
def State.slotNow (s : State) (x : Cell) : Nat × Nat := (s.sx.time / msec 10 % 1024, s.sx.time % msec 10 / x.slotTime)

/-- The slot `k` slots after a slot. -/
def Cell.ahead (x : Cell) (sfn slot k : Nat) : Nat × Nat := ((sfn + (slot + k) / x.perFrame) % 1024, (slot + k) % x.perFrame)

/-- Head control payload. -/
def headPayload (kind antenna sfn slot symbol : Nat) (value : Int) : List Byte :=
  leBytes 1 kind ++ leBytes 1 antenna ++ leBytes 2 sfn ++ leBytes 1 slot ++ leBytes 1 symbol ++ leBytes 2 0
    ++ leBytes 4 (BitVec.ofInt 32 value).toNat

/-- A control message leaves on the cell's VLAN by queue 2 of its port (log 42): the eCPRI header with RTC_ID and a sequence
identifier, then the payload. -/
def State.headSend (s : State) (n : Nat) (kind antenna sfn slot symbol : Nat) (value : Int) : State :=
  match s.cell n with
  | none => s
  | some x => match x.head with
    | none => s
    | some h =>
      let p := cfPort x.config
      let s1 := s.setCell n (some { x with head := some { h with sent := (kind, antenna, value) :: h.sent } })
      s1.queueFrame p 2 64 (leBytes 6 (cfRu x.config) ++ leBytes 6 (s.sub p).mac ++ [0x81, 0x00]
        ++ (leBytes 2 (fieldAt x.config 12 2)).reverse ++ [0xAE, 0xFE, 0x10, 0x02, 0x00, 0x10]
        ++ (leBytes 2 (cfEaxc x.config)).reverse ++ (leBytes 2 h.sent.length).reverse ++ headPayload kind antenna sfn slot symbol value)

def State.setHead (s : State) (n : Nat) (x : Cell) (h : Head) : State := s.setCell n (some { x with head := some h })

/-- Words that bring antennas to gains at symbol 0 of a slot. -/
def State.sendGains (s : State) (n sfn slot : Nat) (ws : List (Nat × Nat)) : State :=
  ws.foldl (fun s w => s.headSend n 1 w.1 sfn slot 0 w.2) s

/-- Manual gains of a cell go to its heads when they are given, for the boundary at which they take effect (R344): the next one of a started cell, the first
one of a cell that starts; those of another cell leave with its CELL_START (log 134). -/
def State.sendManual (s : State) (n : Nat) (ws : List (Nat × Nat)) : State :=
  match s.cell n with
  | none => s
  | some x =>
    if x.st.started then let a := x.ahead x.sfn x.slot 1; s.sendGains n a.1 a.2 ws
    else match x.starting with
      | some (_, t) => s.sendGains n (t / msec 10 % 1024) (t % msec 10 / x.slotTime) ws
      | none => s

/-! ### Starting and stopping cells -/

/-- Why a start is turned away, in the order of R287; none for a running cell. -/
def startCheck (s : State) (n : Nat) (holdover : Bool) : Option Fail :=
  match s.cell n with
  | none => failWith stShape 0x76
  | some x =>
    if x.st = .running then none
    else firstFail
      [ need (x.st ≠ .admitted) stNoResources 0x11,
        need (s.sx.out ≠ 0 || holdover) stNoResources 0x12,
        (s.admittedTotal ≤ s.effectiveCapacity, denial 1 x.cost s.admittedTotal s.effectiveCapacity) ]

/-- The cell will be running: from configured at a frame boundary of output time at least 20 ms on, else at its next slot boundary. -/
def State.startCell (s : State) (n id : Nat) (holdover : Bool) : State :=
  match s.cell n with
  | none => s
  | some x =>
    if x.st = .running then s.ok id [1]
    else
      let at_ := if x.st = .configured then roundUp (s.sx.time + msec 20) (msec 10) else (s.sx.time / x.slotTime + 1) * x.slotTime
      let st := match x.starting with
        | some (ids, t) => (ids ++ [id], t)
        | none => ([id], at_)
      let s0 := s.setCell n (some { x with starting := some st })
      let s1 := (if x.starting.isNone then s0.sendManual n ((x.head.map (·.manual)).getD []) else s0).await id
      if holdover then s1.holdoverStart else s1

/-- A cell is stopped: configured, its CELL_STOPs answered. A start that waits for its boundary still waits for it. -/
def State.stopCell (s : State) (n : Nat) (x : Cell) : State :=
  let s1 := (s.setCell n (some { x with st := .configured, stopping := [], held := [], windows := [], fill := false,
                                        noUplink := false, mutePending := false })).radioFlags
  let s2 := x.stopping.foldl (fun s id => s.ok id [0]) s1
  if x.stopping.contains 0 then s2.batch n x.sfn x.slot false [Config.fapiMessage 2 [n, x.sfn, x.slot]] else s2

/-- CELL_STOP's action. -/
def State.stopRequest (s : State) (n id : Nat) : State :=
  match s.cell n with
  | none => s
  | some x => match x.st with
    | .admitted => s.ok id [1]
    | .configured => s.ok id [1]
    | .running => (s.setCell n (some { x with stopping := x.stopping ++ [id] })).await id
    | .holdover => s.stopCell n { x with stopping := x.stopping ++ [id] }
    | .muted => s.stopCell n { x with stopping := x.stopping ++ [id] }

def resvCellStart (_ : State) (c : Cmd) : Bool := c.p 1 1 < 2 && zeroAt c.params 2 14
def resvCellStop (_ : State) (c : Cmd) : Bool := zeroAt c.params 1 15
def checkCellStart (s : State) (c : Cmd) : Option Fail := startCheck s (c.p 0 1) ((c.p 1 1).testBit 0)
def checkCellStop (s : State) (c : Cmd) : Option Fail := firstFail [need (s.cell (c.p 0 1)).isSome stShape 0x76]

/-- CELL_START. -/
def execOpCellStart (id : Nat) (s : State) : Host.Outcome State Fault Refusal :=
  .next (runCoreless 0x5002 checkCellStart (fun s c => s.startCell (c.p 0 1) c.id ((c.p 1 1).testBit 0)) id s)

/-- CELL_STOP. -/
def execOpCellStop (id : Nat) (s : State) : Host.Outcome State Fault Refusal :=
  .next (runCoreless 0x5003 checkCellStop (fun s c => s.stopRequest (c.p 0 1) c.id) id s)

/-! ### FAPI carriage (R290, R291) -/

/-- The messages of a block, each as long as its own header says; none where they do not fill it exactly. -/
def cutMessages : Nat → List Byte → Option (List (List Byte))
  | 0, bs => if bs.isEmpty then some [] else none
  | k + 1, bs =>
    let n := Config.fapiLength bs
    if n = 0 ∨ n > bs.length then none else (cutMessages k (bs.drop n)).map (bs.take n :: ·)

def resvFapi (_ : State) (c : Cmd) : Bool :=
  c.p 1 1 ≤ 1 && (c.p 1 1 = 1 || zeroAt c.params 8 8)
    && zeroAt c.params (if c.p 1 1 = 0 then 16 + c.p 4 4 else 16) c.params.length

/-- The packet is as long as `n` parameter bytes make it (R24). -/
def Cmd.fits (c : Cmd) (n : Nat) : Bool :=
  let t := c.waits.length + c.signals.length
  c.params.length + 4 * t + 24 == packetLen n t

/-- Inline messages, where the packet holds them. -/
def fapiInline (c : Cmd) : Option (List (List Byte)) :=
  if c.fits (16 + c.p 4 4) then cutMessages (c.p 2 2) ((c.params.drop 16).take (c.p 4 4)) else none

/-- Checks of R291. -/
def checkFapi (s : State) (c : Cmd) : Option Fail :=
  let inl := c.p 1 1 = 0
  firstFail
    [ need (1 ≤ c.p 2 2 && c.p 2 2 ≤ 255 && 8 ≤ c.p 4 4 && c.p 4 4 ≤ (if inl then 4056 else 16777216)
        && (if inl then (fapiInline c).isSome else c.fits 16)) stShape 0x75,
      need (s.cell (c.p 0 1)).isSome stShape 0x76 ]

/-- The messages of a FAPI packet, or why they cannot be had (R291). -/
def fapiMessages (s : State) (c : Cmd) : Except Fail (List (List Byte)) :=
  if c.p 1 1 = 0 then .ok ((fapiInline c).getD [])
  else
    let lines := (c.p 8 8 + c.p 4 4 - 1) / 64 - c.p 8 8 / 64 + 1
    let bad := (List.range lines).any fun i => NMap.get false s.hostPoison (hostLine 0 (c.p 8 8 + 64 * i))
    if s.hostGone || bad then .error (stTierFailed, [4])
    else match cutMessages (c.p 2 2) (Memory.readN (s.hostMem 0) (c.p 8 8) (c.p 4 4)) with
      | some m => .ok m
      | none => .error (stShape, [0x75])

/-- A FAPI packet whose block cannot be read, or does not hold the messages it names: the latter fails as a check does, without its tokens. -/
def State.fapiFails (s : State) (c : Cmd) (f : Fail) : State :=
  (if f.1 = stShape then s.setCmd { c with signals := [] } else s).finish c.id f.1 f.2

/-- One P5 request: what it does, and the responses so far. -/
def State.fapiP5 (n : Nat) (r : State × List (List Byte)) (m : List Byte) : State × List (List Byte) :=
  let s := r.1
  match s.cell n with
  | none => r
  | some x =>
    let k := Config.fapiKind m
    let err (e : Nat) : State × List (List Byte) := (s, r.2 ++ [errorIndication n x.sfn x.slot k e])
    if k = 0 then (s, r.2 ++ [Config.fapiMessage 0 [n]])
    else if k = 1 then
      let good := (x.st = .admitted || x.st = .configured)
        && Config.fapiCarrier m == [cfMhz x.config, cfScs x.config, fieldAt x.config 4 1, fieldAt x.config 5 1]
      (if good then s.setCell n (some { x with st := .configured, fapi := m }) else s, r.2 ++ [Config.fapiMessage 1 [n, b2n !good]])
    else if k = 2 then (if (startCheck s n false).isSome then err 1 else (s.startCell n 0 false, r.2))
    else if k = 3 then (s.stopRequest n 0, r.2)
    else err 3

/-- FAPI_P5: PARAM, CONFIG, START and STOP requests act in their order; their responses form one batch. -/
def runFapiP5 (s : State) (c : Cmd) : State :=
  match fapiMessages s c with
  | .error f => s.fapiFails c f
  | .ok ms =>
    let n := c.p 0 1
    let r := ms.foldl (State.fapiP5 n) (s, [])
    let x := r.1.cell n
    (r.1.batch n ((x.map (·.sfn)).getD 0) ((x.map (·.slot)).getD 0) false r.2).ok c.id []

/-- FAPI_P5. -/
def execOpFapiP5 (id : Nat) (s : State) : Host.Outcome State Fault Refusal := .next (runCoreless 0x5011 checkFapi runFapiP5 id s)

/-- Output time at which slot (sfn, slot) of a cell starts, taken in the frames nearest the present. -/
def State.slotStart (s : State) (x : Cell) (sfn slot : Nat) : Int :=
  let f := s.sx.time / msec 10
  let k := (sfn + 1024 - f % 1024) % 1024
  let frame : Int := if k < 512 then (f + k : Nat) else (f + k : Nat) - 1024
  frame * (msec 10 : Nat) + (slot * x.slotTime : Nat)

/-- The request deadline of a slot has passed: t0 − 1.2 T_slot (Table 13-8 step 2). -/
def State.deadlinePassed (s : State) (x : Cell) (sfn slot : Nat) : Bool :=
  5 * (s.sx.time : Int) ≥ 5 * s.slotStart x sfn slot - (6 * x.slotTime : Nat)

/-- One P7 request: held for its slot, or reported in ERROR.indication. -/
def State.fapiP7 (n : Nat) (r : State × List (List Byte)) (m : List Byte) : State × List (List Byte) :=
  let s := r.1
  match s.cell n with
  | none => r
  | some x =>
    let k := Config.fapiKind m
    let t := Config.fapiSlot m
    let err (e : Nat) : List (List Byte) := r.2 ++ [errorIndication n t.1 t.2 k e]
    if k < 4 || k > 7 then (s, err 3)
    else if x.st ≠ .running then (s, err 1)
    else if s.deadlinePassed x t.1 t.2 then (s, err 2)
    else (s.setCell n (some { x with held := x.held ++ [(t.1, t.2, m)] }), if Config.fapiOutside m then err 4 else r.2)

/-- FAPI_P7: the radio sequencer holds the messages. -/
def runFapiP7 (s : State) (c : Cmd) : State :=
  match fapiMessages s c with
  | .error f => s.fapiFails c f
  | .ok ms =>
    let n := c.p 0 1
    let s0 := ms.foldl (fun s m => s.recordFronthaul n m) s
    let r := ms.foldl (State.fapiP7 n) (s0, [])
    let x := r.1.cell n
    (r.1.batch n ((x.map (·.sfn)).getD 0) ((x.map (·.slot)).getD 0) false r.2).ok c.id []

/-- FAPI_P7. -/
def execOpFapiP7 (id : Nat) (s : State) : Host.Outcome State Fault Refusal := .next (runCoreless 0x5010 checkFapi runFapiP7 id s)

/-! ### The slot pipeline (R293–R299) -/

/-- Requests of one kind held for a slot. -/
def Cell.holds (x : Cell) (sfn slot kind : Nat) : Bool :=
  x.held.any fun h => h.1 = sfn && h.2.1 = slot && Config.fapiKind h.2.2 = kind

/-- REQUEST_DEADLINE: requests of the slot whose deadline passes that are not held in full leave it and are reported in an
ERROR.indication of that slot. -/
def requestDeadline (n : Nat) (s : State) : State :=
  match s.cell n with
  | none => s
  | some x =>
    if x.st ≠ .running && x.st ≠ .holdover then s
    else
      let i := (5 * s.sx.time + 6 * x.slotTime) / (5 * x.slotTime)
      let sfn := i * x.slotTime / msec 10 % 1024
      let slot := i * x.slotTime % msec 10 / x.slotTime
      let mine (h : Nat × Nat × List Byte) : Bool := h.1 = sfn && h.2.1 = slot
      let all := (x.held.filter mine).map (·.2.2)
      let cut (h : Nat × Nat × List Byte) : Bool := mine h && !Config.fapiWhole h.2.2 all
      (s.setCell n (some { x with held := x.held.filter (!cut ·) })).batch n sfn slot false
        ((x.held.filter cut).map fun h => errorIndication n sfn slot (Config.fapiKind h.2.2) 2)

/-- REQUEST_DEADLINE. -/
def execRequestDeadline (cell : Nat) (s : State) : Host.Outcome State Fault Refusal := .next (requestDeadline cell s)

/-- A downlink window is open on a port number. -/
def State.windowOpen (s : State) (p : Nat) : Bool :=
  s.cells.any fun e => match e.2 with
    | some x => cfPort x.config = p && x.windows.any (!·.2)
    | none => false

/-- The Tallyman of a cell's port learns which windows are open (R356). -/
def State.tellWindows (s : State) (x : Cell) : State :=
  let p := cfPort x.config
  s.setSub p { s.sub p with window := s.windowOpen p }

/-- FRONTHAUL_WINDOW: a window of Table 13-2 opens or closes. U-plane that is ready joins queue 1 as its window opens (log 42); a
downlink symbol not ready at the close is not sent; uplink U-plane missing at the close is counted and reported (R296, R297). -/
def fronthaulWindow (n symbol : Nat) (uplink opening ready : Bool) (s : State) : State :=
  match s.cell n with
  | none => s
  | some x =>
    let live := x.st = .running || x.st = .holdover
    let w := (symbol, uplink)
    if symbol > 13 || !live || opening = x.windows.contains w then s
    else if opening then
      let s1 := (s.setCell n (some { x with windows := x.windows ++ [w] })).tellWindows x
      let d := s1.draw
      if !uplink && ready then d.2.queueFrame (cfPort x.config) 1 (64 + d.1.toNat % 9153) [] else s1
    else
      let y := { x with windows := x.windows.filter (· ≠ w) }
      let lost := !ready && !(uplink && x.noUplink)
      let z := if lost && !uplink then { y with unsent := y.unsent + 1 } else if lost then { y with missing := y.missing + 1 } else y
      let s1 := (s.setCell n (some z)).tellWindows x
      if lost && uplink then s1.batch n x.sfn x.slot false [errorIndication n x.sfn x.slot 5 5] else s1

/-- FRONTHAUL_WINDOW. -/
def execFronthaulWindow (cell symbol : Nat) (uplink opening ready : Bool) (s : State) : Host.Outcome State Fault Refusal :=
  .next (fronthaulWindow cell symbol uplink opening ready s)

/-- A figure in 0.1 dB of a slot's sums, clamped, as a 16-bit word (R346). -/
def figure (sums : Nat × Nat) (lo hi : Int) : Nat := (BitVec.ofInt 16 (max lo (min hi (Config.deciBel sums.1 sums.2)))).toNat

/-- The slot's figures, where it had a PUSCH allocation (R347). -/
def Cell.quality (x : Cell) (d : DeadlineObs) : Cell :=
  let x1 := match d.evm with
    | some e => { x with qEvm := figure e (-600) 100, qStamp := d.sfn * 64 + d.slot }
    | none => x
  match d.lq with
  | some q => { x1 with qSinr := figure q (-300) 600, qStamp := d.sfn * 64 + d.slot }
  | none => x1

/-- A replay is in progress, so slots of a configured cell may be worked off from its entries (R417). -/
def State.replays (s : State) : Bool := s.tenants.any fun e => e.2.ctxs.any fun x => x.2.replaying.isSome

/-- C-plane of a slot leaves by queue 2 of the cell's port (R289, Tables 13-8 step 5 and 13-9 step 2); an O-RAN split has it, and its frame's
length is free (log 42). -/
def State.controlPlane (s : State) (x : Cell) (d : DeadlineObs) : State :=
  if cfSplit x.config ≠ 2 ∧ x.st ≠ .configured ∧ (d.dir = 0 ∧ d.step = 5 ∨ d.dir = 1 ∧ d.step = 2) then
    let w := s.draw
    w.2.queueFrame (cfPort x.config) 2 (64 + w.1.toNat % 9153) []
  else s

/-- SLOT_DEADLINE: a step that missed its deadline is reported SLOT_LATE; its results are delivered all the same, marked late. -/
def slotDeadline (n : Nat) (d : DeadlineObs) (s : State) : State :=
  match s.cell n with
  | none => s
  | some x =>
    if (x.st ≠ .running && x.st ≠ .holdover && !(x.st = .configured && s.replays)) || d.dir > 2 then s
    else
      -- RACH.indication (Table 13-9 step 8) reports what the detector found
      let report := d.dir = 2 && d.step = 8
      let rach := if report then x.rach.map (Config.fapiMessage 5) else []
      let y := x.quality d
      let s1 := (s.setCell n (some (if report then { y with rach := [] } else y))).controlPlane x d
      let s2 := if d.met then s1 else s1.notice 0 stSlotLate
        (leBytes 1 d.dir ++ leBytes 1 n ++ leBytes 2 d.sfn ++ leBytes 1 d.slot ++ leBytes 1 d.step ++ leBytes 2 0 ++ leBytes 4 d.late)
      s2.batch n d.sfn d.slot (!d.met) (d.messages ++ rach)

/-- SLOT_DEADLINE. -/
def execSlotDeadline (cell : Nat) (d : DeadlineObs) (s : State) : Host.Outcome State Fault Refusal := .next (slotDeadline cell d s)

end Sys2Proof.Machine
end

