-- ==== Sys2Proof/Machine/Head.lean ====
section
/-! DEFINITION. Companion-head loops (R340–R345), slot boundaries (R293) and cells that become running (R287). -/
namespace Sys2Proof.Machine

/-! ### Gains and control words (R340, R341, Table 15-6) -/

/-- Gain in force for an antenna at an output time. -/
def Head.gainAt (h : Head) (a t : Nat) : Nat :=
  h.words.foldl (fun g w => if w.1 = a && w.2.2 ≤ t then w.2.1 else g) (h.gains.getD a 0)

/-- Clamp a gain to 0–63.75 dB. -/
def clampGain (g : Int) : Nat := (max 0 (min 255 g)).toNat

/-- First symbol that starts at least 10 µs after a message sent now leaves the port (R340): slots from the one in progress,
symbol, output time of its start. -/
def State.headTarget (s : State) (x : Cell) : Nat × Nat × Nat :=
  let t := s.sx.time + 4 * Config.headLatency + usec 10
  let i := ceilDiv (14 * t) x.slotTime
  (i / 14 - s.sx.time / x.slotTime, i % 14, ceilDiv (i * x.slotTime) 14)

/-- `p` hundredths of a decibel in 0.25 dB steps, to the nearest. -/
def quarterDb (p : Int) : Int := (2 * p + 25) / 50

/-- AGC_MEASUREMENT: freeze on a burst or a PRACH occasion (R342), else fast attack (R341). -/
def agcMeasurement (n a : Nat) (power : Int) (prach : Bool) (s : State) : State :=
  match s.cell n with
  | none => s
  | some x => match x.head with
    | none => s
    | some h =>
      if (x.st ≠ .running && x.st ≠ .holdover) || a ≥ cfAnt x.config || !h.flags.testBit 0 then s
      else
        let last := NMap.get none h.prev a
        let burst := (last.map fun q => decide (power > q + 25 * h.burst)).getD false
        let first := s.sx.time % x.slotTime * 14 < x.slotTime
        let carried := h.frozen && h.prachFreeze && first && !prach
        let frozen := burst || prach || (h.frozen && !carried)
        let low := decide (power < 25 * (h.target - h.hysteresis)) && (NMap.get none h.allLow a).getD true
        let h1 := { h with prev := NMap.set none h.prev a (some power), allLow := NMap.set none h.allLow a (some low),
                           frozen := frozen, prachFreeze := prach }
        let s1 := s.setHead n x h1
        let s2 := if frozen && !h.frozen then s1.bump 0x06000058 1 else s1
        let g := s.headTarget x
        if power > 25 * (h.target + h.hysteresis) && !(frozen && g.1 = 0) then
          let cut := quarterDb (min (power - 25 * h.target) (25 * h.attack))
          let value := clampGain ((h.gainAt a (s.sx.time - usec 6) : Int) - cut)
          let at_ := x.ahead x.sfn x.slot g.1
          (s2.setHead n x { h1 with words := h1.words ++ [(a, value, g.2.2)] }).headSend n 1 a at_.1 at_.2 g.2.1 value
        else s2

/-- AGC_MEASUREMENT. -/
def execAgcMeasurement (cell antenna : Nat) (power : Int) (prach : Bool) (s : State) : Host.Outcome State Fault Refusal :=
  .next (agcMeasurement cell antenna power prach s)

/-- round(f / 2^a); which way a tie goes is a free value. -/
def roundHalf (s : State) (f : Int) (a : Nat) : Int × State :=
  let d := s.draw
  if f % 2 ^ a * 2 = 2 ^ a then (f / 2 ^ a + (d.1.toNat % 2 : Nat), d.2) else ((2 * f + 2 ^ a) / (2 * 2 ^ a), s)

/-- FREQUENCY_ESTIMATE: the correction word of R343, sent for the start of slot n + 2. -/
def frequencyEstimate (n : Nat) (offset quality : Int) (s : State) : State :=
  match s.cell n with
  | none => s
  | some x => match x.head with
    | none => s
    | some h =>
      if x.st ≠ .running && x.st ≠ .holdover then s
      else
        let r := roundHalf s offset h.a
        let c := if !h.flags.testBit 1 || quality < h.hold then h.freq
          else max (-10000000) (min 10000000 (h.freq - max (-(h.step : Int)) (min h.step r.1)))
        let to_ := x.ahead x.sfn x.slot 2
        (r.2.setHead n x { h with freq := c }).headSend n 2 0xFF to_.1 to_.2 0 c

/-- FREQUENCY_ESTIMATE. -/
def execFrequencyEstimate (cell : Nat) (offset quality : Int) (s : State) : Host.Outcome State Fault Refusal :=
  .next (frequencyEstimate cell offset quality s)

/-! ### HEAD_CONTROL (R344, R345, Table 15-8) -/

def resvHeadControl (_ : State) (c : Cmd) : Bool :=
  let b := c.params
  zeroAt b 11 1 && zeroAt b 22 10 &&
    (match c.p 1 1 with
     | 0 => c.p 2 1 < 4 && zeroAt b 3 1 && zeroAt b 16 4
     | 1 => zeroAt b 2 1 && zeroAt b 4 12 && zeroAt b 20 2
     | 2 => zeroAt b 2 14 && zeroAt b 20 2
     | 3 => zeroAt b 2 1 && zeroAt b 4 18
     | _ => true)

/-- A signed field. -/
def Cmd.sp (c : Cmd) (o n : Nat) : Int := toSigned (8 * n) (c.p o n)

def checkHeadControl (s : State) (c : Cmd) : Option Fail :=
  match s.cell (c.p 0 1) with
  | none => failWith stShape 0x77
  | some x =>
    let n := cfAnt x.config
    let ok : Bool := match c.p 1 1 with
      | 0 => -160 ≤ c.sp 4 2 && c.sp 4 2 ≤ -4 && c.p 6 1 ≤ 40 && 4 ≤ c.p 7 1 && c.p 7 1 ≤ 96 && 1 ≤ c.p 8 1 && c.p 8 1 ≤ 16
          && 8 ≤ c.p 9 1 && c.p 9 1 ≤ 80 && 1 ≤ c.p 10 1 && c.p 10 1 ≤ 6 && 1 ≤ c.p 12 4 && c.p 12 4 ≤ 1000000
          && -100 ≤ c.sp 20 2 && c.sp 20 2 ≤ 300
      | 1 => (c.p 3 1 = 0xFF || (c.p 3 1 ≤ 15 && c.p 3 1 < n)) && c.p 16 4 < 256
      | 2 => (c.sp 16 4).natAbs ≤ 10000000
      | 3 => c.p 3 1 ≤ 8 && c.p 3 1 < n
      | _ => false
    firstFail [need x.head.isSome stShape 0x77, need ok stShape 0x78]

/-- HEAD_CONTROL: settings, manual gains and words wait for the next slot boundary; action 0x03 reads. -/
def runHeadControl (s : State) (c : Cmd) : State :=
  let n := c.p 0 1
  match s.cell n with
  | none => s
  | some x => match x.head with
    | none => s
    | some h => match c.p 1 1 with
      | 0 => (s.setHead n x { h with pending := some [c.p 2 1, c.sp 4 2, c.p 6 1, c.p 7 1, c.p 8 1, c.p 9 1, c.p 10 1, c.p 12 4, c.sp 20 2] }).ok c.id []
      | 1 =>
        let as := if c.p 3 1 = 0xFF then List.range (cfAnt x.config) else [c.p 3 1]
        let ws := as.map fun a => (a, c.p 16 4)
        ((s.setHead n x { h with manual := h.manual ++ ws }).sendManual n ws).ok c.id []
      | 2 => (s.setHead n x { h with manualWord := some (c.sp 16 4) }).ok c.id []
      | _ =>
        let gain (i : Nat) : List Byte :=
          leBytes 1 (if c.p 3 1 + i < cfAnt x.config then h.gainAt (c.p 3 1 + i) s.sx.time else 0)
        s.ok c.id (leBytes 1 (cfAnt x.config) ++ leBytes 1 (b2n h.frozen) ++ leBytes 2 0 ++ leBytes 4 (BitVec.ofInt 32 h.freq).toNat
          ++ (List.range 8).flatMap gain)

/-- HEAD_CONTROL. -/
def execOpHeadControl (id : Nat) (s : State) : Host.Outcome State Fault Refusal := .next (runCoreless 0x5030 checkHeadControl runHeadControl id s)

/-! ### Slot boundaries -/

/-- Settings that waited take effect. -/
def Head.settle (h : Head) : Head :=
  let h1 := match h.pending with
    | some [f, t, hy, at_, d, b, a, st, ho] =>
      { h with flags := f.toNat, target := t, hysteresis := hy.toNat, attack := at_.toNat, decay := d.toNat, burst := b.toNat,
               a := a.toNat, step := st.toNat, hold := ho, pending := none }
    | _ => h
  { h1 with gains := h1.manual.foldl (fun g w => g.set w.1 w.2) h1.gains, manual := [], freq := h1.manualWord.getD h1.freq,
            manualWord := none }

/-- The loops at a slot boundary: words in force become the gains, waiting settings and manual gains take effect, a freeze ends (R342), and slow
decay sends its words (R341 rule 3) for symbol 0 of the slot after the one that starts, the first that a word which leaves now can name (R340, log 134). -/
def State.headBoundary (s : State) (n sfn slot : Nat) : State :=
  match s.cell n with
  | none => s
  | some x => match x.head with
    | none => s
    | some h =>
      let t := s.sx.time
      let as := List.range (cfAnt x.config)
      let decays := if h.flags.testBit 0 then
          (as.filter fun a => NMap.get none h.allLow a == some true).map fun a => (a, clampGain (h.gainAt a t + h.decay))
        else []
      let next := (t / x.slotTime + 1) * x.slotTime
      let words := h.words.filter (fun w => decide (w.2.2 > t)) ++ decays.map fun w => (w.1, w.2, next)
      let h1 := Head.settle { h with gains := as.map fun a => h.gainAt a t, words := words, allLow := [], frozen := h.prachFreeze }
      let after := x.ahead sfn slot 1
      (s.setHead n x { h1 with gain0 := h1.gains }).sendGains n after.1 after.2 decays

/-- SLOT_BOUNDARY: a slot of a started cell starts. A stop takes effect at the end of the slot before, a holdover that has expired
mutes; else the slot's requests are taken, SLOT.indication of the slot `lead` ahead is written, the loops take their settings. -/
def slotBoundary (n : Nat) (s : State) : State :=
  match s.cell n with
  | none => s
  | some x =>
    let t := s.slotNow x
    if !x.st.started || t = (x.sfn, x.slot) then s
    else if !x.stopping.isEmpty then s.stopCell n x
    else
      let start := s.sx.time / x.slotTime * x.slotTime
      let y := { x with sfn := t.1, slot := t.2, fill := !x.holds t.1 t.2 4, noUplink := !x.holds t.1 t.2 5, windows := [],
                        held := x.held.filter fun h => decide (s.slotStart x h.1 h.2.1 ≥ start) }
      if x.st = .holdover && x.mutePending then
        ((s.setCell n (some { y with st := .muted, mutePending := false })).tellWindows x).radioFlags
      else if x.st = .muted then s.setCell n (some y)
      else
        let a := y.ahead t.1 t.2 (cfLead y.config)
        (((s.setCell n (some y)).tellWindows x).headBoundary n t.1 t.2).batch n a.1 a.2 false [Config.fapiMessage 4 [n, a.1, a.2]]

/-- SLOT_BOUNDARY. -/
def execSlotBoundary (cell : Nat) (s : State) : Host.Outcome State Fault Refusal := .next (slotBoundary cell s)

/-- CELL_START powers on the radio's domains that are off (R433); their units pass their test there (log 49). -/
def State.powerRadio (s : State) : State :=
  ([12, 13, 14, 16].filter fun d => s.variant.domainPresent d && !s.pw.on.testBit d).foldl (fun s d => s.powerUp default d) s

/-- CELL_BECOMES_RUNNING: the boundary has come; the CELL_STARTs that waited for it complete. While the host is lost a running cell is in
holdover (R299). -/
def cellBecomesRunning (n : Nat) (s : State) : State :=
  match s.cell n with
  | none => s
  | some x => match x.starting with
    | none => s
    | some (ids, t) =>
      if s.sx.time < t then s
      else
        let s := s.powerRadio
        let u := s.slotNow x
        let y := { x with st := if s.link.lostAt.isSome then .holdover else .running, starting := none, sfn := u.1, slot := u.2, fill := !x.holds u.1 u.2 4,
                          noUplink := !x.holds u.1 u.2 5, mutePending := false }
        ids.foldl (fun s id => s.ok id [0]) (((s.setCell n (some y)).radioFlags).headBoundary n u.1 u.2)

/-- CELL_BECOMES_RUNNING. -/
def execCellBecomesRunning (cell : Nat) (s : State) : Host.Outcome State Fault Refusal := .next (cellBecomesRunning cell s)

end Sys2Proof.Machine
end

