-- ==== Sys2Proof/Machine/Ethernet.lean ====
section
/-! DEFINITION. Ethernet ports and Tallyman (16): the network opcodes, receive, PFC, policers, transmit scheduling, tenant rings. -/
namespace Sys2Proof.Machine

/-! ### Token buckets (R358, R359) -/

/-- A level in 1/32,000 byte after `dt` units of 0.25 ns at `rate` Mb/s, capped at `burst` bytes. -/
def refill (level rate burst dt : Nat) : Nat := min (level + rate * dt) (burst * 32000)

/-- A bucket brought up to the present. -/
def Bucket.now (b : Bucket) (t : Nat) : Bucket := { b with level := refill b.level b.rate b.burst (t - b.at_), at_ := t }

/-- The bucket lets a frame of `n` line bytes go; rate 0 disables it. -/
def Bucket.lets (b : Bucket) (t n : Nat) : Bool := b.rate = 0 || (b.now t).level ≥ n * 32000

/-- A frame's line bytes are taken off, down to zero. -/
def Bucket.debit (b : Bucket) (t n : Nat) : Bucket := let c := b.now t; { c with level := c.level - n * 32000 }

/-! ### Checks shared by the network opcodes (Table 16-6) -/

/-- The queues of the sub-ports that exist on a port, by port number. -/
def portNumbers (p : Nat) : List Nat := (List.range 4).map (4 * p + ·)

/-- An admitted cell uses a sub-port of port `p`. -/
def State.cellOnPort (s : State) (p : Nat) : Bool :=
  s.cells.any fun e => (e.2.map fun x => decide (cfPort x.config / 4 = p)).getD false

/-! ### PORT_CONFIG -/

def resvPortConfig (_ : State) (c : Cmd) : Bool := zeroAt c.params 1 3 && c.p 6 1 < 2 && zeroAt c.params 7 1 && zeroAt c.params 14 18

def checkPortConfig (s : State) (c : Cmd) : Option Fail :=
  let n := c.p 0 1
  let mode := s.ethModeOf (n / 4)
  firstFail
    [ need (s.portExists n && n % 4 = 0) stShape 0x80,
      need (c.p 4 1 ≤ 2 && popCount 8 (c.p 5 1) ≤ 4) stShape 0x81,
      need (!(s.cellOnPort (n / 4) && (c.p 4 1 ≠ mode || (c.p 6 1 = 0 && (s.sub n).enabled)))) stNoResources 0x21 ]

/-- A sub-port's link goes down where it was up. -/
def State.loseLink (s : State) (n : Nat) : State := if (s.sub n).link = 2 then s.moveLink n false else s

/-- A sub-port of a port whose mode changes: its link down, its queues unbound, back at reset. -/
def State.clearSub (s : State) (n : Nat) : State :=
  ((List.range 64).foldl (fun (s : State) q => s.unbindQueue n q) (s.loseLink n)).setSub n SubPort.init

/-- The settings PORT_CONFIG gives a sub-port; one it disables loses its link. -/
def State.configureSub (c : Cmd) (s : State) (n : Nat) : State :=
  let en := c.p 6 1 = 1
  let s := if en then s else s.loseLink n
  let x := s.sub n
  let x1 := { x with enabled := en, mac := c.p 8 6, lossless := c.p 5 1, xoff := Nat.land x.xoff (c.p 5 1),
                     link := if !en then 0 else if !x.enabled then 1 else x.link }
  s.setSub n (if en then x1 else { x1 with xoff := 0, paused := 0 })

/-- PORT_CONFIG: its settings are those of every sub-port of the port (log 43); a new mode unbinds the queues and retrains. -/
def runPortConfig (s : State) (c : Cmd) : State :=
  let p := c.p 0 1 / 4
  let mode := c.p 4 1
  let changed := mode ≠ s.ethModeOf p
  let s1 := if changed then { (portNumbers p).foldl State.clearSub s with ethMode := NMap.set 0 s.ethMode p mode } else s
  (((portNumbers p).filter s1.portExists).foldl (State.configureSub c) s1).ok c.id []

/-- PORT_CONFIG. -/
def execOpPortConfig (id : Nat) (s : State) : Host.Outcome State Fault Refusal := .next (runCoreless 0x7001 checkPortConfig runPortConfig id s)

/-! ### QUEUE_CONFIG -/

def resvQueueConfig (_ : State) (c : Cmd) : Bool := zeroAt c.params 2 2 && zeroAt c.params 30 2

/-- The object a ring reference names holds the ring. -/
def State.ringFits (s : State) (t r entries : Nat) : Bool :=
  match s.obj t (refHandle r) with
  | some o => refOff r + 64 + 16 * entries ≤ o.size
  | none => false

/-- Another queue of the sub-port receives on the VLAN. -/
def SubPort.vlanTaken (p : SubPort) (q vlan : Nat) : Bool :=
  (List.range 64).any fun k => k ≠ q && (p.queue k).tenant.isSome && (p.queue k).rxRing ≠ 0 && (p.queue k).vlan = vlan

def checkQueueConfig (s : State) (c : Cmd) : Option Fail :=
  let n := c.p 0 1
  let q := c.p 1 1
  let t := c.p 4 1
  let x := (s.sub n).queue q
  let free := t = 0xFF
  let k := c.p 24 4
  firstFail
    [ need (s.portExists n) stShape 0x80,
      need (q ≤ 63 && (free || t ≤ 15) && (q ≥ 8 || t = 0)
        && (free || (c.p 5 1 ≤ 7 && 1 ≤ c.p 6 2 && c.p 6 2 ≤ 1023 && (q ≥ 8 || c.p 8 8 = 0)
            && 16 ≤ k && k ≤ 65536 && 2 ^ (bitLen k - 1) = k && c.p 28 2 ≤ 4095))) stShape 0x81,
      need (free || ((q < 8 || s.ringFits t (c.p 8 8) k) && (c.p 16 8 = 0 || s.ringFits t (c.p 16 8) k))) stShape 0x82,
      need (free || t = 0 || (s.tenant t).provisioned) stNoResources 0x20,
      need (free || ((x.tenant = none || x.tenant = some t) && !(c.p 16 8 ≠ 0 && (s.sub n).vlanTaken q (c.p 28 2)))) stNoResources 0x22 ]

/-- QUEUE_CONFIG binds or unbinds a queue; frames already queued keep their tags. -/
def runQueueConfig (s : State) (c : Cmd) : State :=
  let n := c.p 0 1
  let q := c.p 1 1
  if c.p 4 1 = 0xFF then (s.unbindQueue n q).ok c.id []
  else
    let p := s.sub n
    let x := p.queue q
    (s.setSub n (p.setQueue q { x with tenant := some (c.p 4 1), prio := c.p 5 1, weight := c.p 6 2, txRing := c.p 8 8,
                                       rxRing := c.p 16 8, entries := c.p 24 4, vlan := c.p 28 2 })).ok c.id []

/-- QUEUE_CONFIG. -/
def execOpQueueConfig (id : Nat) (s : State) : Host.Outcome State Fault Refusal := .next (runCoreless 0x7002 checkQueueConfig runQueueConfig id s)

/-! ### SHAPER_CONFIG and POLICER_CONFIG -/

def resvShaperConfig (_ : State) (c : Cmd) : Bool := zeroAt c.params 2 2 && zeroAt c.params 12 20

def checkShaperConfig (s : State) (c : Cmd) : Option Fail :=
  let n := c.p 0 1
  firstFail
    [ need (s.portExists n) stShape 0x80,
      need ((c.p 1 1 ≤ 63 || c.p 1 1 = 0xFF) && c.p 4 4 ≤ 1000 * s.lineRate n && 9236 ≤ c.p 8 4 && c.p 8 4 ≤ 16777216) stShape 0x81 ]

/-- SHAPER_CONFIG: the bucket is clamped to the new burst and keeps its tokens up to it (R361). -/
def runShaperConfig (s : State) (c : Cmd) : State :=
  let n := c.p 0 1
  let p := s.sub n
  let set (b : Bucket) : Bucket :=
    let d := b.now s.now
    { d with rate := c.p 4 4, burst := c.p 8 4, level := min d.level (c.p 8 4 * 32000) }
  let p1 := if c.p 1 1 = 0xFF then { p with shaper := set p.shaper }
    else let x := p.queue (c.p 1 1); p.setQueue (c.p 1 1) { x with shaper := set x.shaper }
  (s.setSub n p1).ok c.id []

/-- SHAPER_CONFIG. -/
def execOpShaperConfig (id : Nat) (s : State) : Host.Outcome State Fault Refusal := .next (runCoreless 0x7003 checkShaperConfig runShaperConfig id s)

def resvPolicerConfig (_ : State) (c : Cmd) : Bool := zeroAt c.params 1 1 && c.p 20 1 < 128 && zeroAt c.params 22 10

def checkPolicerConfig (s : State) (c : Cmd) : Option Fail :=
  let burst (o : Nat) : Bool := 9216 ≤ c.p o 4 && c.p o 4 ≤ 16777216
  firstFail
    [ need (s.portExists (c.p 0 1)) stShape 0x80,
      need (c.p 2 2 ≤ 4095 && c.p 4 4 ≤ c.p 8 4 && burst 12 && burst 16 && bits (c.p 20 1) 3 1 ≤ 2 && bits (c.p 20 1) 6 4 ≤ 2
        && c.p 21 1 ≤ 7) stShape 0x81 ]

/-- POLICER_CONFIG: both buckets are refilled to their new sizes (R361). -/
def runPolicerConfig (s : State) (c : Cmd) : State :=
  let n := c.p 0 1
  let p := s.sub n
  let x : Policer := { cir := c.p 4 4, pir := c.p 8 4, cbs := c.p 12 4, pbs := c.p 16 4, aware := (c.p 20 1).testBit 0,
                       yellow := bits (c.p 20 1) 3 1, red := bits (c.p 20 1) 6 4, mark := c.p 21 1, tc := c.p 12 4 * 32000,
                       tp := c.p 16 4 * 32000, at_ := s.now }
  (s.setSub n { p with policers := NMap.set none p.policers (c.p 2 2) (some x) }).ok c.id []

/-- POLICER_CONFIG. -/
def execOpPolicerConfig (id : Nat) (s : State) : Host.Outcome State Fault Refusal := .next (runCoreless 0x7004 checkPolicerConfig runPolicerConfig id s)

/-! ### Policing (R359, RFC 2698) -/

/-- A frame of `n` bytes through a policer: 0 green, 1 yellow, 2 red, and the policer after it. -/
def Policer.judge (x : Policer) (now n : Nat) (dei : Bool) : Nat × Policer :=
  let y := { x with tc := refill x.tc x.cir x.cbs (now - x.at_), tp := refill x.tp x.pir x.pbs (now - x.at_), at_ := now }
  let need := n * 32000
  if y.tp < need then (2, y)
  else if (x.aware && dei) || y.tc < need then (1, { y with tp := y.tp - need })
  else (0, { y with tp := y.tp - need, tc := y.tc - need })

/-- Priority code point rewritten and DEI set in a tagged frame. -/
def markFrame (bs : List Byte) (pcp : Nat) : List Byte :=
  if fieldAt bs 12 2 = 0x0081 then
    let b := fieldAt bs 14 1
    bs.take 14 ++ leBytes 1 (pcp * 32 + 16 + b % 16) ++ bs.drop 15
  else bs

/-- What the policer of the frame's VLAN makes of it: the state, and the frame's bytes where it passes. -/
def State.police (s : State) (f : EthFrame) : State × Option (List Byte) :=
  let p := s.sub f.port
  let vlan := if f.tags = 0 then 0 else f.vlan
  match NMap.get none p.policers vlan with
  | none => (s, some f.bytes)
  | some x =>
    if x.pir = 0 then (s, some f.bytes)
    else
      let j := x.judge s.now f.length (f.tags ≠ 0 && f.dei)
      let s1 := s.setSub f.port { p with policers := NMap.set none p.policers vlan (some j.2) }
      let act := if j.1 = 0 then 0 else if j.1 = 1 then x.yellow else x.red
      if act = 2 then (if j.1 = 2 then s1.bump (aTM f.port 0x048) 1 else s1, none)
      else (s1, some (if act = 1 then markFrame f.bytes x.mark else f.bytes))

/-! ### Tenant rings (R355, Table 16-3) -/

/-- A number in an object of a tenant; none where the read fails or is poisoned. -/
def State.ringNum (s : State) (t r o n : Nat) : Option Nat :=
  let d := s.readRef 0 t r o n
  if d.fail.isNone && !d.poison then some (leNat d.bytes) else none

/-- Write into an object of a tenant. -/
def State.ringPut (s : State) (t r o : Nat) (bs : List Byte) : State := (s.writeRef t 0 0 r o bs false false).1

/-- Offset of entry `i` of a ring. -/
def entryOff (i entries : Nat) : Nat := 64 + 16 * (i % entries)

/-- A frame goes into a receive ring where a buffer is free; else it is dropped. -/
def State.deliver (s : State) (n : Nat) (q : Queue) (bs : List Byte) : State :=
  let t := q.tenant.getD 0
  let drop := s.bump (aTM n 0x038) 1
  match s.ringNum t q.rxRing 0 4, s.ringNum t q.rxRing 4 4 with
  | some prod, some cons =>
    let o := entryOff prod q.entries
    if (prod + 2 ^ 32 - cons) % 2 ^ 32 ≥ q.entries then drop
    else match s.ringNum t q.rxRing o 8 with
      | none => drop
      | some buf =>
        if buf = 0 then drop
        else match s.writeRef t 0 0 buf 0 bs false false with
          | (s1, none) => (s1.ringPut t q.rxRing (o + 8) (leBytes 2 bs.length ++ leBytes 1 0)).ringPut t q.rxRing 0 (leBytes 4 (prod + 1))
          | (_, some _) => drop
  | _, _ => drop

/-- Entries from the index on that the tenant has produced, as frames; the first entry that cannot be read or has a length out of
range ends the list (log 44). -/
def State.fetchFrames (s : State) (t ring entries : Nat) : Nat → Nat → List (List Byte × Bool)
  | 0, _ => []
  | k + 1, i =>
    let o := entryOff i entries
    match s.ringNum t ring o 8, s.ringNum t ring (o + 8) 2 with
    | some buf, some len =>
      if len < 60 ∨ len > 9212 then []
      else
        let d := s.readRef 0 t buf 0 len
        if d.fail.isSome then [] else (d.bytes, d.poison) :: s.fetchFrames t ring entries k (i + 1)
    | _, _ => []

/-- TRANSMIT_RING_POLL: frames the tenant has added since the last look join the queue. -/
def transmitRingPoll (n q : Nat) (s : State) : State :=
  let p := s.sub n
  let x := p.queue q
  match x.tenant with
  | none => s
  | some t =>
    if !s.portExists n || q > 63 || x.txRing = 0 then s
    else match s.ringNum t x.txRing 0 4, s.ringNum t x.txRing 4 4 with
      | some prod, some cons =>
        let have_ := x.frames.length
        let new := (prod + 2 ^ 33 - cons - have_) % 2 ^ 32
        let fs := if new > x.entries then [] else s.fetchFrames t x.txRing x.entries new (cons + have_)
        s.setSub n (fs.foldl (fun p f => p.enqueue s.now q (f.1.length + 4) f.1 f.2) p)
      | _, _ => s

/-- TRANSMIT_RING_POLL. -/
def execTransmitRingPoll (port queue : Nat) (s : State) : Host.Outcome State Fault Refusal := .next (transmitRingPoll port queue s)

/-! ### Tallyman (R356–R358) -/

/-- Tag `a` precedes `b` modulo 2⁴⁸. -/
def precedes (a b : Nat) : Bool := let d := (b + 2 ^ 48 - a) % 2 ^ 48; 1 ≤ d && d < 2 ^ 47

/-- A queue is eligible. -/
def SubPort.eligible (p : SubPort) (q now : Nat) : Bool :=
  let x := p.queue q
  match x.frames with
  | [] => false
  | f :: _ => !p.paused.testBit x.prio && x.shaper.lets now (lineBytes f.length) && p.shaper.lets now (lineBytes f.length)

/-- The queue that sends next: fronthaul whose window is open first, else the eligible queue with the earliest head tag. -/
def SubPort.choose (p : SubPort) (now : Nat) : Option Nat :=
  let head (q : Nat) : Nat := ((p.queue q).frames.map (·.tag)).headD 0
  match [1, 2, 3].find? fun q => p.window && !(p.queue q).frames.isEmpty with
  | some q => some q
  | none => ((List.range 64).filter fun q => p.eligible q now).foldl (fun v q => match v with
      | none => some q
      | some w => if precedes (head q) (head w) then some q else some w) none

/-- EtherType of a frame's bytes, past a VLAN tag, and the two bytes after it. -/
def frameType (bs : List Byte) : Nat × Nat :=
  let o := if fieldAt bs 12 2 = 0x0081 then 16 else 12
  (leNat ((bs.drop o).take 2).reverse, fieldAt bs (o + 2) 2)

/-- A frame of a tenant's ring has been sent: the consumer index goes on. -/
def State.consumed (s : State) (x : Queue) : State :=
  match x.tenant with
  | none => s
  | some t =>
    if x.txRing = 0 then s
    else match s.ringNum t x.txRing 4 4 with
      | some c => s.ringPut t x.txRing 4 (leBytes 4 (c + 1))
      | none => s

/-- FRAME_TRANSMIT: Tallyman sends the next frame, no frame being in progress. -/
def frameTransmit (n : Nat) (s : State) : State :=
  let p := s.sub n
  let idle := (p.busy.map fun b => decide (s.now ≥ b.2)).getD true
  if !s.subUp n || !idle then s
  else
    let p0 := { p with busy := none }
    match p0.choose s.now with
    | none => s.setSub n p0
    | some q =>
      let x := p0.queue q
      match x.frames with
      | [] => s
      | f :: rest =>
        let lb := lineBytes f.length
        let p1 := p0.setQueue q { x with frames := rest, shaper := x.shaper.debit s.now lb }
        let p2 := { p1 with v := f.tag, shaper := p1.shaper.debit s.now lb, busy := some (q, s.now + ceilDiv (32 * lb) (s.lineRate n)),
                            sent := (q, f.length, f.poison) :: p1.sent }
        let ty := frameType f.bytes
        let s1 := ((s.setSub n p2).bump (aTM n 0x010) 1).bump (aTM n 0x018) f.length
        let s2 := if f.poison then s1.bump (aTM n 0x058) 1 else s1
        (s2.consumed x).captureFrame n true ty.1 ty.2

/-- FRAME_TRANSMIT. -/
def execFrameTransmit (port : Nat) (s : State) : Host.Outcome State Fault Refusal := .next (frameTransmit port s)

/-! ### Receive (R351–R353) and PFC (R352) -/

/-- XON threshold. -/
def xon : Nat := Config.xoff - 32768

/-- The ingress share of a priority changes to `v`; a lossless one crosses XOFF or falls below XON and PFC is sent. -/
def State.setShare (s : State) (n k v : Nat) : State :=
  let p := s.sub n
  let p1 := { p with ingress := NMap.set 0 p.ingress k v }
  let on := p.xoff.testBit k
  if p.lossless.testBit k && !on && v > Config.xoff then
    (s.setSub n { p1 with xoff := p.xoff + 2 ^ k }).bump (aTM n 0x060) 1
  else if on && v < xon then (s.setSub n { p1 with xoff := p.xoff - 2 ^ k }).bump (aTM n 0x060) 1
  else s.setSub n p1

/-- What is left of a share after the ingress path has taken a free amount from it (log 45). -/
def State.drainShare (s : State) (n k : Nat) : State :=
  let v := NMap.get 0 (s.sub n).ingress k
  let d := s.draw
  d.2.setShare n k (d.1.toNat % (v + 1))

/-- PFC_REFRESH: PFC is repeated while the share stays above XON. -/
def pfcRefresh (n k : Nat) (s : State) : State :=
  if !s.subUp n || k > 7 || !(s.sub n).xoff.testBit k then s
  else
    let s1 := s.drainShare n k
    if (s1.sub n).xoff.testBit k then s1.bump (aTM n 0x060) 1 else s1

/-- PFC_REFRESH. -/
def execPfcRefresh (port prio : Nat) (s : State) : Host.Outcome State Fault Refusal := .next (pfcRefresh port prio s)

/-- A pause of priority `k` for `quanta` of 512 bit times; 0 ends it. -/
def State.pause (s : State) (n k quanta : Nat) : State :=
  let p := s.sub n
  let set := if p.paused.testBit k then p.paused else p.paused + 2 ^ k
  let clear := if p.paused.testBit k then p.paused - 2 ^ k else p.paused
  if quanta = 0 then s.setSub n { p with paused := clear, pauseEnd := NMap.set 0 p.pauseEnd k 0 }
  else s.setSub n { p with paused := set, pauseEnd := NMap.set 0 p.pauseEnd k (s.now + ceilDiv (2048 * quanta) (s.lineRate n)) }

/-- PFC_PAUSE_EXPIRY: the quanta have run out. -/
def pfcPauseExpiry (n k : Nat) (s : State) : State :=
  let p := s.sub n
  if k ≤ 7 && p.paused.testBit k && s.now ≥ NMap.get 0 p.pauseEnd k then s.pause n k 0 else s

/-- PFC_PAUSE_EXPIRY. -/
def execPfcPauseExpiry (port prio : Nat) (s : State) : Host.Outcome State Fault Refusal := .next (pfcPauseExpiry port prio s)

/-- A received PFC frame, or a PAUSE, which is honoured only while no priority is lossless. -/
def State.pfcFrame (s : State) (f : EthFrame) : State :=
  f.pfc.foldl (fun s k =>
    if k.1 ≤ 7 then s.pause f.port k.1 k.2
    else if k.1 = 8 ∧ (s.sub f.port).lossless = 0 then (List.range 8).foldl (fun s j => s.pause f.port j k.2) s
    else s) (s.bump (aTM f.port 0x068) 1)

/-- An admitted cell on the port whose VLAN, radio-unit address and eAxC a frame carries (Table 16-2 order 2). -/
def State.frontCell (s : State) (f : EthFrame) : Option Nat :=
  s.cells.findSome? fun e => e.2.bind fun x =>
    let b := x.config
    if cfPort b = f.port ∧ f.etherType = 0xAEFE ∧ cfVlan b = (if f.tags = 0 then 0 else f.vlan) ∧ cfRu b = f.src
      ∧ cfEaxc b ≤ f.eaxc ∧ f.eaxc < cfEaxc b + cfAnt b then some e.1 else none

/-- The tenant queue that receives a frame (order 3). -/
def State.rxQueue (s : State) (f : EthFrame) : Option Queue :=
  let p := s.sub f.port
  if f.dst ≠ p.mac then none
  else ((List.range 64).map p.queue).find? fun x =>
    x.tenant.isSome && x.rxRing ≠ 0 && x.vlan = (if f.tags = 0 then 0 else f.vlan)

/-- The eCPRI payload of an uplink U-plane frame (message type 0): what follows its common header of four bytes (log 137). -/
def uplinkPayload (f : EthFrame) : Option (List Byte) :=
  let e := f.bytes.drop (14 + 4 * f.tags)
  if e.length ≥ 4 ∧ fieldAt e 1 1 = 0 then some (e.drop 4) else none

/-- The first rule of Table 16-2 that matches a good frame; the radio sequencer's are recorded (R416). -/
def State.classify (s : State) (f : EthFrame) : State :=
  if f.etherType = 0x88F7 ∨ (f.etherType = 0x8809 ∧ f.subtype = 0x0A) then s
  else match s.frontCell f with
    | some c => ((uplinkPayload f).map fun b => s.recordFronthaul c b).getD s
    | none => match s.rxQueue f with
      | some q => (match s.police f with
        | (s1, some bs) => s1.deliver f.port q bs
        | (s1, none) => s1)
      | none => s.bump (aTM f.port 0x040) 1

/-- Bytes of the ingress buffer that lossless headroom leaves to share. -/
def SubPort.sharedSize (p : SubPort) : Nat := 2097152 - 98304 * popCount 8 p.lossless

/-- ETHERNET_FRAME_RECEIVE. -/
def ethernetFrameReceive (f : EthFrame) (s : State) : State :=
  let n := f.port
  if !s.subUp n then s
  else if !f.fcsOk || f.length < 64 || f.length > 9216 || f.tags > 1 then s.bump (aTM n 0x030) 1
  else
    let s1 := ((s.bump (aTM n 0x020) 1).bump (aTM n 0x028) f.length).captureFrame n false f.etherType (fieldAt f.bytes (14 + 4 * f.tags) 2)
    if !f.pfc.isEmpty then s1.pfcFrame f
    else
      let k := if f.tags = 0 then 0 else f.pcp % 8
      let p := s1.sub n
      let full := p.ingress.foldl (fun a e => a + e.2) 0 + f.length > p.sharedSize
      if full && !p.lossless.testBit k then (s1.bump (aTM n 0x038) 1).drainShare n k
      else ((s1.setShare n k (NMap.get 0 p.ingress k + f.length)).classify f).drainShare n k

/-- ETHERNET_FRAME_RECEIVE. -/
def execEthernetFrameReceive (f : EthFrame) (s : State) : Host.Outcome State Fault Refusal := .next (ethernetFrameReceive f s)

/-- ETHERNET_LINK_CHANGE: the link of an enabled sub-port comes up, for which the Ethernet reference must be there (R437), or goes down. -/
def ethernetLinkChange (n : Nat) (up : Bool) (s : State) : State :=
  let p := s.sub n
  if !s.portExists n || !p.enabled || !s.pw.on.testBit 16 || (up == decide (p.link = 2)) || (up && s.pw.refLost.testBit 1) then s else s.moveLink n up

/-- ETHERNET_LINK_CHANGE. -/
def execEthernetLinkChange (port : Nat) (up : Bool) (s : State) : Host.Outcome State Fault Refusal := .next (ethernetLinkChange port up s)

end Sys2Proof.Machine
end

