-- ==== Sys2Proof/Machine/Signal.lean ====
section
/-! DEFINITION. Signal cores (14): jobs, the instruction set, faults, stalls, and the SC_ registers that act. -/
namespace Sys2Proof.Machine

/-- The cluster is present and powered. -/
def State.clusterOn (s : State) (k : Nat) : Bool := k < 8 && s.variant.radio && s.pw.on.testBit (clusterDomain k)
/-- Instruction word `i` of a cluster's cores: the library's, or what was written over it (R305). -/
def Cluster.word (c : Cluster) (i : Nat) : Word := (c.pm.lookup i).getD (Config.kernelLibrary i)
/-- SC_ counter addresses of a core and a cluster (Table 14-14). -/
def aSCC (k off : Nat) : Nat := 0x05080000 + k * 0x1000 + off

/-! ### Registers and fields -/

/-- Field bits hi … lo of an instruction word. -/
def wf (w : Word) (hi lo : Nat) : Nat := bits w.toNat hi lo
/-- A signed field of `n` bits. -/
def wfs (w : Word) (hi lo : Nat) : Int := toSigned (hi + 1 - lo) (wf w hi lo)

/-- Register `i` of a file; past its end 0. -/
def rget {n : Nat} (v : Vector Word n) (i : Nat) : Word := if h : i < n then v[i] else 0
def rset {n : Nat} (v : Vector Word n) (i : Nat) (x : Word) : Vector Word n := if h : i < n then v.set i x else v

def ScRegs.accAt (r : ScRegs) (i : Nat) : BitVec 40 × BitVec 40 := if h : i < 4 then r.acc[i] else (0, 0)
def ScRegs.setAcc (r : ScRegs) (i : Nat) (x : BitVec 40 × BitVec 40) : ScRegs := if h : i < 4 then { r with acc := r.acc.set i x } else r
def ScRegs.setD (r : ScRegs) (i : Nat) (x : Word) : ScRegs := { r with d := rset r.d i x }

/-- Real and imaginary half of a D register (Table 14-2). -/
def wre (w : Word) : Int := toSigned 16 (w.toNat % 65536)
def wim (w : Word) : Int := toSigned 16 (w.toNat / 65536)
/-- A value fits `n` signed bits. -/
def fitsIn (n : Nat) (x : Int) : Bool := -(2 ^ (n - 1)) ≤ x && x < 2 ^ (n - 1)
/-- A result out of range clamps with S, else keeps its low bits (R311). -/
def clampTo (n : Nat) (sat : Bool) (x : Int) : Int :=
  if sat then max (-(2 ^ (n - 1))) (min (2 ^ (n - 1) - 1) x) else x

/-- FLG bits set on top of others. -/
def ScRegs.flag (r : ScRegs) (bit_ : Nat) (on : Bool) : ScRegs := if on then { r with flg := r.flg ||| BitVec.ofNat 32 (2 ^ bit_) } else r

/-- A result of D width: overflow and saturation flags, Z and N (R309, R311). -/
def ScRegs.result (r : ScRegs) (rd : Nat) (x : Word) (out sat : Bool) : ScRegs :=
  let f := (r.flg &&& 0xFFFFFFFC) ||| BitVec.ofNat 32 (b2n (x == 0) + 2 * b2n x.msb)
  (({ r with flg := f }.setD rd x).flag 2 out).flag 3 (out && sat)

/-- Accumulator part with its overflow rule (R311): the part, and whether it was out of range. -/
def accPart (sat : Bool) (x : Int) : BitVec 40 × Bool := (BitVec.ofInt 40 (clampTo 40 sat x), !fitsIn 40 x)

/-- Both parts of an accumulator take exact values. -/
def ScRegs.putAcc (r : ScRegs) (i : Nat) (re im : Int) (sat : Bool) : ScRegs :=
  let a := accPart sat re
  let b := accPart sat im
  ((r.setAcc i (a.1, b.1)).flag 4 (a.2 || b.2)).flag 3 ((a.2 || b.2) && sat)

/-! ### What a word is (Tables 14-5 to 14-9) -/

/-- Number of an instruction's kind: format A by OP, M at 64 by MOP, L at 128 by LOP, F at 192 by FOP; none for an undefined code. -/
def scKind (w : Word) : Option Nat :=
  match wf w 31 30 with
  | 0 => if wf w 29 24 ≤ 0x1A then some (wf w 29 24) else none
  | 1 => if wf w 29 27 ≤ 6 then some (64 + wf w 29 27) else none
  | 2 => if wf w 29 27 ≤ 5 then some (128 + wf w 29 27) else none
  | _ => if wf w 29 26 ≤ 0xA then some (192 + wf w 29 26) else none

/-- Bits `hi … lo` are zero. -/
def wz (w : Word) (hi lo : Nat) : Bool := wf w hi lo = 0

/-- Loads of format M are well-formed: codes and an even destination for a double. -/
def macLoadsOk (w : Word) : Bool :=
  wf w 17 16 ≠ 3 && wf w 8 7 ≠ 3 && (wf w 17 16 ≠ 2 || wf w 15 12 % 2 = 0) && (wf w 8 7 ≠ 2 || wf w 6 3 % 2 = 0)

/-- A destination MOVR may write; a source it may read (R308). -/
def movrDest (cls idx : Nat) : Bool :=
  cls = 0 || (1 ≤ cls && cls ≤ 3 && idx < 8) || cls = 4 || (cls = 5 && idx < 4)
def movrSource (cls idx : Nat) : Bool :=
  cls = 0 || (1 ≤ cls && cls ≤ 3 && idx < 8) || cls = 4 || (cls = 5 && idx < 5) || (cls = 6 && idx < 4)

/-- No reserved field of a defined word is set (R308); `search` is SFMODE. -/
def scLegal (search : Bool) (k : Nat) (w : Word) : Bool :=
  if k < 64 then wz w 4 0 && ([0x0D, 0x0E, 0x0F, 0x10, 0x14, 0x16].contains k || wz w 8 5)
  else if k < 128 then
    macLoadsOk w &&
      (if k = 69 then wz w 21 18
       else if k = 68 then
        (wf w 17 16 ≠ 0 || wz w 15 9) &&
          (if search then wz w 25 25 && wz w 21 19 && (wf w 8 7 ≠ 0 || wz w 6 0)
           else wf w 8 7 = 1 && wz w 21 20 && wz w 18 18)
       else true)
  else if k = 128 ∨ k = 129 then wz w 3 0 && (wz w 26 26 || wf w 25 22 % 2 = 0)
  else if k = 130 ∨ k = 131 then wz w 26 26 && wz w 21 16
  else if k = 132 then wz w 12 0 && movrDest (wf w 26 24) (wf w 23 20) && movrSource (wf w 19 17) (wf w 16 13)
  else if k = 133 then wz w 26 22 && wz w 18 16
  else if k = 194 then wf w 25 22 < 8 && wz w 21 14
  else if k = 195 then wz w 25 14
  else if k = 197 then true
  else if k = 198 then wz w 15 4
  else if 200 ≤ k ∧ k ≤ 202 then wz w 25 5
  else wz w 25 0

/-! ### Hazards (Table 14-10) -/

/-- Accumulators a word writes. -/
def accWrites (w : Word) : Nat :=
  match scKind w with
  | some k =>
    if [0x15, 0x16, 0x17, 0x18].contains k then 2 ^ wf w 10 9
    else if 64 ≤ k ∧ k < 70 ∧ k ≠ 68 then 3 * 4 ^ wf w 26 26
    else if k = 68 then 4 ^ wf w 26 26
    else if k = 132 ∧ wf w 26 24 = 4 then 2 ^ wf w 23 22 else 0
  | none => 0

/-- Accumulators that ACCRD, ACCADD, ACCSH or MOVR reads. -/
def accReads (w : Word) : Nat :=
  match scKind w with
  | some k =>
    if k = 0x14 ∨ k = 0x16 then 2 ^ wf w 10 9
    else if k = 0x17 then 3 * 4 ^ (wf w 10 9 / 2)
    else if k = 132 ∧ wf w 19 17 = 4 then 2 ^ wf w 16 15 else 0
  | none => 0

/-- Pointers, modifiers and modes that MOVR or ADDPI writes. -/
def ptrWrites (w : Word) : Nat :=
  match scKind w with
  | some 132 => let c := wf w 26 24; if 1 ≤ c ∧ c ≤ 3 then 2 ^ (8 * (c - 1) + wf w 23 20) else 0
  | some 133 => 2 ^ wf w 21 19
  | _ => 0

/-- Pointers, modifiers and modes that an access of a word uses. -/
def ptrUses (w : Word) : Nat :=
  match scKind w with
  | some k =>
    if 64 ≤ k ∧ k < 128 then
      let x := wf w 11 10
      let y := wf w 2 1 + 4
      (if wf w 17 16 = 0 then 0 else 2 ^ x + 2 ^ (16 + x) + wf w 9 9 * 2 ^ (8 + x))
        + (if wf w 8 7 = 0 then 0 else 2 ^ y + 2 ^ (16 + y) + wf w 0 0 * 2 ^ (8 + y))
    else if k = 128 ∨ k = 129 then
      let p := wf w 21 19
      let m := wf w 18 17
      2 ^ p + (if m = 0 then 0 else 2 ^ (16 + p)) + (if m ≥ 2 then 2 ^ (8 + p) else 0)
    else 0
  | none => 0

/-- Stall cycles before a word issues. -/
def hazard (r : ScRegs) (w : Word) : Nat :=
  max (if Nat.land (accReads w) r.accNew ≠ 0 then 1 else 0)
    (if Nat.land (ptrUses w) r.ptr1 ≠ 0 then 2 else if Nat.land (ptrUses w) r.ptr2 ≠ 0 then 1 else 0)

/-! ### Memory (R301, R302, R307) -/

/-- Read `n` bytes at a data address of a core. -/
def State.scRead (s : State) (n a k : Nat) : Nat :=
  if a < 0x20000 then leNat (Memory.readN (s.sc n).x a k)
  else if a < 0x40000 then leNat (Memory.readN (s.sc n).y (a - 0x20000) k)
  else leNat (Memory.readN (s.cluster (n / 16)).shared (a - 0x400000) k)

/-- Write `k` bytes at a data address of a core. -/
def State.scWrite (s : State) (n a k v : Nat) : State :=
  let x := s.sc n
  if a < 0x20000 then s.setSc n { x with x := Memory.writeN x.x a (leBytes k v) }
  else if a < 0x40000 then s.setSc n { x with y := Memory.writeN x.y (a - 0x20000) (leBytes k v) }
  else
    let c := s.cluster (n / 16)
    s.setCluster (n / 16) { c with shared := Memory.writeN c.shared (a - 0x400000) (leBytes k v) }

def inShared (a : Nat) : Bool := 0x400000 ≤ a && a < 0x800000

/-- Fault of an access: ALIGN, ADDRESS, or BUS for one on a bus (0 load/store format, 1 X, 2 Y). -/
def accessFault (bus a k : Nat) : Option Nat :=
  if a % k ≠ 0 then some 3
  else if !(a < 0x40000 || inShared a) then some 2
  else if (bus = 1 ∧ 0x20000 ≤ a ∧ a < 0x40000) ∨ (bus = 2 ∧ a < 0x20000) then some 4
  else none

/-- Cycles a shared-memory access stalls: 6 unloaded, at most 21; how many between is a free value. -/
def State.sharedStall (s : State) (a : Nat) : Nat × State :=
  if inShared a then let d := s.draw; (6 + d.1.toNat % 16, d.2) else (0, s)

/-! ### Pointer updates (R306, Table 14-4) -/

/-- Reverse the low `w` bits of a number. -/
def revBits (w v : Nat) : Nat := (List.range w).foldl (fun a i => 2 * a + v / 2 ^ i % 2) 0

/-- P(n) updated by a modifier; none where the update faults MODIFY. -/
def ptrUpdate (l p : Word) (d : Int) : Option Word :=
  let n := l.toNat
  if n = 0 then some (BitVec.ofInt 32 (p.toNat + d))
  else if 4 ≤ n ∧ n ≤ 131072 ∧ n % 4 = 0 then
    if d.natAbs > n then none
    else
      let base : Int := (p.toNat / 2 ^ ceilLog2 n * 2 ^ ceilLog2 n : Nat)
      let q := p.toNat + d
      let q1 := if q ≥ base + n then q - n else q
      some (BitVec.ofInt 32 (if q1 < base then q1 + n else q1))
  else if n ≥ 2 ^ 31 ∧ 1 ≤ n % 32 ∧ n % 32 ≤ 16 ∧ n / 32 % 2 ^ 26 = 0 then
    if d % 4 ≠ 0 then none
    else
      let k := n % 32
      let i := p.toNat / 4 % 2 ^ k
      let e := (d / 4 % 2 ^ k).toNat
      let j := revBits k (revBits k i + revBits k e) % 2 ^ k
      some (BitVec.ofNat 32 (p.toNat - 4 * i + 4 * j))
  else none

def ScRegs.update (r : ScRegs) (i : Nat) (d : Int) : Except Nat ScRegs :=
  match ptrUpdate (rget r.l i) (rget r.p i) d with
  | some q => .ok { r with p := rset r.p i q }
  | none => .error 8

/-! ### Loops (R317) and the end of a job -/

/-- After the instruction at `pc`: the next one, levels whose last instruction it was counted down, and a stall for the back edge
of a body longer than the repeat cache. -/
def loopEnd : List (Nat × Nat × Nat) → Nat → List (Nat × Nat × Nat) × Nat × Nat
  | [], pc => ([], (pc + 1) % 16384, 0)
  | (st, en, c) :: rest, pc =>
    if en ≠ pc then ((st, en, c) :: rest, (pc + 1) % 16384, 0)
    else if c > 1 then ((st, en, c - 1) :: rest, st, if en - st ≥ 32 then 1 else 0)
    else loopEnd rest pc

/-- A job ends by a fault (R321): cause and index kept, the outputs absent, counted, reported on the path of R15. -/
def State.scFault (s : State) (n cause : Nat) : State :=
  let x := s.sc n
  let pc := (x.job.map (·.pc)).getD 0
  let k := n / 16
  (((s.setSc n { x with job := none, left := 0, fault := (cause, pc) }).bump (aSC n 0x030) 1).pulse (21 + k)).addLog
    { LogRec.none_ with cls := if cause = 9 then 6 else 8, outcome := 1, island := 176 + k, domain := clusterDomain k, flags := 2, detail := n }

/-- The job is over: nothing of its registers stays. -/
def State.scDone (s : State) (n : Nat) : State := (s.setSc n { s.sc n with job := none, left := 0 }).bump (aSC n 0x028) 1

/-- What an instruction does: state, registers, next index where it does not go on in sequence, stalls, and shared-memory stalls
among them. -/
abbrev ScOut := Except Nat (State × ScRegs × Option Nat × Nat × Nat)

/-- An instruction that changes registers alone. -/
def scRegsOnly (s : State) (r : ScRegs) : ScOut := .ok (s, r, none, 0, 0)

/-- Issue the word at the core's program counter where it is of kind `k` (R308, R320): a reserved code or field faults ILLEGAL, a
flow instruction at the end of a body FLOW; an instruction whose cycles go beyond the limit does not take effect. -/
def scStep (k : Nat) (sf : Option Bool) (body : Word → State → Nat → ScRegs → ScOut) (n : Nat) (w : Word) (s : State) : State :=
  let x := s.sc n
  match x.job with
  | none => s
  | some r =>
    if n > 127 || x.left = 0 || (s.cluster (n / 16)).word r.pc ≠ w then s
    else match scKind w with
      | none => s.scFault n 1
      | some j =>
        if j ≠ k || (sf.map (· != r.sfmode)).getD false then s
        else if !scLegal r.sfmode k w then s.scFault n 1
        else if k ≥ 193 && (r.loops.head?.map fun l => decide (l.2.1 = r.pc)) == some true then s.scFault n 6
        else match body w s n r with
          | .error e => s.scFault n e
          | .ok (s1, r1, next, stall, shared) =>
            let le := match next with
              | some i => (r1.loops, i, 0)
              | none => loopEnd r1.loops r.pc
            let cost := 1 + hazard r w + stall + le.2.2
            -- a WAITF that goes on waiting stalls (R319)
            let idle := b2n (k = 200 && next == some r.pc)
            if cost > x.left then
              (((s.setSc n { x with left := 0, pcSeen := r.pc }).bump (aSC n 0x010) x.left).bump (aSC n 0x018) (min x.left (cost - 1 + idle))).bump
                (aSC n 0x020) (min x.left shared)
            else
              let r2 := { r1 with loops := le.1, pc := le.2.1, accNew := if k = 68 && r.sfmode then 0 else accWrites w, ptr1 := ptrWrites w, ptr2 := r.ptr1 }
              let s2 := s1.setSc n { s1.sc n with job := some r2, left := x.left - cost, pcSeen := r.pc }
              let s3 := ((s2.bump (aSC n 0x010) cost).bump (aSC n 0x018) (cost - 1 + idle)).bump (aSC n 0x020) shared
              if k = 193 then s3.scDone n
              else if r1.flg.toNat.testBit 5 then
                (s3.setSc n { s3.sc n with job := some { r2 with flg := r2.flg &&& 0x1F } }).bump (aSC n 0x038) 1
              else s3

/-- Mark that the instruction saturated (bit 5 of FLG is the model's own and is taken off at once). -/
def ScRegs.counted (r : ScRegs) (sat : Bool) : ScRegs := r.flag 5 sat

/-! ### Format A (R309–R311) -/

/-- Fields of format A. -/
def fRd (w : Word) : Nat := wf w 22 19
def fRa (w : Word) : Nat := wf w 18 15
def fRb (w : Word) : Nat := wf w 14 11
def fAc (w : Word) : Nat := wf w 10 9
def fSat (w : Word) (hi : Nat) : Bool := w.toNat.testBit hi

/-- Two halves as a word: out of range by the halves' rule. -/
def packHalves (sat : Bool) (re im : Int) : Word × Bool :=
  let a := (BitVec.ofInt 16 (clampTo 16 sat re)).toNat
  let b := (BitVec.ofInt 16 (clampTo 16 sat im)).toNat
  (BitVec.ofNat 32 (a + 65536 * b), !fitsIn 16 re || !fitsIn 16 im)

/-- A word value and whether it was out of range. -/
def packWord (sat : Bool) (x : Int) : Word × Bool := (BitVec.ofInt 32 (clampTo 32 sat x), !fitsIn 32 x)

/-- An operation on two D registers: S, a, b, SH to a word and whether it was out of range. -/
def scAlu (k : Nat) (f : Bool → Word → Word → Nat → Word × Bool) (n : Nat) (w : Word) (s : State) : State :=
  scStep k none (fun w s _ r =>
    let sat := fSat w 23
    let y := f sat (rget r.d (fRa w)) (rget r.d (fRb w)) (wf w 8 5)
    scRegsOnly s ((r.result (fRd w) y.1 y.2 sat).counted (y.2 && sat))) n w s

/-- One on each half. -/
def perHalf (f : Int → Int) (sat : Bool) (a : Word) : Word × Bool := packHalves sat (f (wre a)) (f (wim a))
/-- One on matching halves. -/
def perHalf2 (f : Int → Int → Int) (sat : Bool) (a b : Word) : Word × Bool := packHalves sat (f (wre a) (wre b)) (f (wim a) (wim b))
/-- One on words. -/
def perWord2 (f : Int → Int → Int) (sat : Bool) (a b : Word) : Word × Bool := packWord sat (f a.toInt b.toInt)

/-- A complex product in Q30: a · b, or a · conj(b). -/
def cprod (conj : Bool) (a b : Word) : Int × Int :=
  if conj then (wre a * wre b + wim a * wim b, wim a * wre b - wre a * wim b)
  else (wre a * wre b - wim a * wim b, wre a * wim b + wim a * wre b)

/-- Arithmetic shift right by `k`, toward −∞. -/
def shr (x : Int) (k : Nat) : Int := x / 2 ^ k

/-- MOV. -/
def execScMov (core : Nat) (w : Word) (s : State) : Host.Outcome State Fault Refusal :=
  .next (scAlu 0x00 (fun _ a _ _ => (a, false)) core w s)
/-- CADD. -/
def execScCadd (core : Nat) (w : Word) (s : State) : Host.Outcome State Fault Refusal :=
  .next (scAlu 0x01 (fun t a b _ => perHalf2 (· + ·) t a b) core w s)
/-- CSUB. -/
def execScCsub (core : Nat) (w : Word) (s : State) : Host.Outcome State Fault Refusal :=
  .next (scAlu 0x02 (fun t a b _ => perHalf2 (· - ·) t a b) core w s)
/-- CMUL. -/
def execScCmul (core : Nat) (w : Word) (s : State) : Host.Outcome State Fault Refusal :=
  .next (scAlu 0x03 (fun t a b _ => let p := cprod false a b; packHalves t (shr p.1 15) (shr p.2 15)) core w s)
/-- CMULJ. -/
def execScCmulj (core : Nat) (w : Word) (s : State) : Host.Outcome State Fault Refusal :=
  .next (scAlu 0x04 (fun t a b _ => let p := cprod true a b; packHalves t (shr p.1 15) (shr p.2 15)) core w s)
/-- CONJ. -/
def execScConj (core : Nat) (w : Word) (s : State) : Host.Outcome State Fault Refusal :=
  .next (scAlu 0x05 (fun t a _ _ => packHalves t (wre a) (-wim a)) core w s)
/-- CNEG. -/
def execScCneg (core : Nat) (w : Word) (s : State) : Host.Outcome State Fault Refusal :=
  .next (scAlu 0x06 (fun t a _ _ => perHalf (- ·) t a) core w s)
/-- SWAP. -/
def execScSwap (core : Nat) (w : Word) (s : State) : Host.Outcome State Fault Refusal :=
  .next (scAlu 0x07 (fun t a _ _ => packHalves t (wim a) (wre a)) core w s)
/-- ADDW. -/
def execScAddw (core : Nat) (w : Word) (s : State) : Host.Outcome State Fault Refusal :=
  .next (scAlu 0x08 (fun t a b _ => perWord2 (· + ·) t a b) core w s)
/-- SUBW. -/
def execScSubw (core : Nat) (w : Word) (s : State) : Host.Outcome State Fault Refusal :=
  .next (scAlu 0x09 (fun t a b _ => perWord2 (· - ·) t a b) core w s)
/-- ANDW. -/
def execScAndw (core : Nat) (w : Word) (s : State) : Host.Outcome State Fault Refusal :=
  .next (scAlu 0x0A (fun _ a b _ => (a &&& b, false)) core w s)
/-- ORW. -/
def execScOrw (core : Nat) (w : Word) (s : State) : Host.Outcome State Fault Refusal :=
  .next (scAlu 0x0B (fun _ a b _ => (a ||| b, false)) core w s)
/-- XORW. -/
def execScXorw (core : Nat) (w : Word) (s : State) : Host.Outcome State Fault Refusal :=
  .next (scAlu 0x0C (fun _ a b _ => (a ^^^ b, false)) core w s)
/-- SHLH. -/
def execScShlh (core : Nat) (w : Word) (s : State) : Host.Outcome State Fault Refusal :=
  .next (scAlu 0x0D (fun t a _ k => perHalf (· * 2 ^ k) t a) core w s)
/-- SHRH. -/
def execScShrh (core : Nat) (w : Word) (s : State) : Host.Outcome State Fault Refusal :=
  .next (scAlu 0x0E (fun t a _ k => perHalf (shr · k) t a) core w s)
/-- SHLW. -/
def execScShlw (core : Nat) (w : Word) (s : State) : Host.Outcome State Fault Refusal :=
  .next (scAlu 0x0F (fun t a _ k => packWord t (a.toInt * 2 ^ k)) core w s)
/-- SHRW. -/
def execScShrw (core : Nat) (w : Word) (s : State) : Host.Outcome State Fault Refusal :=
  .next (scAlu 0x10 (fun t a _ k => packWord t (shr a.toInt k)) core w s)
/-- MAG2: an unsigned word, exact. -/
def execScMag2 (core : Nat) (w : Word) (s : State) : Host.Outcome State Fault Refusal :=
  .next (scAlu 0x11 (fun _ a _ _ => (BitVec.ofInt 32 (wre a * wre a + wim a * wim a), false)) core w s)
/-- MINW. -/
def execScMinw (core : Nat) (w : Word) (s : State) : Host.Outcome State Fault Refusal :=
  .next (scAlu 0x12 (fun t a b _ => perWord2 min t a b) core w s)
/-- MAXW. -/
def execScMaxw (core : Nat) (w : Word) (s : State) : Host.Outcome State Fault Refusal :=
  .next (scAlu 0x13 (fun t a b _ => perWord2 max t a b) core w s)
/-- ABSH. -/
def execScAbsh (core : Nat) (w : Word) (s : State) : Host.Outcome State Fault Refusal :=
  .next (scAlu 0x1A (fun t a _ _ => perHalf (fun x => x.natAbs) t a) core w s)

/-- SH as ACCRD and ACCSH read it: −8 to +7. -/
def fSh (w : Word) : Int := wfs w 8 5

/-- narrow (R310). -/
def narrow (x : BitVec 40) (sh : Int) : Int := shr x.toInt (15 + sh).toNat

/-- ACCRD. -/
def execScAccrd (core : Nat) (w : Word) (s : State) : Host.Outcome State Fault Refusal :=
  .next (scStep 0x14 none (fun w s _ r =>
    let a := r.accAt (fAc w)
    let sat := fSat w 23
    let y := packHalves sat (narrow a.1 (fSh w)) (narrow a.2 (fSh w))
    scRegsOnly s ((r.result (fRd w) y.1 y.2 sat).counted (y.2 && sat))) core w s)

/-- An accumulator takes new values; saturation is counted. -/
def ScRegs.accTo (r : ScRegs) (i : Nat) (re im : Int) (sat : Bool) : ScRegs :=
  (r.putAcc i re im sat).counted (sat && !(fitsIn 40 re && fitsIn 40 im))

/-- An operation on the accumulator AC. -/
def scAccOp (k : Nat) (f : Word → ScRegs → Int × Int) (n : Nat) (w : Word) (s : State) : State :=
  scStep k none (fun w s _ r => let y := f w r; scRegsOnly s (r.accTo (fAc w) y.1 y.2 (fSat w 23))) n w s

/-- A part shifted left by SH, or right by −SH. -/
def accShift (sh x : Int) : Int := if sh ≥ 0 then x * 2 ^ sh.toNat else shr x (-sh).toNat

/-- ACCCLR. -/
def execScAccclr (core : Nat) (w : Word) (s : State) : Host.Outcome State Fault Refusal := .next (scAccOp 0x15 (fun _ _ => (0, 0)) core w s)
/-- ACCSH. -/
def execScAccsh (core : Nat) (w : Word) (s : State) : Host.Outcome State Fault Refusal :=
  .next (scAccOp 0x16 (fun w r => let a := r.accAt (fAc w); (accShift (fSh w) a.1.toInt, accShift (fSh w) a.2.toInt)) core w s)
/-- ACCADD. -/
def execScAccadd (core : Nat) (w : Word) (s : State) : Host.Outcome State Fault Refusal :=
  .next (scAccOp 0x17 (fun w r =>
    let a := r.accAt (fAc w)
    let b := r.accAt (Nat.xor (fAc w) 1)
    (a.1.toInt + b.1.toInt, a.2.toInt + b.2.toInt)) core w s)
/-- ACCLD. -/
def execScAccld (core : Nat) (w : Word) (s : State) : Host.Outcome State Fault Refusal :=
  .next (scAccOp 0x18 (fun w r => let a := rget r.d (fRa w); (wre a * 32768, wim a * 32768)) core w s)

/-- CMPW sets Z and N alone. -/
def execScCmpw (core : Nat) (w : Word) (s : State) : Host.Outcome State Fault Refusal :=
  .next (scStep 0x19 none (fun w s _ r =>
    let a := rget r.d (fRa w)
    let b := rget r.d (fRb w)
    scRegsOnly s { r with flg := (r.flg &&& 0xFFFFFFFC) ||| BitVec.ofNat 32 (b2n (a == b) + 2 * b2n (decide (a.toInt < b.toInt))) }) core w s)

/-! ### Format M (R312–R316) -/

/-- A bus access of format M: address, what was read, and the pointer updated. -/
def macLoad (s : State) (n : Nat) (r : ScRegs) (bus size p : Nat) (upd : Bool) : Except Nat (Nat × Nat × ScRegs) :=
  let a := (rget r.p p).toNat
  match accessFault bus a size with
  | some e => .error e
  | none => match r.update p (if upd then (rget r.m p).toInt else size) with
    | .error e => .error e
    | .ok r1 => .ok (a, s.scRead n a size, r1)

/-- Loaded words go to D registers. -/
def ScRegs.load (r : ScRegs) (rd size v : Nat) : ScRegs :=
  let r1 := r.setD rd (BitVec.ofNat 32 v)
  if size = 8 then r1.setD (rd + 1) (BitVec.ofNat 32 (v / 2 ^ 32)) else r1

/-- D registers that both loads of a word write. -/
def loadClash (w : Word) : List Nat :=
  let regs (sel rd : Nat) : List Nat := if sel = 0 then [] else if sel = 1 then [rd] else [rd, rd + 1]
  (regs (wf w 17 16) (wf w 15 12)).filter (regs (wf w 8 7) (wf w 6 3)).contains

/-- The loads of a format M word; a register that both name takes a free value. `yLoad` false leaves the Y side to FIR. -/
def macLoads (w : Word) (s : State) (n : Nat) (r : ScRegs) (yLoad : Bool) : Except Nat (State × ScRegs × Nat) :=
  let xs := wf w 17 16
  let ys := if yLoad then wf w 8 7 else 0
  let x := if xs = 0 then .ok (0, 0, r) else macLoad s n r 1 (4 * xs) (wf w 11 10) (fSat w 9)
  match x with
  | .error e => .error e
  | .ok (ax, vx, r1) =>
    let y := if ys = 0 then .ok (0, 0, r1) else macLoad s n r1 2 (4 * ys) (wf w 2 1 + 4) (fSat w 0)
    match y with
    | .error e => .error e
    | .ok (ay, vy, r2) =>
      let r3 := if xs = 0 then r2 else r2.load (wf w 15 12) (4 * xs) vx
      let r4 := if ys = 0 then r3 else r3.load (wf w 6 3) (4 * ys) vy
      let clash := if yLoad then loadClash w else []
      let z := clash.foldl (fun (q : State × ScRegs) i => let d := q.1.draw; (d.2, q.2.setD i d.1)) (s, r4)
      let sx := if xs = 0 then (0, z.1) else z.1.sharedStall ax
      let sy := if ys = 0 then (0, sx.2) else sx.2.sharedStall ay
      .ok (sy.2, z.2, sx.1 + sy.1)

/-- The two complex products of a word: RA pair times RB pair, b conjugated or not. -/
def macProducts (w : Word) (r : ScRegs) (conj : Bool) : (Int × Int) × (Int × Int) :=
  let a := 2 * wf w 24 22
  let b := 2 * wf w 21 19
  (cprod conj (rget r.d a) (rget r.d b), cprod conj (rget r.d (a + 1)) (rget r.d (if fSat w 18 then b else b + 1)))

/-- Both accumulators of the pair take a product each, combined by `f`. -/
def ScRegs.macTo (r : ScRegs) (w : Word) (f : Int → Int → Int) (p : (Int × Int) × (Int × Int)) : ScRegs :=
  let i := 2 * wf w 26 26
  let a := r.accAt i
  let b := r.accAt (i + 1)
  let t := fSat w 25
  (r.accTo i (f a.1.toInt p.1.1) (f a.2.toInt p.1.2) t).accTo (i + 1) (f b.1.toInt p.2.1) (f b.2.toInt p.2.2) t

/-- A MAC word: accumulators from the registers as they were, then the loads (R312). -/
def scMac (k : Nat) (f : Word → ScRegs → ScRegs) (n : Nat) (w : Word) (s : State) : State :=
  scStep k none (fun w s n r =>
    match macLoads w s n r true with
    | .error e => .error e
    | .ok (s1, r1, st) =>
      let y := f w r
      .ok (s1, { r1 with acc := y.acc, flg := y.flg }, none, st, st)) n w s

/-- CMAC. -/
def execScCmac (core : Nat) (w : Word) (s : State) : Host.Outcome State Fault Refusal :=
  .next (scMac 64 (fun w r => r.macTo w (· + ·) (macProducts w r false)) core w s)
/-- CMACJ. -/
def execScCmacj (core : Nat) (w : Word) (s : State) : Host.Outcome State Fault Refusal :=
  .next (scMac 65 (fun w r => r.macTo w (· + ·) (macProducts w r true)) core w s)
/-- CMSU. -/
def execScCmsu (core : Nat) (w : Word) (s : State) : Host.Outcome State Fault Refusal :=
  .next (scMac 66 (fun w r => r.macTo w (· - ·) (macProducts w r false)) core w s)
/-- CMPY. -/
def execScCmpy (core : Nat) (w : Word) (s : State) : Host.Outcome State Fault Refusal :=
  .next (scMac 67 (fun w r => r.macTo w (fun _ p => p) (macProducts w r false)) core w s)
/-- CPOW. -/
def execScCpow (core : Nat) (w : Word) (s : State) : Host.Outcome State Fault Refusal :=
  .next (scMac 69 (fun w r =>
    let a := rget r.d (2 * wf w 24 22)
    let b := rget r.d (2 * wf w 24 22 + 1)
    r.macTo w (· + ·) (cprod true a a, cprod true b b)) core w s)
/-- NOPM: the loads alone. -/
def execScNopm (core : Nat) (w : Word) (s : State) : Host.Outcome State Fault Refusal := .next (scMac 70 (fun _ r => r) core w s)

/-- SF in FIR mode (R314): tap, delay-line move, Y load. -/
def execScSfFir (core : Nat) (w : Word) (s : State) : Host.Outcome State Fault Refusal :=
  .next (scStep 68 (some false) (fun w s n r =>
    let p := wf w 2 1 + 4
    let a := (rget r.p p).toNat
    match accessFault 2 a 4, ptrUpdate (rget r.l p) (rget r.p p) 4 with
    | some e, _ => .error e
    | none, none => .error 8
    | none, some q =>
      match accessFault 2 q.toNat 4, macLoads w s n r false, r.update p (if fSat w 0 then (rget r.m p).toInt else 4) with
      | some e, _, _ => .error e
      | none, .error e, _ => .error e
      | none, .ok _, .error e => .error e
      | none, .ok (s1, r1, st), .ok r2 =>
        let y := s.scRead n a 4
        let pr := cprod false (rget r.d (2 * wf w 24 22)) (BitVec.ofNat 32 y)
        let i := 2 * wf w 26 26
        let acc := r.accAt i
        let t := fSat w 25
        let z := if fSat w 19 then r.accTo i (acc.1.toInt - pr.1) (acc.2.toInt - pr.2) t
          else r.accTo i (acc.1.toInt + pr.1) (acc.2.toInt + pr.2) t
        let r3 := { r1 with acc := z.acc, flg := z.flg, p := rset r1.p p (rget r2.p p) }
        let clash := if wf w 17 16 = 0 then [] else loadClash w
        let c := clash.foldl (fun (q : State × ScRegs) j => let d := q.1.draw; (d.2, q.2.setD j d.1)) (s1, r3.setD (wf w 6 3) (BitVec.ofNat 32 y))
        let s2 := c.1.scWrite n q.toNat 4 y
        let sy := s2.sharedStall a
        let sw := sy.2.sharedStall q.toNat
        .ok (sw.2, c.2, none, st + sy.1 + sw.1, st + sy.1 + sw.1)) core w s)

/-- One value of a search (R315): maximum or minimum, signed or unsigned, strictly better only. -/
def ScRegs.search (r : ScRegs) (least unsigned : Bool) (v : Word) : ScRegs :=
  let key (x : Word) : Int := if unsigned then x.toNat else x.toInt
  let better := if least then key v < key r.best else key v > key r.best
  { r with best := if better then v else r.best, bidx := if better then r.icnt else r.bidx, icnt := r.icnt + 1 }

/-- SF in search mode. -/
def execScSfSearch (core : Nat) (w : Word) (s : State) : Host.Outcome State Fault Refusal :=
  .next (scStep 68 (some true) (fun w s n r =>
    match macLoads w s n r true with
    | .error e => .error e
    | .ok (s1, r1, st) =>
      let y := (r.search (fSat w 18) (fSat w 26) (rget r.d (2 * wf w 24 22))).search (fSat w 18) (fSat w 26)
        (rget r.d (2 * wf w 24 22 + 1))
      .ok (s1, { r1 with best := y.best, bidx := y.bidx, icnt := y.icnt }, none, st, st)) core w s)

/-! ### Format L (R306–R308) -/

/-- Address of a load or store and the pointer after it (Table 14-7, AM). -/
def lsAddress (w : Word) (r : ScRegs) (size : Nat) : Except Nat (Nat × ScRegs) :=
  let p := wf w 21 19
  let disp := wfs w 16 4 * size
  let m := (rget r.m p).toInt
  match wf w 18 17 with
  | 0 => .ok ((BitVec.ofInt 32 ((rget r.p p).toNat + disp)).toNat, r)
  | 1 => (r.update p disp).map fun q => ((rget r.p p).toNat, q)
  | 2 => (r.update p m).map fun q => ((rget r.p p).toNat, q)
  | _ => (r.update p m).map fun q => ((rget q.p p).toNat, q)

/-- Access size of a load or store. -/
def lsSize (w : Word) : Nat := if fSat w 26 then 8 else 4

/-- LD. -/
def execScLd (core : Nat) (w : Word) (s : State) : Host.Outcome State Fault Refusal :=
  .next (scStep 128 none (fun w s n r =>
    match lsAddress w r (lsSize w) with
    | .error e => .error e
    | .ok (a, r1) => match accessFault 0 a (lsSize w) with
      | some e => .error e
      | none =>
        let d := s.sharedStall a
        .ok (d.2, r1.load (wf w 25 22) (lsSize w) (s.scRead n a (lsSize w)), none, d.1, d.1)) core w s)

/-- ST. -/
def execScSt (core : Nat) (w : Word) (s : State) : Host.Outcome State Fault Refusal :=
  .next (scStep 129 none (fun w s n r =>
    match lsAddress w r (lsSize w) with
    | .error e => .error e
    | .ok (a, r1) => match accessFault 0 a (lsSize w) with
      | some e => .error e
      | none =>
        let rd := wf w 25 22
        let v := (rget r.d rd).toNat + 2 ^ 32 * (if lsSize w = 8 then (rget r.d (rd + 1)).toNat else 0)
        let d := s.sharedStall a
        .ok (d.2.scWrite n a (lsSize w) v, r1, none, d.1, d.1)) core w s)

/-- LDIL. -/
def execScLdil (core : Nat) (w : Word) (s : State) : Host.Outcome State Fault Refusal :=
  .next (scStep 130 none (fun w s _ r =>
    let d := rget r.d (wf w 25 22)
    scRegsOnly s (r.setD (wf w 25 22) ((d &&& 0xFFFF0000) ||| BitVec.ofNat 32 (wf w 15 0)))) core w s)

/-- LDIH. -/
def execScLdih (core : Nat) (w : Word) (s : State) : Host.Outcome State Fault Refusal :=
  .next (scStep 131 none (fun w s _ r =>
    let d := rget r.d (wf w 25 22)
    scRegsOnly s (r.setD (wf w 25 22) ((d &&& 0xFFFF) ||| BitVec.ofNat 32 (65536 * wf w 15 0)))) core w s)

/-- A value MOVR reads; an empty loop level reads a free value. -/
def movrRead (s : State) (r : ScRegs) (cls idx : Nat) : Word × State :=
  match cls with
  | 0 => (rget r.d idx, s)
  | 1 => (rget r.p idx, s)
  | 2 => (rget r.m idx, s)
  | 3 => (rget r.l idx, s)
  | 4 =>
    let a := r.accAt (idx / 4)
    let x := if idx / 2 % 2 = 0 then a.1 else a.2
    (if idx % 2 = 0 then x.setWidth 32 else BitVec.ofInt 32 (shr x.toInt 32), s)
  | 5 => (if idx = 0 then r.flg else if idx = 1 then r.best else if idx = 2 then r.bidx else if idx = 3 then r.icnt
      else BitVec.ofNat 32 (b2n r.sfmode), s)
  | _ => match r.loops.reverse[idx]? with
    | some l => (BitVec.ofNat 32 l.2.2, s)
    | none => s.draw

/-- What MOVR writes. -/
def movrWrite (r : ScRegs) (cls idx : Nat) (v : Word) : ScRegs :=
  match cls with
  | 0 => r.setD idx v
  | 1 => { r with p := rset r.p idx v }
  | 2 => { r with m := rset r.m idx v }
  | 3 => { r with l := rset r.l idx v }
  | 4 =>
    let a := r.accAt (idx / 4)
    let part (x : BitVec 40) : BitVec 40 :=
      if idx % 2 = 0 then BitVec.ofNat 40 (x.toNat / 2 ^ 32 * 2 ^ 32 + v.toNat)
      else BitVec.ofNat 40 (x.toNat % 2 ^ 32 + v.toNat % 256 * 2 ^ 32)
    r.setAcc (idx / 4) (if idx / 2 % 2 = 0 then (part a.1, a.2) else (a.1, part a.2))
  | _ => if idx = 0 then { r with flg := v &&& 0x1F } else if idx = 1 then { r with best := v } else if idx = 2 then { r with bidx := v }
      else { r with icnt := v }

/-- MOVR. -/
def execScMovr (core : Nat) (w : Word) (s : State) : Host.Outcome State Fault Refusal :=
  .next (scStep 132 none (fun w s _ r =>
    let v := movrRead s r (wf w 19 17) (wf w 16 13)
    scRegsOnly v.2 (movrWrite r (wf w 26 24) (wf w 23 20) v.1)) core w s)

/-- ADDPI. -/
def execScAddpi (core : Nat) (w : Word) (s : State) : Host.Outcome State Fault Refusal :=
  .next (scStep 133 none (fun w s _ r => (r.update (wf w 21 19) (wfs w 15 0)).map fun q => (s, q, none, 0, 0)) core w s)

/-! ### Format F (R317–R319) -/

/-- NOP. -/
def execScNop (core : Nat) (w : Word) (s : State) : Host.Outcome State Fault Refusal :=
  .next (scStep 192 none (fun _ s _ r => scRegsOnly s r) core w s)

/-- DONE: the job ends. -/
def execScDone (core : Nat) (w : Word) (s : State) : Host.Outcome State Fault Refusal :=
  .next (scStep 193 none (fun _ s _ r => .ok (s, r, some r.pc, 0, 0)) core w s)

/-- COND of BR. -/
def scCond (r : ScRegs) (c : Nat) : Bool :=
  let f := r.flg.toNat
  match c with
  | 0 => true
  | 1 => f.testBit 0
  | 2 => !f.testBit 0
  | 3 => f.testBit 1
  | 4 => !f.testBit 1
  | 5 => f.testBit 2
  | 6 => f.testBit 3
  | _ => f.testBit 4

/-- BR. -/
def execScBr (core : Nat) (w : Word) (s : State) : Host.Outcome State Fault Refusal :=
  .next (scStep 194 none (fun w s _ r =>
    let t := wf w 13 0
    if !scCond r (wf w 25 22) then scRegsOnly s r
    else match r.loops with
      | (st, en, _) :: _ => if st ≤ t ∧ t ≤ en then .ok (s, r, some t, 2, 0) else .error 6
      | [] => .ok (s, r, some t, 2, 0)) core w s)

/-- CALL. -/
def execScCall (core : Nat) (w : Word) (s : State) : Host.Outcome State Fault Refusal :=
  .next (scStep 195 none (fun w s _ r =>
    if r.stack.length ≥ 8 then .error 7
    else .ok (s, { r with stack := (r.pc + 1) % 16384 :: r.stack }, some (wf w 13 0), 2, 0)) core w s)

/-- RET. -/
def execScRet (core : Nat) (w : Word) (s : State) : Host.Outcome State Fault Refusal :=
  .next (scStep 196 none (fun _ s _ r =>
    match r.stack with
    | [] => .error 7
    | t :: rest => .ok (s, { r with stack := rest }, some t, 2, 0)) core w s)

/-- A level is pushed for a body of `n` and a count. -/
def scPush (s : State) (r : ScRegs) (n c : Nat) : ScOut :=
  if c = 0 then .ok (s, r, some ((r.pc + n + 1) % 16384), 0, 0)
  else if r.loops.length ≥ 4 then .error 5
  else if r.pc + n > 16383 then .error 6
  else .ok (s, { r with loops := (r.pc + 1, r.pc + n, c) :: r.loops }, some (r.pc + 1), 0, 0)

/-- LOOP. -/
def execScLoop (core : Nat) (w : Word) (s : State) : Host.Outcome State Fault Refusal :=
  .next (scStep 197 none (fun w s _ r => scPush s r (wf w 25 16 + 1) (wf w 15 0)) core w s)
/-- LOOPR. -/
def execScLoopr (core : Nat) (w : Word) (s : State) : Host.Outcome State Fault Refusal :=
  .next (scStep 198 none (fun w s _ r => scPush s r (wf w 25 16 + 1) ((rget r.d (wf w 3 0)).toNat % 65536)) core w s)

/-- BREAK; with no level active it faults FLOW (log 46). -/
def execScBreak (core : Nat) (w : Word) (s : State) : Host.Outcome State Fault Refusal :=
  .next (scStep 199 none (fun _ s _ r =>
    match r.loops with
    | [] => .error 6
    | (_, en, _) :: rest => .ok (s, { r with loops := rest }, some ((en + 1) % 16384), 2, 0)) core w s)

/-- WAITF: one cycle of waiting while the flag reads 0. -/
def execScWaitf (core : Nat) (w : Word) (s : State) : Host.Outcome State Fault Refusal :=
  .next (scStep 200 none (fun w s n r =>
    if (s.cluster (n / 16)).flags.getLsbD (wf w 4 0) then scRegsOnly s r else .ok (s, r, some r.pc, 0, 0)) core w s)

/-- SETF. -/
def execScSetf (core : Nat) (w : Word) (s : State) : Host.Outcome State Fault Refusal :=
  .next (scStep 201 none (fun w s n r =>
    let c := s.cluster (n / 16)
    scRegsOnly (s.setCluster (n / 16) { c with flags := c.flags ||| BitVec.ofNat 32 (2 ^ wf w 4 0) }) r) core w s)
/-- CLRF. -/
def execScClrf (core : Nat) (w : Word) (s : State) : Host.Outcome State Fault Refusal :=
  .next (scStep 202 none (fun w s n r =>
    let c := s.cluster (n / 16)
    scRegsOnly (s.setCluster (n / 16) { c with flags := c.flags &&& ~~~(BitVec.ofNat 32 (2 ^ wf w 4 0)) }) r) core w s)

/-! ### Jobs (R304, R322) -/

/-- Register state at the start of a job (Table 14-2); the library's entry `e` is instruction `e` (R305). -/
def ScRegs.start (j : Job) : ScRegs :=
  { d := Vector.replicate 16 0, acc := Vector.replicate 4 (0, 0), p := Vector.ofFn fun i => j.args.getD i.val 0,
    m := Vector.replicate 8 0, l := Vector.replicate 8 0, loops := [], stack := [], flg := 0, best := 0, bidx := 0xFFFFFFFF, icnt := 0,
    sfmode := j.mode, pc := j.entry, accNew := 0, ptr1 := 0, ptr2 := 0 }

/-- JOB_START; the flags of a job group are cleared before it (R319). -/
def jobStart (n : Nat) (j : Job) (s : State) : State :=
  let x := s.sc n
  let c := s.cluster (n / 16)
  if n < 128 && s.clusterOn (n / 16) && !x.quarantined && x.job.isNone && c.loaded && !c.halt && j.entry < 64 then
    (s.setCluster (n / 16) { c with flags := c.flags &&& ~~~j.clears }).setSc n { x with job := some (ScRegs.start j), left := j.limit, entry := j.entry }
  else s

/-- JOB_START. -/
def execJobStart (core : Nat) (j : Job) (s : State) : Host.Outcome State Fault Refusal := .next (jobStart core j s)

/-- JOB_CYCLE_LIMIT: the limit is reached before DONE. -/
def jobCycleLimit (n : Nat) (s : State) : State :=
  if (s.sc n).job.isSome ∧ (s.sc n).left = 0 then s.scFault n 9 else s

/-- JOB_CYCLE_LIMIT. -/
def execJobCycleLimit (core : Nat) (s : State) : Host.Outcome State Fault Refusal := .next (jobCycleLimit core s)

/-! ### SC_ registers that act (R305, R324) -/

/-- SC_CTL.CLEAR. -/
def execScCtlClear (core : Nat) (s : State) : Host.Outcome State Fault Refusal :=
  .next (if core < 128 ∧ s.clusterOn (core / 16) then s.clearCounters (aSC core 0) (aSC core 0x1000) else s)
/-- SC_CL_CTL.CLEAR. -/
def execScClCtlClear (cluster : Nat) (s : State) : Host.Outcome State Fault Refusal :=
  .next (if s.clusterOn cluster then s.clearCounters (aSCC cluster 0) (aSCC cluster 0x1000) else s)

/-- SC_CL_CTL.HALT; a write of 1 while a cell is started is ignored. -/
def scClHalt (k : Nat) (h : Bool) (s : State) : State :=
  if s.clusterOn k && !(h && s.anyStarted) then s.setCluster k { s.cluster k with halt := h } else s

/-- SC_CL_CTL_HALT. -/
def execScClCtlHalt (cluster : Nat) (halt : Bool) (s : State) : Host.Outcome State Fault Refusal := .next (scClHalt cluster halt s)

/-- The cluster is halted: HALT is set and every job has ended. -/
def State.clusterHalted (s : State) (k : Nat) : Bool :=
  (s.cluster k).halt && (List.range 16).all fun j => (s.sc (16 * k + j)).job.isNone

/-- A word of the program window: written to all 16 program memories of a halted cluster, else discarded and counted. -/
def scWindowWrite (k i : Nat) (v : Word) (s : State) : State :=
  if !s.clusterOn k || i ≥ 16384 then s
  else if s.clusterHalted k then
    let c := s.cluster k
    s.setCluster k { c with pm := NMap.put i v c.pm, loaded := true, replaced := true }
  else s.bump (aSCC k 0x010) 1

/-- SC_PROGRAM_WINDOW_WRITE. -/
def execScProgramWindowWrite (cluster index : Nat) (v : Word) (s : State) : Host.Outcome State Fault Refusal :=
  .next (scWindowWrite cluster index v s)

/-- SC_FAULT read: cause and index, then cleared (R10 rc). -/
def scFaultRead (n : Nat) (s : State) : State :=
  if n < 128 ∧ s.clusterOn (n / 16) then
    let f := (s.sc n).fault
    { s.setSc n { s.sc n with fault := (0, 0) } with readData := [BitVec.ofNat 32 (f.1 * 2 ^ 28 + f.2)] }
  else { s with readData := [0] }

/-- SC_FAULT_READ. -/
def execScFaultRead (core : Nat) (s : State) : Host.Outcome State Fault Refusal := .next (scFaultRead core s)

end Sys2Proof.Machine
end

