-- ==== Sys2Proof/Machine/Engines.lean ====
section
/-! DEFINITION. Waveform, detection and coding engines (15): items, FFT, mapping, LDPC, polar, PRACH. -/
namespace Sys2Proof.Machine

/-! ### Items (R326, R327) -/

/-- Engine `e` is of a kind (numbers lo … hi), present, powered and not withdrawn, and a cell is started: while none is, the queues are empty
(R325). -/
def State.engineReady (s : State) (e lo hi : Nat) : Bool :=
  lo ≤ e && e ≤ hi && s.variant.radio && s.pw.on.testBit 14 && !s.rel.engines.testBit e && s.anyStarted

/-- Status and summary are written, then the completion flag is set (R319). -/
def State.itemDone (s : State) (e : Nat) (h : DescHdr) (status summary : Nat) : State :=
  let c := s.cluster (h.flag / 32)
  { s.setCluster (h.flag / 32) { c with flags := c.flags ||| BitVec.ofNat 32 (2 ^ (h.flag % 32)) } with
    engineStatus := NMap.set (0, 0) s.engineStatus e (status, summary) }

/-- An item fails: outputs absent, counted, reported (R327). -/
def State.itemFault (s : State) (e : Nat) (h : DescHdr) (status : Nat) : State :=
  (((s.itemDone e h status 0).bump (aWE 0x060) 1).pulse 29).addLog
    { LogRec.none_ with cls := 8, outcome := 1, island := engineIsland e, domain := 14, flags := 2, detail := e }

/-- The header's fields are within Table 15-2. -/
def hdrOk (h : DescHdr) : Bool := h.cell ≤ 255 && h.sfn ≤ 1023 && h.slot ≤ 255 && h.flag ≤ 255 && h.reserved = 0

/-- Run an item: the body answers a status (2 or 3), or the state with its outputs, and the summary. -/
def runItem (e lo hi : Nat) (h : DescHdr) (ok : Bool) (body : State → Except Nat (State × Nat)) (s : State) : State :=
  if !s.engineReady e lo hi then s
  else if !(hdrOk h && ok) then s.itemFault e h 3
  else if h.memError then s.itemFault e h 2
  else match body s with
    | .error st => s.itemFault e h st
    | .ok (s1, summary) => s1.itemDone e h 1 summary

/-- An address names cluster shared memory: cluster and offset. -/
def engineShared (a : Nat) : Option (Nat × Nat) := if a / 2 ^ 39 = 1 then some (a / 2 ^ 36 % 8, a % 2 ^ 22) else none

/-- Bytes at an engine address: a range outside its memory makes the descriptor invalid, poison or a failed read a memory error. -/
def engineRead (s : State) (a n : Nat) : Except Nat (List Byte) :=
  match engineShared a with
  | some (k, o) =>
    if o + n > 4194304 then .error 3
    else if !s.clusterOn k then .error 2
    else .ok (Memory.readN (s.cluster k).shared o n)
  | none =>
    match s.obj 0 (refHandle a) with
    | none => .error 3
    | some x =>
      if refOff a + n > x.size then .error 3
      else
        let r := s.readRef 0 0 a 0 n
        if r.fail.isSome || r.poison then .error 2 else .ok r.bytes

/-- Write bytes at an engine address. -/
def engineWrite (s : State) (a : Nat) (bs : List Byte) : Except Nat State :=
  match engineShared a with
  | some (k, o) =>
    if o + bs.length > 4194304 then .error 3
    else if !s.clusterOn k then .error 2
    else let c := s.cluster k; .ok (s.setCluster k { c with shared := Memory.writeN c.shared o bs })
  | none =>
    match s.obj 0 (refHandle a) with
    | none => .error 3
    | some x =>
      if refOff a + bs.length > x.size then .error 3
      else match s.writeRef 0 0 0 a 0 bs false false with
        | (s1, none) => .ok s1
        | (_, some _) => .error 2

/-- Complex Q15 samples of bytes, and bytes of samples. -/
def toSamples : List Byte → List (Int × Int)
  | a :: b :: c :: d :: r => (toSigned 16 (leNat [a, b]), toSigned 16 (leNat [c, d])) :: toSamples r
  | _ => []
def q15 (x : Int) : Int := max (-32768) (min 32767 x)
def fromSamples (xs : List (Int × Int)) : List Byte :=
  xs.flatMap fun x => leBytes 2 (BitVec.ofInt 16 (q15 x.1)).toNat ++ leBytes 2 (BitVec.ofInt 16 (q15 x.2)).toNat

/-! ### FFT and IFFT (R329, R330) -/

/-- π with 128 fraction bits. -/
def piFix : Nat := 0x3243F6A8885A308D313198A2E03707344

/-- Terms of the cosine series from term `k` on: `t` is the present term, `x2` the square of the angle, 128 fraction bits. -/
def cosTerms : Nat → Nat → Nat → Nat → Int
  | 0, _, _, _ => 0
  | f + 1, k, t, x2 => (t : Int) - cosTerms f (k + 1) (t * x2 / 2 ^ 128 / ((2 * k + 1) * (2 * k + 2))) x2

/-- cos(2π m / n) rounded to nearest in Q15, 2¹⁵ saturated. -/
def cosQ15 (m n : Nat) : Int :=
  let x := 2 * piFix * (m % n) / n
  let c := cosTerms 60 0 (2 ^ 128) (x * x / 2 ^ 128)
  min 32767 ((2 * c * 32768 + 2 ^ 128) / 2 ^ 129)

/-- Twiddle of exponent `m` over `n`: cos and −sin, +sin for the IFFT. −sin(a) is cos(a + π/2). -/
def twiddle (inv : Bool) (m n : Nat) : Int × Int := (cosQ15 m n, cosQ15 (4 * m + (if inv then 3 * n else n)) (4 * n))

/-- A value that enters a butterfly in Q30. -/
def enter (inv : Bool) (m n : Nat) (x : Int × Int) : Int × Int :=
  if m = 0 then (x.1 * 32768, x.2 * 32768)
  else let w := twiddle inv m n; (x.1 * w.1 - x.2 * w.2, x.1 * w.2 + x.2 * w.1)

def cadd (a b : Int × Int) : Int × Int := (a.1 + b.1, a.2 + b.2)
/-- Multiply by j^k. -/
def cturn (k : Nat) (a : Int × Int) : Int × Int :=
  match k % 4 with
  | 0 => a
  | 1 => (-a.2, a.1)
  | 2 => (-a.1, -a.2)
  | _ => (a.2, -a.1)

/-- Radix kernels on values in Q30; a radix-3 stage is the first, so its inputs are exact and its products those of the kernel. -/
def kernel (inv : Bool) (r : Nat) (xs : List (Int × Int)) : List (Int × Int) :=
  let x (i : Nat) : Int × Int := xs.getD i (0, 0)
  if r = 3 then
    let k : Int := if inv then 0x6EDA else -0x6EDA
    let mul (a : Int × Int) (c s : Int) : Int × Int := (a.1 / 32768 * c - a.2 / 32768 * s, a.1 / 32768 * s + a.2 / 32768 * c)
    [cadd (x 0) (cadd (x 1) (x 2)),
     cadd (x 0) (cadd (mul (x 1) (-0x4000) k) (mul (x 2) (-0x4000) (-k))),
     cadd (x 0) (cadd (mul (x 1) (-0x4000) (-k)) (mul (x 2) (-0x4000) k))]
  else
    -- W_r^(pq) is a power of j: j^(−pq·4/r), or its conjugate
    (List.range r).map fun p => (List.range r).foldl (fun a q =>
      cadd a (cturn ((if inv then p * q else 3 * p * q) * (4 / r)) (x q))) (0, 0)

/-- Cut a list into pieces of `n`. -/
def pieces {α : Type} : Nat → Nat → List α → List (List α)
  | 0, _, _ => []
  | f + 1, n, xs => if xs.isEmpty then [] else xs.take n :: pieces f n (xs.drop n)

/-- Narrow once: floor(v / 2^(15 + s)), saturated; counts the parts that saturated. -/
def fftNarrow (sh : Nat) (v : Int × Int) : (Int × Int) × Nat :=
  let a := v.1 / 2 ^ (15 + sh)
  let b := v.2 / 2 ^ (15 + sh)
  ((q15 a, q15 b), b2n (a ≠ q15 a) + b2n (b ≠ q15 b))

/-- Combine `r` blocks of one length into one block, with the stage's shift: output k + L p. -/
def combineBlocks (inv : Bool) (r sh : Nat) (bs : List (List (Int × Int))) : List (Int × Int) × Nat :=
  let len := (bs.headD []).length
  let cols := (List.range len).map fun k =>
    (kernel inv r ((List.range r).map fun q => enter inv (q * k) (r * len) ((bs.getD q []).getD k (0, 0)))).map (fftNarrow sh)
  ((List.range r).flatMap fun p => cols.map fun c => ((c.map Prod.fst).getD p (0, 0)),
   cols.foldl (fun a c => c.foldl (fun a y => a + y.2) a) 0)

/-- Largest magnitude of any part. -/
def peakOf (xs : List (Int × Int)) : Nat := xs.foldl (fun a x => max a (max x.1.natAbs x.2.natAbs)) 0

/-- Stages in order over blocks: radix, fixed shift where one is given; gives the block, BEXP and saturations. -/
def runStages (inv : Bool) : List (Nat × Option Nat) → List (List (Int × Int)) → Nat → Nat → List (Int × Int) × Nat × Nat
  | [], bs, e, n => (bs.flatten, e, n)
  | (r, fixed) :: rest, bs, e, n =>
    let g := if r = 2 then 2 else 3
    let sh := fixed.getD (bitLen (peakOf bs.flatten) + g - 15)
    let done := (pieces bs.length r bs).map (combineBlocks inv r sh)
    runStages inv rest (done.map Prod.fst) (e + sh) (n + done.foldl (fun a d => a + d.2) 0)

/-- The stage plan of a size (R329). -/
def stagePlan (n : Nat) : List Nat :=
  let t := if n % 3 = 0 then n / 3 else n
  let b := bitLen t - 1
  (if n % 3 = 0 then [3] else []) ++ List.replicate (b / 2) 4 ++ (if b % 2 = 1 then [2] else [])

/-- Digit-reversed order: decimate by the last stage's radix first. -/
def digitReverse : List Nat → List (Int × Int) → List (Int × Int)
  | [], xs => xs
  | r :: rs, xs => (List.range r).flatMap fun q =>
      digitReverse rs ((List.range (xs.length / r)).map fun i => xs.getD (r * i + q) (0, 0))

/-- A transform of one symbol: output, BEXP, saturations. -/
def transform (inv : Bool) (fixed : Option Nat) (xs : List (Int × Int)) : List (Int × Int) × Nat × Nat :=
  let plan := stagePlan xs.length
  let st := (List.range plan.length).map fun j => (plan.getD j 2, fixed.map fun v => v / 16 ^ j % 16)
  runStages inv st ((digitReverse plan.reverse xs).map fun x => [x]) 0 0

/-- Sizes of Table 15-3. -/
def fftSize (code : Nat) : Nat := if code ≤ 5 then 128 * 2 ^ code else if code = 6 then 1536 else 3072

def fftOk (d : FftDesc) : Bool :=
  d.size ≤ 7 && d.flags < 4 && d.cp ≤ fftSize d.size / 4 && 1 ≤ d.symbols && d.symbols ≤ 14 && d.nsc % 2 = 0
    && d.nsc ≤ fftSize d.size && (d.flags.testBit 1 || d.schedule = 0)

/-- One symbol of a descriptor: samples out, BEXP, saturations (Table 15-3: bin −N_sc/2 + i at index i of the kept ones). -/
def fftSymbol (d : FftDesc) (xs : List (Int × Int)) : List (Int × Int) × Nat × Nat :=
  let n := fftSize d.size
  let inv := d.flags.testBit 0
  let fixed := if d.flags.testBit 1 then some d.schedule else none
  let half := d.nsc / 2
  if inv then
    -- the upper half of the placed subcarriers are bins 0 … N_sc/2 − 1, the lower half bins N − N_sc/2 … N − 1
    let bins := xs.drop half ++ List.replicate (n - d.nsc) (0, 0) ++ xs.take half
    let y := transform true fixed bins
    (y.1.drop (n - d.cp) ++ y.1, y.2)
  else
    let y := transform false fixed (xs.drop d.cp)
    (y.1.drop (n - half) ++ y.1.take half, y.2)

/-- The symbols of an item. -/
def fftBody (d : FftDesc) (s : State) : Except Nat (State × Nat) :=
  let n := fftSize d.size
  let inv := d.flags.testBit 0
  let per := if inv then d.nsc else d.cp + n
  match engineRead s d.input (4 * per * d.symbols) with
  | .error e => .error e
  | .ok bs =>
    let ys := ((List.range d.symbols).map fun i => toSamples ((bs.drop (4 * per * i)).take (4 * per))).map (fftSymbol d)
    match engineWrite s d.output (ys.flatMap fun y => fromSamples y.1) with
    | .error e => .error e
    | .ok s1 => match engineWrite s1 d.exponents (ys.map fun y => BitVec.ofNat 8 y.2.1) with
      | .error e => .error e
      | .ok s2 => .ok ((s2.bump (aWE 0x010) d.symbols).bump (aWE 0x018) (ys.foldl (fun a y => a + y.2.2) 0),
          ys.countP fun y => y.2.2 ≠ 0)

/-- FFT_IFFT. -/
def execFftIfft (engine : Nat) (d : FftDesc) (s : State) : Host.Outcome State Fault Refusal :=
  .next (runItem engine 0 15 d.hdr (fftOk d) (fftBody d) s)

/-! ### Bit strings in memory (log 47) -/

def itemBits (bs : List Byte) : List Bool :=
  bs.flatMap fun b => (List.range 8).map fun i => b.getLsbD (if Config.msbFirst then 7 - i else i)
def bytesOfBits (xs : List Bool) : List Byte :=
  (pieces xs.length 8 xs).map fun p => BitVec.ofNat 8 ((List.range 8).foldl
    (fun a i => a + b2n (p.getD i false) * 2 ^ (if Config.msbFirst then 7 - i else i)) 0)

/-! ### Mapping and demapping (R331–R333) -/

/-- Bits per element of a modulation code. -/
def qmOf (m : Nat) : Nat := ([0, 1, 1, 2, 4, 6, 8, 10] : List Nat).getD m 0

/-- Amplitude of one axis by TS 38.211 clause 5.1 (log 48): sign bit first, then the bits that fold the axis. -/
def axisLevel : List Bool → Int
  | [] => 1
  | [b] => if b then -1 else 1
  | b :: rest => (if b then -1 else 1) * (2 ^ rest.length - axisLevel rest)

/-- Bits of one axis of a label: those at even (odd) places. -/
def axisBits (odd : Bool) (label : List Bool) : List Bool :=
  ((List.range label.length).filter fun i => i % 2 = b2n odd).map fun i => label.getD i false

/-- The point of a label at a step (R332), before the π/2 rotation. -/
def pointOf (m : Nat) (step : Int) (label : List Bool) : Int × Int :=
  if m ≤ 2 then let v := if label.headD false then -step else step; (q15 v, q15 v)
  else (q15 (step * axisLevel (axisBits false label)), q15 (step * axisLevel (axisBits true label)))

/-- Entries of a constellation map (Table 15-5): (first, count, modulation, step); none for one not allowed. -/
def mapEntries (bs : List Byte) : Option (List (Nat × Nat × Nat × Int)) :=
  let es := (pieces bs.length 8 bs).map fun p => (fieldAt p 0 2, fieldAt p 2 2, fieldAt p 4 1, toSigned 16 (fieldAt p 6 2), fieldAt p 5 1)
  let ok := es.all fun e => 1 ≤ e.2.1 && e.2.1 ≤ 3300 && e.2.2.1 ≤ 7 && e.2.2.2.2 = 0
  let rising := (es.zip (es.drop 1)).all fun p => p.1.1 + p.1.2.1 ≤ p.2.1
  if ok && rising then some (es.map fun e => (e.1, e.2.1, e.2.2.1, e.2.2.2.1)) else none

/-- Elements of a map: (subcarrier, index within the allocation, modulation, step). -/
def mapElements (es : List (Nat × Nat × Nat × Int)) : List (Nat × Nat × Nat × Int) :=
  es.flatMap fun e => if e.2.2.1 = 0 then [] else (List.range e.2.1).map fun i => (e.1 + i, i, e.2.2.1, e.2.2.2)

/-- Points of the elements from the coded bits in order. -/
def mapPoints : List (Nat × Nat × Nat × Int) → List Bool → List (Nat × (Int × Int))
  | [], _ => []
  | e :: rest, bs =>
    let q := qmOf e.2.2.1
    let p := pointOf e.2.2.1 e.2.2.2 (bs.take q)
    (e.1, if e.2.2.1 = 1 ∧ e.2.1 % 2 = 1 then (q15 (-p.2), p.1) else p) :: mapPoints rest (bs.drop q)

def mapOk (d : MapDesc) : Bool := d.symbol ≤ 13 && d.llrScale ≤ 15

/-- The map of a descriptor. -/
def readMap (d : MapDesc) (s : State) : Except Nat (List (Nat × Nat × Nat × Int)) :=
  match engineRead s d.map (8 * d.entries) with
  | .error e => .error e
  | .ok bs => match mapEntries bs with
    | some es => .ok (mapElements es)
    | none => .error 3

/-- Points written to their subcarriers, in order. -/
def putPoints (out : Nat) : List (Nat × (Int × Int)) → State → Except Nat State
  | [], s => .ok s
  | p :: rest, s => match engineWrite s (out + 4 * p.1) (fromSamples [p.2]) with
    | .ok t => putPoints out rest t
    | .error e => .error e

/-- Map: the coded bits' points go to their subcarriers; other elements keep their contents. -/
def mapBody (d : MapDesc) (s : State) : Except Nat (State × Nat) :=
  match readMap d s with
  | .error e => .error e
  | .ok els => match engineRead s d.input (ceilDiv (els.foldl (fun a e => a + qmOf e.2.2.1) 0) 8) with
    | .error e => .error e
    | .ok bs =>
      (putPoints d.output (mapPoints els (itemBits bs)) s).map fun s1 => (s1, els.length)

/-- MAP. -/
def execMap (engine : Nat) (d : MapDesc) (s : State) : Host.Outcome State Fault Refusal :=
  .next (runItem engine 30 33 d.hdr (mapOk d) (mapBody d) s)

/-- Labels of a modulation, by number. -/
def labels (q : Nat) : List (List Bool) := (List.range (2 ^ q)).map fun v => (List.range q).map fun i => v.testBit i

/-- Squared distance in Q30. -/
def dist2 (a b : Int × Int) : Nat := ((a.1 - b.1) * (a.1 - b.1) + (a.2 - b.2) * (a.2 - b.2)).toNat

/-- Least of a list; 0 for none. -/
def leastOf : List Nat → Nat
  | [] => 0
  | x :: r => r.foldl min x

/-- Soft bits of one element (R333), its distance to the nearest point, and the energies of the nearest points. -/
def softBits (m : Nat) (step : Int) (w : Nat) (y : Int × Int) : List Int × Nat × List Nat :=
  let q := qmOf m
  let pts := (labels q).map fun l => (l, pointOf m step l)
  let d := pts.map fun p => (p.1, dist2 y p.2, dist2 p.2 (0, 0))
  let least := leastOf (d.map (·.2.1))
  let side (i : Nat) (v : Bool) : Nat := leastOf ((d.filter fun p => p.1.getD i false == v).map (·.2.1))
  ((List.range q).map fun i => max (-127) (min 127 (((side i true : Int) - side i false) * w / 2 ^ 32)), least,
   (d.filter fun p => p.2.1 = least).map (·.2.2))

/-- One element demapped: its sample and its weight read, π/2-BPSK's odd elements turned back. -/
def demapOne (d : MapDesc) (s : State) (e : Nat × Nat × Nat × Int) : Except Nat (List Int × Nat × List Nat) :=
  match engineRead s (d.input + 4 * e.1) 4, engineRead s (d.weights + (if d.weightMode then 2 * e.1 else 0)) 2 with
  | .ok yb, .ok wb =>
    let y := (toSamples yb).headD (0, 0)
    let z := if e.2.2.1 = 1 ∧ e.2.1 % 2 = 1 then (y.2, -y.1) else y
    .ok (softBits e.2.2.1 e.2.2.2 (leNat wb) z)
  | .error x, _ => .error x
  | _, .error x => .error x

/-- Demap: soft bits of the elements in order, and the EVM sums; where nearest points tie with different energies, the second sum
is a free value. -/
def demapBody (d : MapDesc) (s : State) : Except Nat (State × Nat) :=
  match readMap d s with
  | .error e => .error e
  | .ok els =>
    match els.mapM (demapOne d s) with
    | .error e => .error e
    | .ok rs =>
      let llr := rs.flatMap fun r => r.1.map fun v => BitVec.ofInt 8 v
      let err := rs.foldl (fun a r => a + r.2.1) 0
      let tie := rs.any fun r => r.2.2.any (· ≠ r.2.2.headD 0)
      let f := s.draw
      let energy := if tie then f.1.toNat else rs.foldl (fun a r => a + r.2.2.headD 0) 0
      match engineWrite f.2 d.output llr with
      | .error e => .error e
      | .ok s1 => (engineWrite s1 d.evmSums (leBytes 8 err ++ leBytes 8 energy)).map fun s2 => (s2, els.length)

/-- DEMAP. -/
def execDemap (engine : Nat) (d : MapDesc) (s : State) : Host.Outcome State Fault Refusal :=
  .next (runItem engine 30 33 d.hdr (mapOk d) (demapBody d) s)

/-! ### CRC and rate matching (TS 38.212 clauses 5.1 and 5.4.2, log 48) -/

/-- Remainder of bits, most significant first, over a generator of `n` bits. -/
def crcRem (n poly : Nat) (bs : List Bool) : Nat :=
  bs.foldl (fun r b =>
    let top := r.testBit (n - 1)
    let r1 := r * 2 % 2 ^ n
    if top != b then Nat.xor r1 poly else r1) 0

/-- Generators: (bits, polynomial) of CRC24B, CRC24A, CRC16, CRC24C, CRC11, CRC6. -/
def crcPoly (k : Nat) : Nat × Nat :=
  ([(24, 0x800063), (24, 0x864CFB), (16, 0x1021), (24, 0xB2B117), (11, 0x621), (6, 0x21)] : List (Nat × Nat)).getD k (24, 0)

/-- CRC bits of a string, and whether a string that ends in its CRC passes. -/
def crcBits (k : Nat) (bs : List Bool) : List Bool :=
  let p := crcPoly k
  let r := crcRem p.1 p.2 bs
  (List.range p.1).map fun i => r.testBit (p.1 - 1 - i)
def crcOk (k : Nat) (bs : List Bool) : Bool := let p := crcPoly k; crcRem p.1 p.2 bs = 0

/-- Information columns, all columns and rows of a base graph. -/
def bgInfo (bg : Nat) : Nat := if bg = 1 then 22 else 10
def bgCols (bg : Nat) : Nat := if bg = 1 then 68 else 52
def bgRows (bg : Nat) : Nat := if bg = 1 then 46 else 42

/-- Start of a redundancy version in the circular buffer. -/
def rvStart (d : LdpcDesc) : Nat :=
  let num := if d.bg = 1 then ([0, 17, 33, 56] : List Nat).getD d.rv 0 else ([0, 13, 25, 43] : List Nat).getD d.rv 0
  num * d.ncb / ((bgCols d.bg - 2) * d.z) * d.z

/-- A place of the circular buffer holds a filler bit. -/
def isFiller (d : LdpcDesc) (p : Nat) : Bool := d.k - d.filler - 2 * d.z ≤ p && p < d.k - 2 * d.z

/-- Places of the circular buffer in the order they are read out. -/
def rvPlaces (d : LdpcDesc) : List Nat :=
  ((List.range d.ncb).map fun j => (rvStart d + j) % d.ncb).filter fun p => !isFiller d p

/-- Place of each rate-matched bit, bit interleaving undone. -/
def ratePlaces (d : LdpcDesc) : List Nat :=
  let a := rvPlaces d
  (List.range d.e).map fun n => a.getD ((n % d.qm * (d.e / d.qm) + n / d.qm) % a.length) 0

/-- Lifting sizes. -/
def liftingOk (z : Nat) : Bool :=
  z ≤ 384 && ([2, 3, 5, 7, 9, 11, 13, 15].any fun a => (List.range 8).any fun j => a * 2 ^ j = z)

def ldpcOk (d : LdpcDesc) : Bool :=
  (d.bg = 1 || d.bg = 2) && liftingOk d.z && d.k = bgInfo d.bg * d.z && d.filler < d.k - 2 * d.z && d.e > 0
    && [1, 2, 4, 6, 8, 10].contains d.qm && d.e % d.qm = 0 && d.rv ≤ 3 && 0 < d.ncb && d.ncb ≤ (bgCols d.bg - 2) * d.z && d.crcType ≤ 2
    && !(rvPlaces d).isEmpty

/-! ### LDPC decoding (R334, R335) -/

def sat7 (x : Int) : Int := max (-127) (min 127 x)
def sat10 (x : Int) : Int := max (-512) (min 511 x)

/-- Edges of a row's check `j`: variable numbers in column order. -/
def checkVars (bg z row j : Nat) : List Nat :=
  (List.range (bgCols bg)).filterMap fun c => (Config.baseGraph bg z row c).map fun sh => c * z + (j + sh) % z

/-- One check (R334): new messages for its variables, from L and the old messages. -/
def checkNode (q : List Int) : List Int :=
  let mags := q.map fun v => min v.natAbs 127
  let m1 := leastOf mags
  let at_ := (mags.findIdx? (· = m1)).getD 0
  let m2 := leastOf ((List.range mags.length).filterMap fun i => if i = at_ then none else mags[i]?)
  let sgn (v : Int) : Int := if v < 0 then -1 else 1
  let p := q.foldl (fun a v => a * sgn v) 1
  (List.range q.length).map fun i =>
    let mag := if i = at_ then m2 else m1
    sgn (q.getD i 0) * p * ((mag - 1 : Nat) : Int)

/-- A decoder's posterior values by variable and messages by row × Z + check: (variable order) lists. -/
abbrev LdpcState := NMap Int × NMap (List Int)

/-- Process one check. -/
def decodeCheck (d : LdpcDesc) (st : LdpcState) (row j : Nat) : LdpcState :=
  let vs := checkVars d.bg d.z row j
  let old := NMap.get [] st.2 (row * d.z + j)
  let q := (List.range vs.length).map fun i => sat10 (NMap.get 0 st.1 (vs.getD i 0) - old.getD i 0)
  let new := checkNode q
  ((List.range vs.length).foldl (fun l i => NMap.set 0 l (vs.getD i 0) (sat10 (q.getD i 0 + new.getD i 0))) st.1,
   NMap.put (row * d.z + j) new st.2)

/-- One iteration: rows in order, the Z checks of each. -/
def decodeIteration (d : LdpcDesc) (st : LdpcState) : LdpcState :=
  (List.range (bgRows d.bg)).foldl (fun st r => (List.range d.z).foldl (fun st j => decodeCheck d st r j) st) st

/-- Hard decision of a variable: true is bit 1. -/
def hardBit (st : LdpcState) (v : Nat) : Bool := decide (NMap.get 0 st.1 v < 0)

/-- Every parity check is satisfied. -/
def allChecks (d : LdpcDesc) (st : LdpcState) : Bool :=
  (List.range (bgRows d.bg)).all fun r => (List.range d.z).all fun j =>
    (checkVars d.bg d.z r j).foldl (fun a v => a != hardBit st v) false == false

/-- Iterate until the checks hold or the cap: state, iterations, whether they hold. -/
def decodeLoop (d : LdpcDesc) : Nat → LdpcState → Nat → LdpcState × Nat × Bool
  | 0, st, n => (st, n, false)
  | f + 1, st, n =>
    let st1 := decodeIteration d st
    if allChecks d st1 then (st1, n + 1, true) else decodeLoop d f st1 (n + 1)

/-- New LLRs in the circular buffer; repeated bits add, saturating. -/
def dematch (d : LdpcDesc) (llr : List Int) : NMap Int :=
  ((ratePlaces d).zip llr).foldl (fun m p => NMap.set 0 m p.1 (sat7 (NMap.get 0 m p.1 + p.2))) []

def bytesSigned (bs : List Byte) : List Int := bs.map fun b => b.toInt

/-- LDPC decode: dematch, combine, write back, decode, check the CRC. -/
def ldpcDecodeBody (d : LdpcDesc) (s : State) : Except Nat (State × Nat) :=
  match engineRead s d.input d.e with
  | .error e => .error e
  | .ok bs =>
    let new := dematch d (bytesSigned bs)
    match (if d.combine then engineRead s d.harq d.ncb else .ok []) with
    | .error e => .error e
    | .ok hb =>
      let old := bytesSigned hb
      let buf := (List.range d.ncb).map fun p => sat7 (NMap.get 0 new p + old.getD p 0)
      match (if d.writeback then engineWrite s d.harq (buf.map fun v => BitVec.ofInt 8 v) else .ok s) with
      | .error e => .error e
      | .ok s1 =>
        let put (m : NMap Int) (p : Nat) (v : Int) : NMap Int := NMap.set 0 m (2 * d.z + p) v
        let l0 := (List.range d.ncb).foldl (fun m p => put m p (buf.getD p 0)) []
        let l1 := (List.range d.filler).foldl (fun m i => put m (d.k - d.filler - 2 * d.z + i) 127) l0
        let r := decodeLoop d d.maxIter (l1, []) 0
        let info := (List.range (d.k - d.filler)).map (hardBit r.1)
        let pass := r.2.2 && crcOk d.crcType info
        match engineWrite s1 d.output (bytesOfBits info) with
        | .error e => .error e
        | .ok s2 =>
          let s3 := (s2.bump (aWE 0x020) 1).bump (aWE 0x028) r.2.1
          .ok (if pass then s3 else s3.bump (aWE 0x030) 1, r.2.1 + 128 * b2n pass)

/-- LDPC_DECODE. -/
def execLdpcDecode (engine : Nat) (d : LdpcDesc) (s : State) : Host.Outcome State Fault Refusal :=
  .next (runItem engine 16 23 d.hdr (ldpcOk d && decide (1 ≤ d.maxIter ∧ d.maxIter ≤ 25)) (ldpcDecodeBody d) s)

/-! ### LDPC encoding (R336) -/

/-- LDPC encode: CRC attached, coded, rate matched, interleaved. The summary is not stated: a free value. -/
def ldpcEncodeBody (d : LdpcDesc) (s : State) : Except Nat (State × Nat) :=
  let t := if d.tbCrc then d.crcType else 0
  let crc := (crcPoly t).1
  let n := d.k - d.filler - crc
  match engineRead s d.input (ceilDiv n 8) with
  | .error e => .error e
  | .ok bs =>
    let info := (itemBits bs).take n
    let sys := info ++ crcBits t info ++ List.replicate d.filler false
    let code := (sys ++ Config.ldpcParity d.bg d.z sys).drop (2 * d.z)
    let out := (ratePlaces d).map fun p => code.getD p false
    let f := s.draw
    (engineWrite f.2 d.output (bytesOfBits out)).map fun s1 => (s1, f.1.toNat % 2 ^ 24)

/-- LDPC_ENCODE. -/
def execLdpcEncode (engine : Nat) (d : LdpcDesc) (s : State) : Host.Outcome State Fault Refusal :=
  .next (runItem engine 24 27 d.hdr (ldpcOk d && decide ((crcPoly (if d.tbCrc then d.crcType else 0)).1 < d.k - d.filler)) (ldpcEncodeBody d) s)

/-! ### Polar coding (R337) -/

def polarOk (d : PolarDesc) : Bool :=
  32 ≤ d.n && d.n ≤ (if d.uplink then 1024 else 512) && 2 ^ (bitLen d.n - 1) = d.n && 0 < d.k && d.k ≤ d.n && d.e > 0
    && (if d.uplink then d.crcBits = 11 || d.crcBits = 6 else d.crcBits = 24) && d.crcBits < d.k

/-- CRC code of a polar descriptor. -/
def polarCrc (d : PolarDesc) : Nat := if d.crcBits = 24 then 3 else if d.crcBits = 11 then 4 else 5

/-- Bits a polar CRC covers: on the downlink 24 ones come first (TS 38.212 clause 7.3.2, log 48). -/
def polarSpan (d : PolarDesc) (bs : List Bool) : List Bool := if d.uplink then bs else List.replicate 24 true ++ bs

def polarNums (d : PolarDesc) : List Nat := [b2n d.uplink, d.n, d.k, d.e, d.crcBits]

/-- Polar encode: K bits with their CRC, coded and rate matched to E bits. -/
def polarEncodeBody (d : PolarDesc) (s : State) : Except Nat (State × Nat) :=
  match engineRead s d.input (ceilDiv (d.k - d.crcBits) 8) with
  | .error e => .error e
  | .ok bs =>
    let info := (itemBits bs).take (d.k - d.crcBits)
    let out := Config.polarEncode (polarNums d) (info ++ crcBits (polarCrc d) (polarSpan d info))
    let f := s.draw
    (engineWrite f.2 d.output (bytesOfBits (out.take d.e))).map fun s1 => (s1.bump (aWE 0x038) 1, f.1.toNat % 2 ^ 24)

/-- POLAR_ENCODE. -/
def execPolarEncode (engine : Nat) (d : PolarDesc) (s : State) : Host.Outcome State Fault Refusal :=
  .next (runItem engine 28 29 d.hdr (polarOk d) (polarEncodeBody d) s)

/-- The path with the smallest metric, the lower list index on ties. -/
def bestPath : List (List Bool × Nat) → Option (List Bool × Nat)
  | [] => none
  | p :: r => match bestPath r with
    | none => some p
    | some q => if q.2 < p.2 then some q else some p

/-- Polar decode: the best final path that passes the CRC; with none, the best path and a failure, shown by a summary that is not 0. -/
def polarDecodeBody (d : PolarDesc) (s : State) : Except Nat (State × Nat) :=
  match engineRead s d.input d.e with
  | .error e => .error e
  | .ok bs =>
    let paths := Config.polarPaths ((polarNums d) ++ [d.list]) (bytesSigned bs)
    let good := bestPath (paths.filter fun p => crcOk (polarCrc d) (polarSpan d p.1))
    let bits_ := (((good <|> bestPath paths).map Prod.fst).getD []).take (d.k - d.crcBits)
    let f := s.draw
    match engineWrite f.2 d.output (bytesOfBits bits_) with
    | .error e => .error e
    | .ok s1 =>
      let s2 := s1.bump (aWE 0x038) 1
      .ok (if good.isSome then (s2, 0) else (s2.bump (aWE 0x040) 1, f.1.toNat % 255 + 1))

/-- POLAR_DECODE. -/
def execPolarDecode (engine : Nat) (d : PolarDesc) (s : State) : Host.Outcome State Fault Refusal :=
  .next (runItem engine 28 29 d.hdr (polarOk d && [1, 2, 4, 8].contains d.list) (polarDecodeBody d) s)

/-! ### PRACH detection (R338, R339) -/

def prachOk (d : PrachDesc) : Bool :=
  (d.lra = 839 || d.lra = 139) && !d.roots.isEmpty && d.roots.length ≤ 64 && d.ncs ≤ d.lra && 1 ≤ d.antennas && d.antennas ≤ 16
    && 1 ≤ d.repetitions && d.restricted ≤ 2 && d.deltaF > 0 && d.mu ≤ 2

/-- Zones of a root: how many and where each starts; unrestricted sets hold ⌊L / N_CS⌋. -/
def prachZones (d : PrachDesc) (u : Nat) : List Nat :=
  let n := if d.ncs = 0 then 1 else if d.restricted = 0 then d.lra / d.ncs else Config.prachCount d.lra u d.ncs d.restricted
  (List.range n).map fun v => Config.prachZone d.lra u d.ncs d.restricted v

/-- Positions of a zone. -/
def prachPositions (d : PrachDesc) (start : Nat) : List Nat :=
  (List.range (if d.ncs = 0 then d.lra else d.ncs)).map fun i => (start + i) % d.lra

/-- Peak of a zone's powers and its position within the zone, the lowest on ties. -/
def zonePeak (ps : List Nat) : Nat × Nat :=
  let m := ps.foldl max 0
  (m, (ps.findIdx? (· = m)).getD 0)

/-- peak > THR × sum / count, THR in 0.1 dB, exactly. -/
def exceeds (thr peak sum count : Nat) : Bool := (peak * count) ^ 100 > 10 ^ thr * sum ^ 100

/-- Detected preambles: (index, position in the zone, peak, sum and count of the noise mean). -/
def prachDetect (d : PrachDesc) (input : List Byte) : List (Nat × Nat × Nat × Nat × Nat) :=
  let p (u n : Nat) : Nat := Config.prachPower input d.lra u n
  let all := d.roots.flatMap fun u => (List.range d.lra).map (p u)
  let zones := d.roots.flatMap fun u => (prachZones d u).map fun z => (prachPositions d z).map (p u)
  let n1 := (all.foldl (· + ·) 0, all.length)
  let peaks := zones.map zonePeak
  let cand (k : Nat × Nat) : Bool := exceeds d.thr k.1 n1.1 n1.2
  let quiet := ((zones.zip peaks).filter fun z => !cand z.2).flatMap Prod.fst
  let n2 := if quiet.isEmpty then n1 else (quiet.foldl (· + ·) 0, quiet.length)
  ((List.range peaks.length).zip peaks).filterMap fun z =>
    if cand z.2 && exceeds d.thr z.2.1 n2.1 n2.2 && z.1 < 64 then some (z.1, z.2.2, z.2.1, n2.1, n2.2) else none

/-- Timing advance of a position (R339). -/
def timingAdvance (d : PrachDesc) (pos : Nat) : Nat :=
  let num := pos * 1920000 * 2 ^ d.mu
  let den := d.lra * d.deltaF
  (2 * num + den) / (2 * den)

/-- The item's slot is one of its cell whose uplink is not processed, PRACH occasions included (R294). -/
def State.slotUnheard (s : State) (h : DescHdr) : Bool :=
  match s.cell h.cell with
  | some x => x.noUplink && x.sfn = h.sfn && x.slot = h.slot
  | none => false

/-- PRACH: the detections wait for the occasion's RACH.indication; in a slot whose uplink is not processed nothing is detected (R294). -/
def prachBody (d : PrachDesc) (s : State) : Except Nat (State × Nat) :=
  match engineRead s d.input (4 * d.lra * d.antennas * d.repetitions) with
  | .error e => .error e
  | .ok bs =>
    let found := if s.slotUnheard d.hdr then [] else prachDetect d bs
    let item (f : Nat × Nat × Nat × Nat × Nat) : List Nat :=
      [d.hdr.cell, d.hdr.sfn, d.hdr.slot, f.1, timingAdvance d f.2.1, (BitVec.ofInt 32 (Config.deciBel f.2.2.1 1)).toNat,
       (BitVec.ofInt 32 (Config.deciBel (f.2.2.1 * f.2.2.2.2) f.2.2.2.1)).toNat]
    let s1 := match s.cell d.hdr.cell with
      | some x => s.setCell d.hdr.cell (some { x with rach := x.rach ++ found.map item })
      | none => s
    let f := s1.draw
    .ok ((f.2.bump (aWE 0x048) 1).bump (aWE 0x050) found.length, f.1.toNat % 2 ^ 24)

/-- PRACH. -/
def execPrach (engine : Nat) (d : PrachDesc) (s : State) : Host.Outcome State Fault Refusal :=
  .next (runItem engine 34 35 d.hdr (prachOk d) (prachBody d) s)

/-! ### WE_CTL (R348) -/

/-- WE_CTL.CLEAR. -/
def execWeCtlClear (s : State) : Host.Outcome State Fault Refusal :=
  .next (if s.pw.on.testBit 14 then s.clearCounters (aWE 0x010) (aWE 0x1000) else s)

end Sys2Proof.Machine
end

