-- ==== Sys2Proof/Machine/Events.lean ====
section
/-! DEFINITION. The event controller: inputs, offering, claims and completions (18). -/
namespace Sys2Proof.Machine

/-- THRESH as it acts: values above 8 act as 8 (Table 18-5). -/
def State.threshold (s : State) (t : Nat) : Nat := min 8 (NMap.get 0 s.ev.thresh t)

/-- Source `n` is offered to target `t` (R379, R383). -/
def State.offered (s : State) (t n : Nat) : Bool :=
  let x := s.src n
  x.pending && x.owner.isNone && x.mask.testBit t && decide (s.threshold t ≤ x.prio) && !s.ev.disable

/-- The offered source with the highest priority, the lowest number among equals; 0 for none (R380). -/
def State.claimable (s : State) (t : Nat) : Nat :=
  (((List.range 256).filter (s.offered t)).foldl (fun (best : Option (Nat × Nat)) n =>
    match best with
    | some (b, p) => if p < (s.src n).prio then some (n, (s.src n).prio) else some (b, p)
    | none => some (n, (s.src n).prio)) none).elim 0 Prod.fst

/-- A target's interrupt line (R379). -/
def State.line (s : State) (t : Nat) : Bool := (List.range 256).any (s.offered t)

/-- The source stops being active; a level source is sampled again (R381). -/
def State.completeSource (s : State) (n : Nat) : State :=
  let x := { s.src n with owner := none }
  s.setSrc n (if sourceLevel n then x.sample else x)

/-- Every source a restarted target owns is completed, without a count (R384). -/
def State.completeOwned (s : State) (t : Nat) : State :=
  (List.range 256).foldl (fun s n => if (s.src n).owner = some t then s.completeSource n else s) s

/-- EVENT_SOURCE_INPUT (R378, R382). -/
def execEventSourceInput (source : Nat) (high : Bool) (s : State) : Host.Outcome State Fault Refusal :=
  .next (s.drive source high)

/-- EV_CLAIM (R380): the read's data is the source or the spurious number. -/
def execEvClaim (target : Nat) (s : State) : Host.Outcome State Fault Refusal :=
  if target ≥ 12 then .next s
  else
    let n := s.claimable target
    let s1 := { s with readData := [BitVec.ofNat 32 n] }
    .next (if n = 0 then s1.bump (aEV 0x10) 1
           else s1.setSrc n { s1.src n with pending := false, owner := some target })

/-- EV_COMPLETE (R381). -/
def execEvComplete (target : Nat) (v : Word) (s : State) : Host.Outcome State Fault Refusal :=
  let n := v.toNat % 256
  if target ≥ 12 ∨ n = 0 then .next s
  else if (s.src n).owner = some target then .next (s.completeSource n)
  else .next (s.bump (aEV 0x08) 1)

/-- EV_CTL.CLEAR (R386). -/
def execEvCtlClear (s : State) : Host.Outcome State Fault Refusal :=
  .next (s.clearCounters (aEV 0) (aEV 0x1000))

/-- EV_CTL.DISABLE (R383). -/
def execEvCtlDisable (on : Bool) (s : State) : Host.Outcome State Fault Refusal :=
  .next { s with ev := { s.ev with disable := on } }

end Sys2Proof.Machine
end

