-- ==== Sys2Proof/Machine/Session.lean ====
section
/-! DEFINITION. The session opcodes of Steward (02): HELLO, CAPS, CREDIT_QUERY and NOP. -/
namespace Sys2Proof.Machine

/-! ### HELLO (R41) -/

/-- Version of the firmware that runs (Table 2-10). -/
def State.fwVersion (s : State) : Nat := if s.st.run = 0 then (s.st.slots[0]).version else (s.st.slots[1]).version

/-- A context of the tenant is open. -/
def State.anyOpen (s : State) (t : Nat) : Bool := (List.range 64).any fun k => (s.ctx t k).st ≠ .closed

/-- Agreed version of a packet's entry. -/
def State.agreed (s : State) (e : Entry) (t : Nat) : Nat := if e = .mgmt then s.mgmtVersion else (s.fn t).version

/-- HELLO offered major 0. -/
def checkHello (offer : Nat) (_ : State) (_ : Cmd) : Option Fail := if offer / 16 = 0 then some (stVersion, []) else none

/-- HELLO's agreement takes effect when it is accepted; its result is what holds then (R41, Table 2-10). -/
def helloAccepted (offer : Nat) (s : State) (c : Cmd) : State :=
  let locked := c.entry ≠ .mgmt && s.anyOpen c.tenant
  let v := if locked then s.agreed c.entry c.tenant else if offer = 0x10 then 0x10 else 0x11
  let s1 := if c.entry = .mgmt then { s with mgmtVersion := v } else s.setFn c.tenant { s.fn c.tenant with version := v }
  s1.setCmd { c with result := leBytes 1 v ++ leBytes 1 0x11 ++ leBytes 1 1 ++ leBytes 1 (b2n locked) ++ leBytes 4 s.fwVersion }

/-- HELLO completes with the result of its acceptance. -/
def runHello (s : State) (c : Cmd) : State := s.ok c.id c.result

/-- HELLO. -/
def execOpHello (id : Nat) (s : State) : Host.Outcome State Fault Refusal := .next (runCoreless 0x0001 (fun _ _ => none) runHello id s)

/-! ### CAPS (R43, R44) -/

/-- Mask of the numbers below `n` that a test selects. -/
def maskOf (n : Nat) (p : Nat → Bool) : Nat := (List.range n).foldl (fun m i => if p i then m + 2 ^ i else m) 0

/-- Quarantined matrix cores. -/
def State.coreQuarantine (s : State) : Nat := maskOf s.variant.cores fun k => (s.core k).quarantined

/-- Unit quarantine mask (R43). -/
def State.unitQuarantine (s : State) : Nat :=
  b2n (s.coreQuarantine % 2 ^ 32 ≠ 0) + 2 * b2n (s.coreQuarantine / 2 ^ 32 ≠ 0)
    + 8 * b2n (s.variant.radio && ((List.range 128).any (fun n => (s.sc n).quarantined) || s.rel.engines ≠ 0))

/-- The capability block (Table 2-11). -/
def State.capBlock (s : State) : List Byte :=
  let table := s.variant.sizeTable s.cluCapacity
  let masks := 8 * ceilDiv s.variant.cores 64
  leBytes 4 1 ++ leBytes 4 (64 + 8 * table.length + 2 * masks) ++ leBytes 2 1 ++ leBytes 2 table.length ++ leBytes 4 0
    ++ leBytes 8 s.variant.presence ++ leBytes 8 s.unitQuarantine ++ leBytes 32 0
    ++ table.flatMap (fun e => leBytes 4 e.1 ++ leBytes 4 e.2)
    ++ leBytes masks (2 ^ s.variant.cores - 1) ++ leBytes masks s.coreQuarantine

/-- A buffer's alignment of 64 B (R461); there is no buffer on the management port. -/
def bufferOk (c : Cmd) (o : Nat) : Option Fail := if c.entry ≠ .mgmt ∧ c.p o 8 % 64 ≠ 0 then failWith stShape 0x0F else none

def checkCaps (_ : State) (c : Cmd) : Option Fail := bufferOk c 0

/-- What CAPS, QUARANTINE_QUERY deliver is taken at acceptance (R43, R406). -/
def capsAccepted (s : State) (c : Cmd) : State := s.setCmd { c with trailer := s.capBlock }

/-- A block goes to the host buffer on entries P and V; on entry M it follows the record (R38). -/
def State.writeBlock (s : State) (c : Cmd) (iova : Nat) (bs : List Byte) : State :=
  if c.entry = .mgmt then s.setCmd { c with trailer := bs } else s.dmaWrite c.fn iova bs false

/-- CAPS writes the block. -/
def runCaps (s : State) (c : Cmd) : State :=
  (s.writeBlock c (c.p 0 8) c.trailer).ok c.id (leBytes 4 c.trailer.length ++ leBytes 4 (crc32c c.trailer))

/-- CAPS. -/
def execOpCaps (id : Nat) (s : State) : Host.Outcome State Fault Refusal := .next (runCoreless 0x0002 checkCaps runCaps id s)

/-! ### CREDIT_QUERY, NOP (R45) -/

/-- Bytes of the packets submitted and not accepted. -/
def Fn.unaccepted (f : Fn) : Nat := f.submitted.foldl (fun a p => if p.bad then a else a + p.bytes.length) 0

/-- CREDIT_QUERY: window credit and accept mark now. -/
def runCreditQuery (s : State) (c : Cmd) : State :=
  let f := s.fn c.tenant
  s.ok c.id (leBytes 4 (65536 - f.unaccepted) ++ leBytes 2 f.mark)

/-- CREDIT_QUERY. -/
def execOpCreditQuery (id : Nat) (s : State) : Host.Outcome State Fault Refusal :=
  .next (runCoreless 0x0003 (fun _ _ => none) runCreditQuery id s)

/-- NOP does nothing beyond its waits and signals. -/
def runNop (s : State) (c : Cmd) : State := s.ok c.id []

/-- NOP. -/
def execOpNop (id : Nat) (s : State) : Host.Outcome State Fault Refusal := .next (runCoreless 0x0004 (fun _ _ => none) runNop id s)

end Sys2Proof.Machine
end

