-- ==== Sys2Proof/Machine/Reliability.lean ====
section
/-! DEFINITION. The reliability opcodes (19): the error log, forced checking, scrubbing, injection, the quarantine record; and the
watchdogs of Table 19-8 that no other file holds. -/
namespace Sys2Proof.Machine

/-! ### ERROR_LOG_READ (R402) -/

/-- The 64 bytes of a log record (Table 19-5). -/
def logBytes (r : LogRec) : List Byte :=
  leBytes 8 r.seq ++ leBytes 8 r.time ++ leBytes 1 r.cls ++ leBytes 1 r.outcome ++ leBytes 2 r.island ++ leBytes 1 r.domain
    ++ leBytes 1 r.tenant ++ leBytes 1 r.ctx ++ leBytes 1 r.flags ++ leBytes 2 r.opcode ++ leBytes 2 r.tag ++ leBytes 2 r.status
    ++ leBytes 2 0 ++ leBytes 8 r.address ++ leBytes 4 r.count ++ leBytes 4 r.detail ++ leBytes 16 0

/-- A record as a virtual function sees it: island and domain zero. Its address is a reference: a physical address stands only in
records of no tenant. -/
def LogRec.forTenant (r : LogRec) : LogRec := { r with island := 0, domain := 0 }

/-- First sequence wanted: 0 means the oldest record held, or where none is the next one. -/
def elFirst (s : State) (c : Cmd) : Nat :=
  if c.p 0 8 ≠ 0 then c.p 0 8 else match s.rel.log.getLast? with
  | some r => r.seq
  | none => s.rel.nextSeq

def resvErrorLogRead (_ : State) (c : Cmd) : Bool := zeroAt c.params 10 6 && zeroAt c.params 24 8 && (c.entry ≠ .mgmt || c.p 16 8 = 0)

def checkErrorLogRead (_ : State) (c : Cmd) : Option Fail :=
  bufferOk c 16 <|> firstFail [need (1 ≤ c.p 8 2 && c.p 8 2 ≤ (if c.entry = .mgmt then 16 else 256)) stShape 0xA0]

/-- The records ERROR_LOG_READ returns, in sequence order; on entry V those of the reading tenant. -/
def elRecords (s : State) (c : Cmd) : List LogRec :=
  let own (r : LogRec) : Bool := elFirst s c ≤ r.seq && (c.entry ≠ .vf || r.tenant = c.tenant)
  ((s.rel.log.reverse.filter own).take (c.p 8 2)).map fun r => if c.entry = .vf then r.forTenant else r

/-- The next sequence not yet returned: behind the last one returned while more may follow, else behind the newest. -/
def elNext (s : State) (c : Cmd) (rs : List LogRec) : Nat :=
  match rs.getLast? with
  | some r => if rs.length = c.p 8 2 then r.seq + 1 else s.rel.nextSeq
  | none => max (elFirst s c) s.rel.nextSeq

def runErrorLogRead (s : State) (c : Cmd) : State :=
  let rs := elRecords s c
  (s.writeBlock c (c.p 16 8) (rs.flatMap logBytes)).ok c.id
    (leBytes 2 rs.length ++ leBytes 2 0 ++ leBytes 4 (min s.rel.lost (elFirst s c - 1)) ++ leBytes 8 (elNext s c rs))

/-- ERROR_LOG_READ. -/
def execOpErrorLogRead (id : Nat) (s : State) : Host.Outcome State Fault Refusal :=
  .next (runCoreless 0x8001 checkErrorLogRead runErrorLogRead id s)

/-! ### CHECK_CONFIG (R403) -/

def resvCheckConfig (_ : State) (c : Cmd) : Bool := zeroAt c.params 4 12
def checkCheckConfig (_ : State) (c : Cmd) : Option Fail := firstFail [need (c.p 2 2 ≤ 168) stShape 0xA0]

/-- CHECK_CONFIG: FORCE and the patrol-scrub period. -/
def runCheckConfig (s : State) (c : Cmd) : State :=
  let h := if c.p 2 2 = 0 then 24 else c.p 2 2
  { s with rel := { s.rel with force := c.p 0 2, period := h } }.ok c.id (leBytes 2 (c.p 0 2) ++ leBytes 2 h)

/-- CHECK_CONFIG. -/
def execOpCheckConfig (id : Nat) (s : State) : Host.Outcome State Fault Refusal := .next (runCoreless 0x8002 checkCheckConfig runCheckConfig id s)

/-! ### SCRUB (R400, R404) -/

/-- Dies named: bit 0 east, bit 1 west; 0 means every present die. -/
def scrubDies (s : State) (c : Cmd) : Nat := if c.p 0 1 = 0 then (if s.variant.west then 3 else 1) else c.p 0 1

def resvScrub (_ : State) (c : Cmd) : Bool := c.p 0 1 < 4 && zeroAt c.params 1 15
def checkScrub (s : State) (c : Cmd) : Option Fail := firstFail [need (s.variant.west || !(c.p 0 1).testBit 1) stShape 0xA1]

/-- Controllers of the named dies with a failed channel (four channels each). -/
def scrubFailed (s : State) (dies : Nat) : List Nat :=
  (List.range 32).filter fun m => dies.testBit (m / 16) && (List.range 4).any fun i => NMap.get false s.rel.channels (4 * m + i)

/-- Lines with an injected error on the named dies: tenant, handle, line, kind. -/
def scrubLines (s : State) (dies : Nat) : List (Nat × Nat × Nat × Nat) :=
  (s.rel.dram.map fun e => (e.1 / 2 ^ 64, e.1 / 2 ^ 34 % 2 ^ 30, e.1 % 2 ^ 34, e.2)).filter fun e =>
    match s.obj e.1 e.2.1 with
    | some o => dies.testBit (o.channel e.2.2.1 / 64) && !NMap.get false s.rel.channels (o.channel e.2.2.1)
    | none => false

/-- SCRUB reads every line of the trained channels. The errors it meets are the injected ones; with every part failed the spec names
no status: a free value (log 4). -/
def runScrub (s : State) (c : Cmd) : State :=
  let dies := scrubDies s c
  let bad := scrubFailed s dies
  let lines := scrubLines s dies
  let s1 := lines.foldl (fun s e => patrolScrub e.1 e.2.1 e.2.2.1 .clean s) s
  let d := s1.draw
  let count (k : Nat) : Nat := lines.countP fun e => e.2.2.2 = k
  let parts := 16 * popCount 2 dies
  let res := leBytes 4 (bad.foldl (fun m i => m + 2 ^ i) 0) ++ leBytes 2 (if s.variant.west then 32 else 16) ++ leBytes 2 0
    ++ leBytes 4 (count 1) ++ leBytes 4 (count 2)
  if bad.isEmpty then s1.ok c.id res
  else if bad.length < parts then s1.finish c.id stPartial res
  else d.2.finish c.id (d.1.toNat % 65536) res

/-- SCRUB. -/
def execOpScrub (id : Nat) (s : State) : Host.Outcome State Fault Refusal := .next (runCoreless 0x8003 checkScrub runScrub id s)

/-! ### INJECT (R405, Table 19-6) -/

def inKind (c : Cmd) : Nat := c.p 0 1
def inUnit (c : Cmd) : Nat := c.p 2 2
def inAddr (c : Cmd) : Nat := c.p 8 8
/-- The kind names a core. -/
def inCore (c : Cmd) : Bool := [1, 2, 5, 6, 7].contains (inKind c)
/-- The kind names a DRAM line. -/
def inDram (c : Cmd) : Bool := inKind c = 3 || inKind c = 4

/-- Reserved fields of INJECT: its kinds are 0x01 to 0x09 (Table 19-6), and a core number above the core count is a reserved value (R6, R8). -/
def resvInject (s : State) (c : Cmd) : Bool :=
  zeroAt c.params 5 3 && zeroAt c.params 16 16 && 1 ≤ inKind c && inKind c ≤ 9 && (!inCore c || inUnit c < s.variant.cores)

/-- The fields are those of Table 19-6. -/
def inFields (c : Cmd) : Bool :=
  (inKind c < 5 || c.p 1 1 ≠ 0)
    && (if inCore c then true else if inKind c = 8 then decide (inUnit c < 8) else inUnit c = 0)
    && (if inDram c then decide (c.p 4 1 < 16) else c.p 4 1 = 0)
    && (if inDram c then true else if inKind c ≤ 2 then decide (inAddr c < 0x200000) else inAddr c = 0)

/-- The unit is present, the reference names a T2 line that its tenant holds. -/
def inHeld (s : State) (c : Cmd) : Bool :=
  if inCore c then true
  else if inKind c = 8 then s.variant.fabric
  else if inDram c then
    match s.obj (c.p 4 1) (refHandle (inAddr c)) with
    | some o => o.home = 2 && refOff (inAddr c) < o.size
    | none => false
  else true

def checkInject (s : State) (c : Cmd) : Option Fail :=
  firstFail
    [ need (inFields c) stShape 0xA0,
      need (inHeld s c) stShape 0xA1,
      need (!(s.anyStarted && ((inCore c && s.radioCore (inUnit c)) || (inDram c && c.p 4 1 = 0)))) stNoResources 0x40 ]

/-- INJECT arms the fault; the paths of an actual one then find it. -/
def runInject (s : State) (c : Cmd) : State :=
  let x := s.core (inUnit c)
  let n := c.p 1 1
  let key := c.p 4 1 * 2 ^ 64 + refHandle (inAddr c) * 2 ^ 34 + refOff (inAddr c) / 64
  let s1 := match inKind c with
    | 1 => s.setCore (inUnit c) { x with scratchErr := NMap.set 0 x.scratchErr (inAddr c) 1 }
    | 2 => s.setCore (inUnit c) { x with scratchErr := NMap.set 0 x.scratchErr (inAddr c) 2 }
    | 3 => { s with rel := { s.rel with dram := NMap.set 0 s.rel.dram key 1 } }
    | 4 => { s with rel := { s.rel with dram := NMap.set 0 s.rel.dram key 2 } }
    | 5 => s.setCore (inUnit c) { x with inject := (n, x.inject.2) }
    | 6 => s.setCore (inUnit c) { x with inject := (x.inject.1, n, x.inject.2.2) }
    | 7 => s.setCore (inUnit c) { x with inject := (x.inject.1, x.inject.2.1, n) }
    | 8 => { s with rel := { s.rel with wfPoison := NMap.set 0 s.rel.wfPoison (inUnit c) n } }
    | _ => { s with rel := { s.rel with pciePoison := n } }
  s1.ok c.id []

/-- INJECT. -/
def execOpInject (id : Nat) (s : State) : Host.Outcome State Fault Refusal := .next (runCoreless 0x8004 checkInject runInject id s)

/-! ### QUARANTINE_QUERY (R406) -/

/-- The quarantine record (Table 19-7). -/
def State.quarantineRecord (s : State) : List Byte :=
  let bad := (List.range 128).filter fun ch => NMap.get false s.rel.channels ch
  leBytes 8 s.coreQuarantine ++ leBytes 8 (maskOf s.variant.cores fun k => (s.core k).suspect)
    ++ leBytes 16 (maskOf 128 fun n => (s.sc n).quarantined) ++ leBytes 8 s.rel.engines
    ++ leBytes 4 (maskOf 32 fun m => bad.any fun ch => ch / 4 = m) ++ leBytes 2 bad.length ++ leBytes 2 0
    ++ leBytes 8 s.rel.events ++ leBytes 8 0

def resvQuarantineQuery (_ : State) (c : Cmd) : Bool := zeroAt c.params 8 8 && (c.entry ≠ .mgmt || c.p 0 8 = 0)
def checkQuarantineQuery (_ : State) (c : Cmd) : Option Fail := bufferOk c 0

/-- The record is taken when the packet is accepted. -/
def quarantineAccepted (s : State) (c : Cmd) : State := s.setCmd { c with trailer := s.quarantineRecord }

def runQuarantineQuery (s : State) (c : Cmd) : State := (s.writeBlock c (c.p 0 8) c.trailer).ok c.id []

/-- QUARANTINE_QUERY. -/
def execOpQuarantineQuery (id : Nat) (s : State) : Host.Outcome State Fault Refusal :=
  .next (runCoreless 0x8005 checkQuarantineQuery runQuarantineQuery id s)

/-! ### Watchdogs (R18, R407, R408) -/

/-- Steward's firmware runs. -/
def State.stewardRuns (s : State) : Bool := (match s.pw.boot with | .running => true | _ => false) && s.st.hot.isNone

/-- CLERK_WATCHDOG: Steward restarts a Clerk, whose domain runs on; its island controllers latch reports meanwhile (R18). The
watchdogs pause during a hot restart (R455). -/
def clerkWatchdog (d : Nat) (s : State) : State :=
  if s.stewardRuns && s.variant.domainPresent d && s.pw.on.testBit d && (NMap.get none s.rel.clerkDown d).isNone then
    { s with rel := { s.rel with clerkDown := NMap.set none s.rel.clerkDown d (some ([], [])) } }.logRecord
      { LogRec.none_ with cls := 9, outcome := 0, island := 221, domain := d }
  else s

/-- CLERK_WATCHDOG. -/
def execClerkWatchdog (domain : Nat) (s : State) : Host.Outcome State Fault Refusal := .next (clerkWatchdog domain s)

/-- CONTROL_CORE_WATCHDOG: a cluster's control core restarts; the events it owns are completed (R384). -/
def controlCoreWatchdog (k : Nat) (s : State) : State :=
  if s.stewardRuns && s.clusterOn k then
    (s.completeOwned (4 + k)).logRecord
      { LogRec.none_ with cls := 6, outcome := 0, island := 176 + k, domain := clusterDomain k, flags := 2, detail := k }
  else s

/-- CONTROL_CORE_WATCHDOG. -/
def execControlCoreWatchdog (cluster : Nat) (s : State) : Host.Outcome State Fault Refusal := .next (controlCoreWatchdog cluster s)

/-- The packet Steward core `k` interprets: the k-th of the granted packets of its classes. -/
def State.interpreted (s : State) (k : Nat) : Option Cmd :=
  (s.cmds.filter fun c => stewardOp c.opcode && c.stage = .granted && !s.stewardHeld c)[k]?

/-- STEWARD_WATCHDOG: a Steward core restarts; its packet ends with NO_RESOURCES 0x0F and has changed nothing, a HELLO is completed. -/
def stewardWatchdog (k : Nat) (s : State) : State :=
  if k < 4 && s.stewardRuns then
    let s1 := (s.completeOwned k).logRecord { LogRec.none_ with cls := 9, outcome := 0, island := 219 + k / 2, domain := 18 }
    match s.interpreted k with
    | some c => if c.opcode = 0x0001 then s1.ok c.id c.result else s1.finish c.id stNoResources [0x0F]
    | none => s1
  else s

/-- STEWARD_WATCHDOG. -/
def execStewardWatchdog (core : Nat) (s : State) : Host.Outcome State Fault Refusal := .next (stewardWatchdog core s)

end Sys2Proof.Machine
end

