-- ==== Sys2Proof/Machine/Power.lean ====
section
/-! DEFINITION. Power, clocks, start-up and resets (21), POWER_POLICY, the resets of the host link (R64), configuration requests and
device reads of host memory (R67). -/
namespace Sys2Proof.Machine

def aPW (off : Nat) : Nat := 0x0A000000 + off

/-! ### Module reset (R428, R435) -/

/-- Module reset: every RAM state goes to its reset value; the flash stays. What is not the module's stays too: the commands that
wait, host memory, the messages sent, the PERST# land, and the model's own counts. -/
def State.resetModule (s : State) : State :=
  let flash := { Steward.init with slots := s.st.slots, active := s.st.active, security := s.st.security, sigIndex := s.st.sigIndex }
  let r := State.resetFor s.variant flash
  { r with pending := s.pending, free := s.free, nextId := s.nextId, readData := s.readData, host := s.host, hostPoison := s.hostPoison,
           mctp := s.mctp, pw := { r.pw with perst := s.pw.perst } }

/-- A trip starts a module reset at once. -/
def State.trip (s : State) : State := match s.pw.boot with
  | .reset => s
  | _ => s.resetModule

/-- RESET_TRIP: VIN below 34.0 V. -/
def execResetTrip (s : State) : Host.Outcome State Fault Refusal := .next s.trip

/-- OVERVOLTAGE_TRIP: VIN above 53.0 V. -/
def execOvervoltageTrip (s : State) : Host.Outcome State Fault Refusal := .next s.trip

/-- THERMAL_TRIP: a die (0 east, 1 west, 2 hub) at 108 °C. -/
def execThermalTrip (die : Nat) (s : State) : Host.Outcome State Fault Refusal :=
  .next (if die < 3 ∧ !(die = 1 ∧ !s.variant.west) then s.trip else s)

/-- MODULE_RESET: the reset that POWER_POLICY or FW_ACTIVATE has set for 10 ms later. -/
def execModuleReset (s : State) : Host.Outcome State Fault Refusal :=
  .next (match s.pw.resetAt with
    | some t => if s.now ≥ t then s.resetModule else s
    | none => s)

/-! ### Start-up (R429–R431, R450) -/

/-- The boot ROM starts a slot: it verifies and its security version is permitted. -/
def State.bootable (s : State) (k : Nat) : Bool :=
  let x := if k = 0 then s.st.slots[0] else s.st.slots[1]
  x.sound && s.st.security ≤ x.security

/-- INPUT_VALID: VIN rises through 40.0 V. Domain 18 comes up, the straps are sampled, the boot ROM chooses a slot; where none
verifies, or the module record does not, it serves the recovery set. -/
def inputValid (o : BootObs) (s : State) : State :=
  match s.pw.boot with
  | .reset =>
    let a := s.st.active
    let run := if s.bootable a then some a else if s.bootable (1 - a) then some (1 - a) else none
    let ok := run.isSome && o.recordOk
    let fell := ok && run ≠ some a
    let s1 := { s with
      pw := { s.pw with boot := if ok then .starting else .recovery, validAt := s.now, on := 2 ^ 18,
                        slotStrap := o.slotStrap % 64, maddr := o.maddr % 8, faultReleased := false }
      st := { s.st with run := run.getD 0, fallback := fell } }
    if fell then s1.logRecord { LogRec.none_ with cls := 8, outcome := 0, island := 219, domain := 18 } else s1
  | _ => s

/-- INPUT_VALID. -/
def execInputValid (o : BootObs) (s : State) : Host.Outcome State Fault Refusal := .next (inputValid o s)

/-- SECURITY rises to the running image's security version (R454). -/
def State.raiseSecurity (s : State) : State :=
  let x := if s.st.run = 0 then s.st.slots[0] else s.st.slots[1]
  { s with st := { s.st with security := max s.st.security x.security } }

/-- Order in which start-up powers the domains on: parents first (Table 21-4). -/
def startOrder : List Nat := [18, 19, 8, 9, 10, 11, 0, 1, 2, 3, 4, 5, 6, 7, 12, 13, 14, 15, 16, 17]

/-- STARTUP_COMPLETE: every domain of the variant is on and tested, FAULT_N is released. -/
def startupComplete (t : SelfTest) (s : State) : State :=
  match s.pw.boot with
  | .starting =>
    let s1 := (startOrder.filter s.variant.domainPresent).foldl (fun s d => s.powerUp t d) s
    ({ s1 with pw := { s1.pw with boot := .running, faultReleased := true } }).raiseSecurity
  | _ => s

/-- STARTUP_COMPLETE. -/
def execStartupComplete (t : SelfTest) (s : State) : Host.Outcome State Fault Refusal := .next (startupComplete t s)

/-- The later of input-valid + 180 ms and PERST# release + 100 ms has come (R430). -/
def State.windowsDue (s : State) : Bool :=
  (match s.pw.boot with | .running => true | _ => false) && !s.pw.perst && s.now ≥ s.pw.validAt + msec 180 && s.now ≥ s.pw.perstAt + msec 100

/-- WINDOW_READY: the windows accept packets; the link is in L0 unless it is lost. -/
def windowReady (s : State) : State :=
  if s.windowsDue ∧ !s.pw.refLost.testBit 0 then
    { s with pw := { s.pw with ready := true }, link := { s.link with up := s.link.up || s.link.lostAt.isNone } }
  else s

/-- WINDOW_READY. -/
def execWindowReady (s : State) : Host.Outcome State Fault Refusal := .next (windowReady s)

/-! ### Brown-out and throttling (R425–R427, R434) -/

/-- BROWNOUT_WARNING: VIN falls through 38.0 V. Before readiness start-up stops; else the cores outside the radio-eligible set run at
1.05 GHz, once per episode with notice 0x30 and a count. -/
def brownoutWarning (tenMv : Nat) (s : State) : State :=
  match s.pw.boot with
  | .reset => s
  | .starting => s.resetModule
  | .recovery => s.resetModule
  | .running =>
    match s.pw.brown with
    | some (t, low) => { s with pw := { s.pw with brown := some (t, min low tenMv) } }
    | none => ({ s with pw := { s.pw with brown := some (s.now, tenMv) } }.bump (aPW 0x018) 1).notice 0 stOK
        (leBytes 1 0x30 ++ leBytes 3 0 ++ leBytes 4 tenMv)

/-- BROWNOUT_WARNING. -/
def execBrownoutWarning (tenMv : Nat) (s : State) : Host.Outcome State Fault Refusal := .next (brownoutWarning tenMv s)

/-- BROWNOUT_CLEAR: VIN has stayed above 40.0 V for 2 ms; notice 0x31 with the episode's length in µs. -/
def brownoutClear (s : State) : State :=
  match s.pw.brown with
  | none => s
  | some (t, _) =>
    if s.now ≥ t + msec 2 then
      { s with pw := { s.pw with brown := none } }.notice 0 stOK (leBytes 1 0x31 ++ leBytes 3 0 ++ leBytes 4 ((s.now - t) / 4000))
    else s

/-- BROWNOUT_CLEAR. -/
def execBrownoutClear (s : State) : Host.Outcome State Fault Refusal := .next (brownoutClear s)

/-- Clock of a die's cores outside the radio-eligible set, in sixteenths of 2.1 GHz (R434). -/
def Power.clock (p : Power) (die : Nat) : Nat := min (if p.brown.isSome then 8 else 16) (min p.capClock (if die = 0 then p.hotEast else p.hotWest))

/-- Clock a core runs at: the radio-eligible ones are never slowed. -/
def State.coreClock (s : State) (k : Nat) : Nat := if s.radioCore k then 16 else s.pw.clock (dieOf k)

/-- One step of a throttled clock: down where its cause holds, up once all has been low for 1 ms. -/
def stepClock (clock : Nat) (hot : Bool) (cool : Option Nat) (now : Nat) : Nat :=
  if hot then max 4 (clock - 1)
  else if (cool.map fun t => decide (now ≥ t + msec 1)).getD false then min 16 (clock + 1) else clock

/-- POWER_MEASUREMENT (R434, R460). -/
def powerMeasurement (o : PowerObs) (s : State) : State :=
  match s.pw.boot with
  | .running =>
    let p := s.pw
    let west := if s.variant.west then o.west else 0
    let low := p.cap = 0 || 100 * o.power < 95 * p.cap
    let since (was : Option Nat) (t : Nat) : Option Nat := if low && t < 98 then some (was.getD s.now) else none
    let ce := since p.coolEast o.east
    let cw := since p.coolWest west
    let both := ce.bind fun a => cw.map fun b => max a b
    { s with pw := { p with
        watts := o.power % 65536, vin := o.vin % 65536, east := o.east % 256, west := west % 256, hub := o.hub % 256,
        peak := max p.peak (max (o.east % 256) (max (west % 256) (o.hub % 256))), dpower := o.domains,
        coolEast := ce, coolWest := cw, capClock := stepClock p.capClock (p.cap ≠ 0 && p.cap < o.power) both s.now,
        hotEast := stepClock p.hotEast (100 ≤ o.east) ce s.now, hotWest := stepClock p.hotWest (100 ≤ west) cw s.now } }
  | _ => s

/-- POWER_MEASUREMENT. -/
def execPowerMeasurement (o : PowerObs) (s : State) : Host.Outcome State Fault Refusal := .next (powerMeasurement o s)

/-! ### POWER_POLICY (R432, R433) -/

def ppAction (c : Cmd) : Nat := c.p 0 1
def ppOn (c : Cmd) : Nat := c.p 4 4
def ppOff (c : Cmd) : Nat := c.p 8 4
def ppCap (c : Cmd) : Nat := c.p 12 2
/-- The target state of a switch. -/
def ppTarget (s : State) (c : Cmd) : Nat := (s.pw.on ||| ppOn c) &&& (0xFFFFF - ppOff c % 2 ^ 20)

def resvPowerPolicy (s : State) (c : Cmd) : Bool :=
  let m := s.variant.domainMask
  ppAction c ≤ 3 && zeroAt c.params 1 3 && zeroAt c.params 14 18
    && (if ppAction c = 0 then ppOn c &&& m = ppOn c && ppOff c &&& m = ppOff c else ppOn c = 0 && ppOff c = 0)
    && (ppAction c = 2 || ppCap c = 0)

/-- An object has storage on a die: its home, or a copy in T2. -/
def State.storedOn (s : State) (die : Nat) : Bool :=
  s.tenants.any fun e => e.2.objs.any fun f => match f.2 with
    | some o => (o.home = 2 && (if o.die = 0 then die = 0 || o.storage > 4096 else o.die = die + 1)) || (o.home > 2 && o.level = 2)
    | none => false

/-- A quarter holds a core of the radio-eligible set. -/
def State.radioQuarter (s : State) (d : Nat) : Bool := (List.range 8).any fun j => s.radioCore (8 * d + j)

/-- Checks of Table 21-5b. -/
def checkPowerPolicy (s : State) (c : Cmd) : Option Fail :=
  let off (d : Nat) : Bool := (ppOff c).testBit d
  firstFail
    [ need (ppOn c &&& ppOff c = 0 && (ppCap c = 0 || (400 ≤ ppCap c && ppCap c ≤ 1850))) stShape 0xC0,
      need (!(off 17 || off 18 || off 19)) stNoResources 0x60,
      need (parentsOn (ppTarget s c)) stNoResources 0x61,
      need (!(s.anyStarted && ((List.range 8).any (fun d => off d && s.radioQuarter d) || off 12 || off 13 || off 14 || off 16)))
        stNoResources 0x62,
      need (!off 15 || s.fabric.st = 0) stNoResources 0x63,
      need (!((off 10 && s.storedOn 0) || (off 11 && s.storedOn 1))) stNoResources 0x64 ]

/-- A set cap takes effect when the packet is accepted. -/
def powerAccepted (s : State) (c : Cmd) : State :=
  if ppAction c = 2 then { s with pw := { s.pw with cap := ppCap c } }.setCmd { c with result := leBytes 4 0 ++ leBytes 2 (ppCap c) } else s

/-- Result of a read (Table 21-5c). -/
def powerRead (s : State) : List Byte :=
  let p := s.pw
  leBytes 4 p.on ++ leBytes 2 p.cap ++ leBytes 2 p.vin ++ leBytes 2 p.watts ++ leBytes 1 (max p.east (max p.west p.hub))
    ++ leBytes 1 (b2n p.brown.isSome + 2 * b2n (p.capClock < 16) + 4 * b2n (p.hotEast < 16 || p.hotWest < 16)) ++ leBytes 4 0

/-- Cores that a switch powers off take no more commands (R17). -/
def State.removeCores (s : State) (target : Nat) : State :=
  ((List.range 64).filter fun k => s.pw.on.testBit (k / 8) && !target.testBit (k / 8)).foldl
    (fun s k => s.setCore k { s.core k with removing := true }) s

/-- POWER_POLICY: a switch waits for its domains; a module reset follows 10 ms after the record. -/
def runPowerPolicy (s : State) (c : Cmd) : State :=
  match ppAction c with
  | 0 =>
    let t := ppTarget s c
    let s1 := (s.removeCores t).sweepPlacement
    { s1 with pw := { s1.pw with switching := some (c.id, t) } }.await c.id
  | 1 => s.ok c.id (powerRead s)
  | 2 => s.ok c.id c.result
  | _ => { s with pw := { s.pw with resetAt := some (s.now + msec 10) } }.ok c.id []

/-- A packet of the same kind accepted earlier has not completed: Steward applies such packets one at a time. -/
def State.earlierOf (s : State) (ops : List Nat) (id : Nat) : Bool :=
  s.cmds.any fun d => ops.contains d.opcode && d.id < id && d.stage ≠ .done

/-- POWER_POLICY. -/
def execOpPowerPolicy (id : Nat) (s : State) : Host.Outcome State Fault Refusal :=
  .next (if s.earlierOf [0xE006] id then s else runCoreless 0xE006 checkPowerPolicy runPowerPolicy id s)

/-- A domain of those leaving has to stay while a cell is started: a quarter with a radio-eligible core, or one of the domains of
Table 21-5b reason 0x62 (R17). -/
def State.radioHolds (s : State) (leaving : List Nat) : Bool :=
  s.anyStarted && leaving.any fun d => (d < 8 && s.radioQuarter d) || [12, 13, 14, 16].contains d

/-- DOMAIN_SWITCH_DONE: the cores that leave are idle, and no started cell holds a domain that leaves (DEDUCED, log 115: a cell started since the
switch began keeps it waiting); domains go off child first and on parent first, those that come on are tested;
POWER_POLICY completes with the domains then on. -/
def domainSwitchDone (t : SelfTest) (s : State) : State :=
  match s.pw.switching with
  | none => s
  | some (id, target) =>
    let leaving := startOrder.reverse.filter fun d => s.pw.on.testBit d && !target.testBit d
    let coming := startOrder.filter fun d => target.testBit d && !s.pw.on.testBit d
    if s.radioHolds leaving || leaving.any fun d => d < 8 && (List.range 8).any fun j => (s.core (8 * d + j)).running.isSome then s
    else
      let s1 := leaving.foldl (fun s d => s.powerOff d) s
      let s2 := coming.foldl (fun s d => s.powerUp t d) s1
      { s2 with pw := { s2.pw with switching := none } }.ok id (leBytes 4 target)

/-- DOMAIN_SWITCH_DONE. -/
def execDomainSwitchDone (t : SelfTest) (s : State) : Host.Outcome State Fault Refusal := .next (domainSwitchDone t s)

/-- PW_CTL.CLEAR (R447): the counters, and PW_TEMP.PEAK starts again. -/
def execPwCtlClear (s : State) : Host.Outcome State Fault Refusal :=
  .next { s.clearCounters (aPW 0x018) (aPW 0x038) with pw := { s.pw with peak := max s.pw.east (max s.pw.west s.pw.hub) } }

/-! ### Reference clocks (R437) -/

/-- The Ethernet reference is lost: every sub-port and every Wyrraop port goes down. -/
def State.ethReferenceLost (s : State) : State :=
  let s1 := (List.range 16).foldl (fun s n => if (s.sub n).link = 2 then s.moveLink n false else s) s
  (List.range 8).foldl (fun s p => portDown p .lossOfSignal s) s1

/-- REFERENCE_LOSS: 0 PCI Express, 1 Ethernet, 2 timing. -/
def referenceLoss (r : Nat) (s : State) : State :=
  if r ≥ 3 || s.pw.refLost.testBit r then s
  else
    let s1 := { s with pw := { s.pw with refLost := s.pw.refLost ||| 2 ^ r } }.bump (aPW 0x030) 1
    match r with
    | 0 => if s1.link.up then s1.hostLoss else s1
    | 1 => s1.ethReferenceLost
    | _ => if s1.sx.out = 1 then s1.enterHoldover 1 else s1

/-- REFERENCE_LOSS. -/
def execReferenceLoss (ref : Nat) (s : State) : Host.Outcome State Fault Refusal := .next (referenceLoss ref s)

/-- REFERENCE_RETURN: its use resumes; the output follows a locked domain again. -/
def referenceReturn (r : Nat) (s : State) : State :=
  if r ≥ 3 || !s.pw.refLost.testBit r then s
  else
    let s1 := { s with pw := { s.pw with refLost := s.pw.refLost - 2 ^ r } }
    if r = 2 then s1.relock else s1

/-- REFERENCE_RETURN. -/
def execReferenceReturn (ref : Nat) (s : State) : Host.Outcome State Fault Refusal := .next (referenceReturn ref s)

/-! ### Resets of the host link (R64, Table 21-6) -/

/-- The endpoint is reset: configuration space; host loss; then VF Enable clears and the virtual functions are unprovisioned (R64). -/
def State.endpointReset (s : State) (aer : Nat) : State :=
  let s1 := { s with link := { s.link with config := [], aer := aer } }
  s1.hostLoss.clearVfs

/-- PERST_ASSERTION: the endpoint resets with its sticky bits; the windows wait for the next release. -/
def perstAssertion (s : State) : State :=
  if s.pw.perst then s
  else
    let s1 := s.endpointReset 0
    { s1 with pw := { s1.pw with perst := true, ready := false } }

/-- PERST_ASSERTION. -/
def execPerstAssertion (s : State) : Host.Outcome State Fault Refusal := .next (perstAssertion s)

/-- PERST_RELEASE: link training starts. -/
def execPerstRelease (s : State) : Host.Outcome State Fault Refusal :=
  .next (if s.pw.perst then { s with pw := { s.pw with perst := false, perstAt := s.now } } else s)

/-- Hot reset and link disable come over the link and keep the sticky AER bits. -/
def State.linkReset (s : State) : State := if s.link.up then s.endpointReset s.link.aer else s

/-- HOT_RESET. -/
def execHotReset (s : State) : Host.Outcome State Fault Refusal := .next s.linkReset

/-- LINK_DISABLE. -/
def execLinkDisable (s : State) : Host.Outcome State Fault Refusal := .next s.linkReset

/-- PHYSICAL_FUNCTION_FLR: the physical function's configuration and HW_ registers, host loss, then VF Enable. -/
def physicalFunctionFlr (s : State) : State :=
  if s.link.up then
    let s1 := { s.setFn 0 Fn.init with link := { s.link with config := NMap.drop (fun k => k < 2 ^ 32) s.link.config } }
    s1.hostLoss.clearVfs
  else s

/-- PHYSICAL_FUNCTION_FLR. -/
def execPhysicalFunctionFlr (s : State) : Host.Outcome State Fault Refusal := .next (physicalFunctionFlr s)

/-! ### Configuration requests (R47, R430) and the I3C address (R445) -/

/-- First register of a capability: 0 PCI Express, 1 MSI-X, 2 AER, 3 SR-IOV. -/
def capReg (i : Nat) : Nat := 16 + Config.capPlace i

/-- Fields of a function's configuration space that Table 3-1, R47, R50 and R67 fix, as (register, high bit, low bit, value): identifiers,
BAR0 of 64 bits, Max_Payload_Size 512 B, FLR, width x8, MSI-X sizes and places, AER status, SR-IOV. Their places within a register
are PRESUMED from the base specification (log 103). -/
def State.configFields (s : State) (fn : Nat) : List (Nat × Nat × Nat × Nat) :=
  [(0, 31, 16, if fn = 0 then 0x0A11 else 0x0A12), (capReg 0 + 1, 2, 0, 2), (capReg 0 + 1, 28, 28, 1), (capReg 0 + 3, 9, 4, 8),
   (capReg 1, 26, 16, if fn = 0 then 63 else 7), (capReg 1 + 1, 31, 0, 0x18000), (capReg 1 + 2, 31, 0, 0x1C000)]
  ++ (if fn = 0 then
      [(4, 3, 0, 4), (capReg 2 + 1, 31, 0, s.link.aer), (capReg 3 + 2, 0, 0, b2n s.link.vfEnable), (capReg 3 + 3, 31, 16, 15),
       (capReg 3 + 4, 15, 0, s.link.numVfs), (capReg 3 + 6, 31, 16, 0x0A12), (capReg 3 + 9, 3, 0, 4)]
     else [])

/-- A configuration register: what was last written, or Config's value, with the fixed fields in their places. -/
def State.configRead (s : State) (fn reg : Nat) : Word :=
  let w := match s.link.config.find? fun e => e.1 = fn * 2 ^ 32 + reg with
    | some e => e.2
    | none => Config.configWord fn reg
  BitVec.ofNat 32 (((s.configFields fn).filter (·.1 = reg)).foldl (fun v f => putBits v f.2.1 f.2.2.1 f.2.2.2) w.toNat)

/-- CONFIGURATION_REQUEST: before the windows accept packets it is answered with Configuration Request Retry Status; otherwise a
read answers data and a write acts. NumVFs changes only while VF Enable is clear. -/
def configurationRequest (q : CfgReq) (s : State) : State :=
  if !s.pw.ready then { s with readData := [] }
  else match q with
  | .read fn reg => { s with readData := [s.configRead fn reg] }
  | .writeVfs en n =>
    if en then
      if s.link.vfEnable || n > 15 then s else { s with link := { s.link with vfEnable := true, numVfs := n } }
    else
      let s1 := ((List.range 16).filter fun t => t ≠ 0 && (s.tenant t).provisioned).foldl (fun s t => s.unprovision t) s
      { s1 with link := { s1.link with vfEnable := false, numVfs := if n ≤ 15 then n else s1.link.numVfs } }
  | .writeOther fn reg v =>
    if reg = 0 then s
    else if fn = 0 ∧ reg = capReg 2 + 1 then { s with link := { s.link with aer := s.link.aer - (s.link.aer &&& v.toNat) } }
    else { s with link := { s.link with config := NMap.put (fn * 2 ^ 32 + reg) v s.link.config } }

/-- CONFIGURATION_REQUEST. -/
def execConfigurationRequest (q : CfgReq) (s : State) : Host.Outcome State Fault Refusal := .next (configurationRequest q s)

/-- DYNAMIC_ADDRESS_ASSIGNMENT: the target takes the address once it answers at all. -/
def execDynamicAddressAssignment (addr : Nat) (_fromStatic : Bool) (s : State) : Host.Outcome State Fault Refusal :=
  .next (match s.pw.boot with
    | .reset => s
    | _ => if addr < 128 then { s with pw := { s.pw with i3c := some addr } } else s)

/-! ### Device reads of host memory (R67) -/

/-- The command that needs the data ends with TIER_FAILED, cause T4; a PROMOTE fails with its raise (R175). -/
def State.readFailed (s : State) (id : Nat) : State :=
  match s.cmd? id with
  | none => s
  | some c =>
    if c.stage = .done ∨ c.stage = .accepted then s
    else if c.opcode = 0x1010 then raiseFail s c.tenant (refHandle (c.p 0 8)) (stTierFailed, [4])
    else s.failRunning c (stTierFailed, [4])

/-- DMA_READ_COMPLETION: bytes of host memory arrive, or the read fails (Table 3-15). -/
def dmaReadCompletion (id fn iova : Nat) (o : DmaObs) (s : State) : State :=
  let arrive (bs : List Byte) (bad : Bool) : State :=
    let lines := (List.range (if bs.length = 0 then 0 else (iova + bs.length - 1) / 64 - iova / 64 + 1)).map
      fun i => hostLine fn (64 * (iova / 64 + i))
    let s1 := s.setHostMem fn (Memory.writeN (s.hostMem fn) iova bs)
    { s1 with hostPoison := lines.foldl (fun m k => NMap.set false m k bad) s1.hostPoison }
  if !s.link.up ∨ fn ≥ 16 then s
  else match o with
  | .data bs => arrive bs false
  | .poisoned bs => (arrive bs true).aerEvent 12
  | .unsupported => (s.readFailed id).aerEvent 20
  | .aborted => (s.readFailed id).aerEvent 15

/-- DMA_READ_COMPLETION. -/
def execDmaReadCompletion (id fn iova : Nat) (o : DmaObs) (s : State) : Host.Outcome State Fault Refusal :=
  .next (dmaReadCompletion id fn iova o s)

/-- COMPLETION_TIMEOUT. -/
def execCompletionTimeout (id : Nat) (s : State) : Host.Outcome State Fault Refusal :=
  .next (if s.link.up then (s.readFailed id).aerEvent 14 else s)

end Sys2Proof.Machine
end

