-- ==== Sys2Proof/Machine/Steward.lean ====
section
/-! DEFINITION. Steward's firmware opcodes and attestation (22): FW_STAGE, FW_ACTIVATE, hot restart, ATTEST. -/
namespace Sys2Proof.Machine

/-! ### Images (R449, R450) -/

/-- A slot's bytes are an image that verifies: magic, format, generation, body length, signature, digest. -/
def imageSound (m : Memory) : Bool :=
  let h := Memory.readN m 0 2724
  let n := fieldAt h 20 4
  fieldAt h 0 4 == 0x54465749 && fieldAt h 4 4 == 1 && fieldAt h 17 1 == 1 && n % 4096 == 0 && 4096 ≤ n && n ≤ 100655104
    && Config.lmsVerify (h.take 56) (h.drop 56) && fitBytes 32 (Config.sha256 (Memory.readN m 8192 n)) == (h.drop 24).take 32

/-- What the boot ROM reads in a slot that holds these bytes (Table 22-2). -/
def slotOf (m : Memory) : FwSlot :=
  { bytes := m, sound := imageSound m, version := leNat (Memory.readN m 8 4), security := leNat (Memory.readN m 12 4),
    hot := (Memory.read m 16).toNat.testBit 0, digest := Memory.readN m 24 32 }

def Steward.slot (x : Steward) (k : Nat) : FwSlot := if k = 0 then x.slots[0] else x.slots[1]
/-- The inactive slot: the one ACTIVE_SLOT does not name. -/
def Steward.spare (x : Steward) : Nat := 1 - x.active
def Steward.putSpare (x : Steward) (y : FwSlot) : Steward := { x with slots := if x.active = 1 then x.slots.set 0 y else x.slots.set 1 y }

/-- An FW_ACTIVATE is in progress: a hot restart, or the module reset it has set. -/
def State.activating (s : State) : Bool := s.st.hot.isSome || s.pw.resetAt.isSome

/-! ### FW_STAGE (R452, R453) -/

def fsFirst (c : Cmd) : Bool := (c.p 16 1).testBit 0
def fsLast (c : Cmd) : Bool := (c.p 16 1).testBit 1
def fsOffset (c : Cmd) : Nat := c.p 8 4
def fsLength (c : Cmd) : Nat := c.p 12 4

def resvFwStage (_ : State) (c : Cmd) : Bool := c.p 16 1 < 4 && zeroAt c.params 17 15 && (c.entry ≠ .mgmt || c.p 0 8 = 0)

/-- The host bytes of a source cannot be read: the link is down, or a line is poisoned. -/
def State.sourceBad (s : State) (c : Cmd) : Bool :=
  c.entry ≠ .mgmt && (!s.link.up
    || (List.range (fsLength c / 64 + 2)).any fun i => c.p 0 8 / 64 + i < (c.p 0 8 + fsLength c + 63) / 64
        && NMap.get false s.hostPoison (hostLine 0 (c.p 0 8 + 64 * i)))

/-- Checks 1 to 4 of Table 22-3. -/
def checkFwStage (s : State) (c : Cmd) : Option Fail :=
  let n := fsLength c
  firstFail
    [ need (fsOffset c % 4096 = 0 && n % 16 = 0 && 16 ≤ n && n ≤ (if c.entry = .mgmt then 262144 else 16777216)
        && fsOffset c + n ≤ 96 * 2 ^ 20) stShape 0xD0,
      need (fsFirst c || s.st.owner = some c.entry) stNoResources 0x72,
      need (!s.activating) stNoResources 0x71,
      need (!s.sourceBad c) stTierFailed 4 ]

/-- FW_STAGE writes the inactive slot; with LAST the whole slot is verified (Table 22-3 checks 5 and 6). -/
def runFwStage (s : State) (c : Cmd) : State :=
  let bs := if c.entry = .mgmt then Memory.readN s.st.stage 0 (fsLength c) else Memory.readN (s.hostMem 0) (c.p 0 8) (fsLength c)
  let old := if fsFirst c then [] else (s.st.slot s.st.spare).bytes
  let y := slotOf (Memory.writeN old (fsOffset c) bs)
  let good := y.sound && s.st.security ≤ y.security
  let st := { s.st.putSpare y with owner := if fsLast c then none else some c.entry, staged := if fsLast c && good then 2 else 1 }
  let s1 := { s with st := st }
  if !fsLast c then s1.ok c.id []
  else if !y.sound then s1.finish c.id stShape [0xD2]
  else if !good then s1.finish c.id stShape [0xD3]
  else s1.ok c.id (leBytes 4 y.version)

/-- FW_STAGE. -/
def execOpFwStage (id : Nat) (s : State) : Host.Outcome State Fault Refusal :=
  .next (if s.earlierOf [0xE001, 0xE002] id then s else runCoreless 0xE001 checkFwStage runFwStage id s)

/-! ### FW_ACTIVATE and hot restart (R454, R455) -/

def resvFwActivate (_ : State) (c : Cmd) : Bool := c.p 0 1 < 4 && zeroAt c.params 1 15

/-- The activation is a hot restart: the image is hot-capable, firmware runs and DEFER is clear. -/
def hotPath (s : State) (c : Cmd) : Bool :=
  !(c.p 0 1).testBit 0 && (s.st.slot s.st.spare).hot && (match s.pw.boot with | .running => true | _ => false)

def checkFwActivate (s : State) (c : Cmd) : Option Fail :=
  firstFail
    [ need (s.st.staged = 2) stNoResources 0x70,
      need ((c.p 0 1).testBit 0 || hotPath s c || (c.p 0 1).testBit 1 || !s.anyStarted) stNoResources 0x73 ]

/-- ACTIVE_SLOT names the inactive slot, which is inactive no more. -/
def Steward.activate (x : Steward) : Steward := { x with active := x.spare, staged := 0, owner := none }

/-- Events owned by the Steward cores are completed as they restart (R384). -/
def State.stewardRestart (s : State) : State := (List.range 4).foldl (fun s k => s.completeOwned k) s

/-- FW_ACTIVATE: deferred, by hot restart, or by a module reset 10 ms later. -/
def runFwActivate (s : State) (c : Cmd) : State :=
  if (c.p 0 1).testBit 0 then { s with st := s.st.activate }.ok c.id []
  else if hotPath s c then { s.stewardRestart with st := { s.st with hot := some (c.id, s.now) } }.await c.id
  else { s with st := s.st.activate, pw := { s.pw with resetAt := some (s.now + msec 10) } }.ok c.id []

/-- FW_ACTIVATE; a hot restart begins once the packets Steward interprets are finished, a domain switch among them. -/
def execOpFwActivate (id : Nat) (s : State) : Host.Outcome State Fault Refusal :=
  .next (if s.earlierOf [0xE001, 0xE002] id || s.pw.switching.isSome || s.activating then s
    else runCoreless 0xE002 checkFwActivate runFwActivate id s)

/-- HOT_RESTART_RESUME: within 200 ms the new firmware runs: SECURITY rises, ACTIVE_SLOT names its slot, held packets go on,
FW_ACTIVATE completes. -/
def hotRestartResume (s : State) : State :=
  match s.st.hot with
  | none => s
  | some (id, t) =>
    if s.now > t + msec 200 then s
    else
      let a := s.st.activate
      let s1 := { s with st := { a with run := a.active, fallback := false, hot := none } }.raiseSecurity
      s1.ok id (leBytes 4 0 ++ leBytes 4 s1.fwVersion)

/-- HOT_RESTART_RESUME. -/
def execHotRestartResume (s : State) : Host.Outcome State Fault Refusal := .next (hotRestartResume s)

/-- HOT_RESTART_TIMEOUT: after 200 ms the cores restart from the old slot. -/
def hotRestartTimeout (s : State) : State :=
  match s.st.hot with
  | none => s
  | some (id, t) =>
    if s.now < t + msec 200 then s
    else
      let s1 := { s.stewardRestart with st := { s.st with hot := none } }.logRecord
        { LogRec.none_ with cls := 9, outcome := 0, island := 221, domain := 18 }
      s1.finish id stNoResources [0x76]

/-- HOT_RESTART_TIMEOUT. -/
def execHotRestartTimeout (s : State) : Host.Outcome State Fault Refusal := .next (hotRestartTimeout s)

/-! ### ATTEST (R456–R458) -/

def atKey (c : Cmd) : Bool := (c.p 40 1).testBit 0

def resvAttest (_ : State) (c : Cmd) : Bool :=
  c.p 40 1 < 2 && zeroAt c.params 41 7 && (!atKey c || zeroAt c.params 0 32) && (c.entry ≠ .mgmt || c.p 32 8 = 0)

def day : Nat := 24 * 3600 * msec 1000
def hour : Nat := 3600 * msec 1000

/-- Signatures spent in the last 24 h. -/
def State.spentDay (s : State) : List Nat := s.st.spent.filter fun t => s.now < t + day

/-- The virtual function has spent a signature within the hour. -/
def State.vfSpentHour (s : State) (c : Cmd) : Bool :=
  c.entry = .vf && ((NMap.get none s.st.vfSpent c.tenant).map fun t => decide (s.now < t + hour)).getD false

def checkAttest (s : State) (c : Cmd) : Option Fail :=
  bufferOk c 32 <|> (if atKey c then none else firstFail
    [ need (s.st.sigIndex < 2 ^ 20) stNoResources 0x74,
      need (s.spentDay.length < 288 && !s.vfSpentHour c) stNoResources 0x75 ])

/-- Bytes 0–223 of the record (Table 22-5). -/
def attestBody (s : State) (c : Cmd) : List Byte :=
  let b := s.capBlock
  leBytes 4 1 ++ leBytes 4 3072 ++ leBytes 2 s.pw.slotStrap ++ leBytes 1 (if c.entry = .vf then c.tenant else 0xFF) ++ leBytes 1 s.st.run
    ++ leBytes 4 s.fwVersion ++ leBytes 4 s.st.security ++ leBytes 8 Config.serial.toNat ++ (c.params.take 32)
    ++ fitBytes 32 Config.romDigest ++ fitBytes 32 (s.st.slot s.st.run).digest ++ fitBytes 32 Config.recordDigest
    ++ fitBytes 32 (Config.sha256 ((b.drop 16).take 16 ++ b.drop (64 + 8 * 18))) ++ leBytes 36 0

/-- ATTEST with KEY set: the identity key's block. -/
def runAttestKey (s : State) (c : Cmd) : State :=
  (s.writeBlock c (c.p 32 8) ((List.range 4096).map Config.idKey)).ok c.id (leBytes 4 0 ++ leBytes 4 (2 ^ 20 - s.st.sigIndex))

/-- ATTEST: SIG_INDEX rises before the signature is made with the index it held. -/
def runAttest (s : State) (c : Cmd) : State :=
  if atKey c then runAttestKey s c
  else
    let i := s.st.sigIndex
    let body := attestBody s c
    let st := { s.st with sigIndex := i + 1, spent := s.spentDay ++ [s.now],
                          vfSpent := if c.entry = .vf then NMap.set none s.st.vfSpent c.tenant (some s.now) else s.st.vfSpent }
    let s1 := { s with st := st }
    (s1.writeBlock c (c.p 32 8) (body ++ fitBytes 2828 (Config.lmsSign i body) ++ leBytes 20 0)).ok c.id
      (leBytes 4 i ++ leBytes 4 (2 ^ 20 - (i + 1)))

/-- ATTEST. -/
def execOpAttest (id : Nat) (s : State) : Host.Outcome State Fault Refusal := .next (runCoreless 0xE003 checkAttest runAttest id s)

end Sys2Proof.Machine
end

