-- ==== Sys2Proof/Machine/Registers.lean ====
section
/-! DEFINITION. The register map: REG_READ, REG_WRITE (R459), counter captures (R87), CLEAR bits, BAR0 registers (R50–R52), access
codes (R10, R11). -/
namespace Sys2Proof.Machine

/-! ### The map (R459, tables of each block) -/

def aSX (off : Nat) : Nat := 0x08000000 + off

/-- What stands at a register address: a reserved word, half of a 64-bit counter, or a register with these bits not reserved. -/
inductive RegWord
  | reserved
  | ctrLo
  | ctrHi
  | word (mask : Nat)
  deriving DecidableEq, Repr

def full : RegWord := .word 0xFFFFFFFF

/-- Counters at offsets lo … hi + 7. -/
def ctrAt (lo hi off : Nat) (other : RegWord) : RegWord :=
  if lo ≤ off && off < hi + 8 then (if off % 8 = 0 then .ctrLo else .ctrHi) else other

/-- The listed words of each kind of block. -/
def mcWord (off : Nat) : RegWord :=
  match off with
  | 0x000 => .word 0xFFFCFFC0
  | 0x004 => full
  | 0x008 => .word 0xFFFF
  | 0x00C => .word 1
  | _ => ctrAt 0x010 0x048 off .reserved
def veWord (off : Nat) : RegWord :=
  match off with
  | 0x000 => .word 0xFFFFFBFF
  | 0x004 => .word 1
  | _ => ctrAt 0x010 0x038 off .reserved
def coopWord (off : Nat) : RegWord := if off = 0 then full else ctrAt 0x008 0x010 off .reserved
def tiDieWord (off : Nat) : RegWord :=
  match off with
  | 0x000 => .word 0x807FFF00
  | 0x004 => full
  | _ => ctrAt 0x008 0x020 off .reserved
def dpWord (off : Nat) : RegWord :=
  match off with
  | 0x000 => .word 0xFFFFFC00
  | 0x004 => .word 1
  | 0x008 | 0x00C => full
  | 0x040 => .word 0x7FF
  | _ => if 0x100 ≤ off && off < 0x180 then .word 0xFFFF8000 else ctrAt 0x010 0x038 off .reserved
def wfWord (off : Nat) : RegWord :=
  match off with
  | 0x000 => .word 0xFFFFFFF0
  | 0x004 => .word 1
  | 0x800 => .word 0xE000FFFF
  | 0x804 | 0x808 | 0x80C => full
  | _ => ctrAt 0x008 0x040 off (ctrAt 0x810 0x830 off .reserved)
def wpWord (off : Nat) : RegWord :=
  match off with
  | 0x000 => .word 0xFEE00000
  | 0x004 => full
  | 0x008 => .word 0xFFFFFF
  | _ => ctrAt 0x010 0x030 off .reserved
def scWord (off : Nat) : RegWord :=
  match off with
  | 0x000 => .word 0xFFEFFFFF
  | 0x004 => .word 1
  | 0x008 => .word 0xF0003FFF
  | _ => ctrAt 0x010 0x038 off .reserved
def clWord (off : Nat) : RegWord :=
  match off with
  | 0x000 => .word 0xE000FFFF
  | 0x004 => .word 3
  | 0x008 => full
  | _ => ctrAt 0x010 0x010 off .reserved
def weWord (off : Nat) : RegWord :=
  match off with
  | 0x000 => .word 0xC000003F
  | 0x004 => .word 1
  | 0x008 => full
  | 0x00C => .word 0xF
  | _ => ctrAt 0x010 0x060 off .reserved
def tmWord (off : Nat) : RegWord :=
  match off with
  | 0x000 => .word 0xFFFFFFE0
  | 0x004 => .word 1
  | _ => ctrAt 0x010 0x068 off .reserved
def sxWord (off : Nat) : RegWord :=
  match off with
  | 0x000 => .word 0xFFFE007F
  | 0x004 => .word 1
  | 0x008 => .ctrLo
  | 0x00C => .ctrHi
  | _ => if 0x010 ≤ off && off < 0x020 then full else ctrAt 0x020 0x038 off .reserved
def evWord (off : Nat) : RegWord :=
  if off = 0 then .word 3
  else if 0x100 ≤ off && off < 0x140 then full
  else if off = 0x1000 then .word 0
  else if 0x1000 < off && off < 0x1400 then .word 0xFFFF1F00 -- MASK, LEVEL, PRIO, INPUT, OWNER
  else if 0x2000 ≤ off && off < 0x20C0 then
    (if off % 16 = 0 then .word 0xF else if off % 16 = 4 then .word 0xFF else if off % 16 = 8 then full else .reserved)
  else ctrAt 0x008 0x010 off .reserved
def pwWord (off : Nat) : RegWord :=
  match off with
  | 0x000 => .word 0xFFE00000
  | 0x004 => .word 1
  | 0x008 => .word 0xFFFFF
  | 0x00C | 0x010 => full
  | 0x014 => .word 0x1FF
  | _ => ctrAt 0x018 0x030 off .reserved
def stWord (off : Nat) : RegWord :=
  match off with
  | 0x000 => .word 0xFF000000
  | 0x004 | 0x008 | 0x00C => full
  | _ => if 0x100 ≤ off && off < 0x150 then .word 0xFFFF else if 0x1000 ≤ off && off < 0x2000 then full else .reserved

/-- The blocks of the register map. -/
inductive Block
  | mc (core : Nat) | ve (core : Nat) | coop (q : Nat) | tiCtx | tiDie (d : Nat) | dp (d : Nat) | wf | wp (p : Nat) | image
  | sc (n : Nat) | cl (k : Nat) | window (k : Nat) | we | quality (c : Nat) | tm (n : Nat) | sx | ev | pw | st | stage | none_
  deriving DecidableEq, Repr

/-- Block and offset of an address. -/
def blockOf (a : Nat) : Block × Nat :=
  let k := a / 0x1000
  let o := a % 0x1000
  if 0x01000 ≤ k ∧ k < 0x01040 then (.mc (k - 0x01000), o)
  else if 0x01040 ≤ k ∧ k < 0x01080 then (.ve (k - 0x01040), o)
  else if 0x01080 ≤ k ∧ k < 0x01088 then (.coop (k - 0x01080), o)
  else if 0x02000 ≤ k ∧ k < 0x02010 then (.tiCtx, a % 0x40)
  else if 0x02100 ≤ k ∧ k < 0x02102 then (.tiDie (k - 0x02100), o)
  else if 0x03000 ≤ k ∧ k < 0x03002 then (.dp (k - 0x03000), o)
  else if k = 0x04000 then (.wf, o)
  else if k = 0x04001 ∧ o < 0x800 then (.wp (o / 0x100), o % 0x100)
  else if 0x04020 ≤ k ∧ k < 0x04060 then (.image, a - 0x04020000)
  else if 0x05000 ≤ k ∧ k < 0x05080 then (.sc (k - 0x05000), o)
  else if 0x05080 ≤ k ∧ k < 0x05088 then (.cl (k - 0x05080), o)
  else if 0x05100 ≤ k ∧ k < 0x05180 then (.window ((a - 0x05100000) / 0x10000), a % 0x10000)
  else if k = 0x06000 then (.we, o)
  else if k = 0x06001 then (.quality (o / 0x10), a % 0x10)
  else if 0x07000 ≤ k ∧ k < 0x07010 then (.tm (k - 0x07000), o)
  else if k = 0x08000 then (.sx, o)
  else if 0x09000 ≤ k ∧ k < 0x09003 then (.ev, a - 0x09000000)
  else if k = 0x0A000 then (.pw, o)
  else if k = 0x0B000 ∨ k = 0x0B001 then (.st, a - 0x0B000000)
  else if 0x0B100 ≤ k ∧ k < 0x0B140 then (.stage, a - 0x0B100000)
  else (.none_, 0)

/-- What stands at an address. -/
def regWord (a : Nat) : RegWord :=
  let (b, o) := blockOf a
  match b with
  | .mc _ => mcWord o
  | .ve _ => veWord o
  | .coop _ => coopWord o
  | .tiCtx => ctrAt 0x00 0x28 o .reserved
  | .tiDie _ => tiDieWord o
  | .dp _ => dpWord o
  | .wf => wfWord o
  | .wp _ => wpWord o
  | .sc _ => scWord o
  | .cl _ => clWord o
  | .we => weWord o
  | .quality _ => if o < 12 then .word 0xFFFF else .reserved
  | .tm _ => tmWord o
  | .sx => sxWord o
  | .ev => evWord o
  | .pw => pwWord o
  | .st => stWord o
  | .image | .window _ | .stage => full
  | .none_ => .reserved

/-- The block belongs to a unit the variant lacks (R4). -/
def blockAbsent (v : Variant) (b : Block) : Bool :=
  match b with
  | .mc k | .ve k => k ≥ v.cores
  | .coop q => q ≥ v.cores / 8
  | .tiDie d | .dp d => d = 1 && !v.west
  | .wf | .wp _ | .image => !v.fabric
  | .sc _ | .cl _ | .window _ | .we | .quality _ => !v.radio
  | .tm n => n ≥ 4 * v.ethPorts
  | _ => false

/-- The block's registers read their reset values and discard writes: its domain is off (R87, R324, R348; the Dispatcher's and tier
manager's by Table 1-5, DEDUCED, log 116), or its port number does
not exist in the current mode (R363). -/
def State.blockOff (s : State) (b : Block) : Bool :=
  match b with
  | .mc k | .ve k => !s.pw.on.testBit (k / 8)
  | .coop q => !s.pw.on.testBit q
  | .sc n => !s.clusterOn (n / 16)
  | .cl k | .window k => !s.clusterOn k
  | .we | .quality _ => !s.pw.on.testBit 14
  | .tm n => !s.portExists n
  | .dp d | .tiDie d => !s.pw.on.testBit (8 + d)
  | _ => false

/-- Reset value of a register of a block that can be off. -/
def offValue (b : Block) (o : Nat) : Nat :=
  match b, o with
  | .mc _, 0x004 => 0xFFFFFFFF
  | .mc _, 0x008 => 0xFFFF
  | .quality _, 0 => 0x8000
  | .quality _, 4 => 0x8000
  | .dp _, 0x040 => 2000
  | _, _ => 0

/-! ### Values -/

/-- Spares a repair register names. -/
def sparesIn (n : Nat) (w : Word) : Nat := ((List.range n).filter fun i => bits w.toNat (8 * i + 7) (8 * i) ≠ 0xFF).length

/-- Tenant and context of the command that runs on a core, 0 when idle. -/
def State.onCore (s : State) (k : Nat) : Nat × Nat :=
  match (s.core k).running.bind s.cmd? with
  | some c => (c.tenant, c.ctx)
  | none => (0, 0)

/-- A command of a context or of a slot runs on a core. -/
def State.coreRuns (s : State) (k : Nat) : Bool :=
  (s.core k).running.isSome || s.radioCmds.any fun c => (c.run.map Prod.fst) = some k

/-- MC_STATUS.BANK: the bank of the fold selected last by the MATMUL_CHAIN that runs, its first fold's being bank 0 (Table 4-11; DEDUCED, log
126: its cycles are those of a feeder that never waited for staged data). -/
def State.bankOf (s : State) (k : Nat) : Nat :=
  match (s.core k).running.bind s.cmd? with
  | some c =>
    if c.opcode ≠ 0x2001 then 0
    else match chainFed s c with
      | .ok fed => ((chainCycles c fed.length (s.elapsed c + 1)).sel - 1) % 2
      | .error _ => 0
  | none => 0

/-- MC_STATUS (Table 4-6). -/
def State.mcStatus (s : State) (k : Nat) : Nat :=
  let x := s.core k
  let (t, c) := s.onCore k
  (if x.quarantined then 2 else b2n (s.coreRuns k)) * 2 ^ 30 + b2n x.bistPass * 2 ^ 29 + b2n x.suspect * 2 ^ 28
    + (if s.coreRuns k then x.mode % 4 * 2 ^ 26 + x.split % 4 * 2 ^ 24 else 0) + sparesIn 4 x.repairLanes * 2 ^ 21
    + sparesIn 2 x.repairCols * 2 ^ 19 + s.bankOf k * 2 ^ 18 + c % 64 * 2 ^ 10 + t % 16 * 2 ^ 6

/-- VE_STATUS (Table 7-15); whether a chain that runs is in its epilogue is a free value. -/
def State.veStatus (s : State) (k : Nat) (w : Word) : Nat :=
  let x := s.core k
  let (t, c) := s.onCore k
  let chain := (x.running.bind s.cmd?).any fun d => d.opcode = 0x2001
  let st := if x.quarantined then 3 else if x.ve.isSome then 1 else if chain && w.toNat.testBit 0 then 2 else 0
  st * 2 ^ 30 + (match x.ve with | some v => v.handle % 64 | none => 0) * 2 ^ 24 + x.vePc % 8192 * 2 ^ 11 + t % 16 * 2 ^ 6 + c % 64

/-- Tiles a Cooper holds below node (l, j) of a round's tree of `n` leaves: merged siblings share one buffer (R149). -/
def coopTiles (n : Nat) (have_ : Nat → Bool) : Nat → Nat → Nat
  | 0, j => b2n (decide (j < n) && have_ j)
  | l + 1, j =>
    let lo := j * 2 ^ (l + 1)
    let mine := (List.range n).filter fun i => lo ≤ i && decide (i < lo + 2 ^ (l + 1))
    if !mine.isEmpty && mine.all have_ then 1 else coopTiles n have_ l (2 * j) + coopTiles n have_ l (2 * j + 1)

/-- VE_COOP_STATUS (Table 7-17). -/
def State.coopStatus (s : State) (q : Nat) : Nat :=
  match NMap.get none s.coopers q with
  | none => 0
  | some r =>
    2 ^ 31 + min 4 (coopTiles r.n (fun j => (NMap.get none r.leaves j).isSome) 3 0) * 2 ^ 28 + r.leaves.length % 16 * 2 ^ 24 + r.n % 16 * 2 ^ 20 + r.tenant % 16 * 2 ^ 16 + r.tag % 65536

/-- DP_CORE_RES of a core (Table 9-14). -/
def State.coreRes (s : State) (k : Nat) : Nat :=
  let x := s.core k
  let (t, c) := s.onCore k
  min 4 x.residents.length * 2 ^ 29 + b2n x.spilling.isSome * 2 ^ 28 + b2n x.filling.isSome * 2 ^ 27 + b2n (s.radioSet.testBit k) * 2 ^ 26
    + b2n (x.residents.any (·.guarded)) * 2 ^ 25 + t % 16 * 2 ^ 21 + c % 64 * 2 ^ 15

/-- Records of a map that hold something. -/
def someCount {α : Type} (m : NMap (Option α)) : Nat := (m.filter fun e => e.2.isSome).length

/-- WF_STATUS (Table 10-13). -/
def State.wfStatus (s : State) : Nat :=
  let f := s.fabric
  someCount f.exports % 8192 * 2 ^ 19 + someCount f.imports % 8192 * 2 ^ 6 + b2n f.fenced * 2 ^ 5
    + b2n (f.exports.any fun e => (e.2.map fun x => !x.complete).getD false) * 2 ^ 4

/-- WF_LEASE_LEFT: µs to expiry (Table 11-11). -/
def State.leaseLeft (s : State) : Nat :=
  match s.fabric.expiry with
  | some e => min 0xFFFFFFFF ((e - s.now) / 4000)
  | none => 0

/-- WF_PORT_STATUS (Table 11-12): an up port has a neighbour of lower rank (R248). -/
def State.wfPortStatus (s : State) (p : Nat) : Nat :=
  let x := NMap.get WfPort.init s.fabric.ports p
  let up := match NMap.get none s.fabric.neighbours p with
    | some n => decide (n.2 < s.fabric.rank)
    | none => false
  x.st % 8 * 2 ^ 29 + b2n up * 2 ^ 28 + x.width % 4 * 2 ^ 26 + b2n x.los * 2 ^ 25 + x.cause % 8 * 2 ^ 21

/-- SC_STATUS (Table 14-15). -/
def State.scStatus (s : State) (n : Nat) : Nat :=
  let x := s.sc n
  let st := if x.quarantined then 2 else if s.clusterHalted (n / 16) then 3 else b2n x.job.isSome
  let job := match x.job with
    | some r => b2n r.sfmode * 2 ^ 29 + min 4 r.loops.length * 2 ^ 25 + min 8 r.stack.length * 2 ^ 21 + x.entry % 64 * 2 ^ 14
    | none => 0
  st * 2 ^ 30 + b2n x.bistPass * 2 ^ 28 + job + x.pcSeen % 16384

/-- SC_CL_STATUS (Table 14-18). -/
def State.clStatus (s : State) (k : Nat) : Nat :=
  let c := s.cluster k
  b2n (s.clusterHalted k) * 2 ^ 31 + b2n c.loaded * 2 ^ 30 + b2n c.replaced * 2 ^ 29 + c.passed % 65536

/-- WE_STATUS and WE_HEALTH (Table 15-10). -/
def State.weStatus (s : State) : Nat :=
  b2n (s.pw.on.testBit 14) * 2 ^ 31 + b2n (s.rel.healthy + s.rel.engines ≠ 0) * 2 ^ 30
    + ((List.range 36).filter s.rel.engines.testBit).length

/-- A quality word of a cell (Table 15-11). -/
def State.qualityWord (s : State) (c o : Nat) : Nat :=
  match s.cell c with
  | some x => (if o = 0 then x.qEvm else if o = 4 then x.qSinr else x.qStamp) % 65536
  | none => if o = 8 then 0 else 0x8000

/-- TM_STATUS (Table 16-8). -/
def State.tmStatus (s : State) (n : Nat) : Nat :=
  let p := s.sub n
  let link := if !s.pw.on.testBit 16 then 0 else if !p.enabled then 3 else p.link % 4
  link * 2 ^ 30 + s.ethModeOf (n / 4) % 4 * 2 ^ 28 + p.paused % 256 * 2 ^ 20 + p.xoff % 256 * 2 ^ 12
    + ((List.range 64).filter fun q => (p.queue q).tenant.isSome).length * 2 ^ 5

/-- A signed value saturated to 32 bits. -/
def sat32 (x : Int) : Nat := (BitVec.ofInt 32 (max (-2147483648) (min 2147483647 x))).toNat

/-- SX_STATUS (Table 17-11). -/
def State.sxStatus (s : State) : Nat :=
  let x := s.sx
  x.out % 4 * 2 ^ 30 + x.selected % 2 * 2 ^ 29 + b2n x.slew.isSome * 2 ^ 28 + b2n x.auto * 2 ^ 27 + (x.doms[0]).st % 4 * 2 ^ 25
    + (x.doms[1]).st % 4 * 2 ^ 23 + b2n x.stepped * 2 ^ 22
    + maskOf 5 (fun j => if h : j < 5 then (x.triggers[j]).armed else false) * 2 ^ 17 + x.slewPpb % 128

/-- EV_SRC (Table 18-4). -/
def State.evSrc (s : State) (n : Nat) : Nat :=
  let x := s.src n
  if n = 0 then 0
  else x.mask % 4096 * 2 ^ 20 + b2n (sourceLevel n) * 2 ^ 19 + x.prio % 8 * 2 ^ 16 + b2n x.input * 2 ^ 12
    + (match x.owner with | some t => t % 16 | none => 15) * 2 ^ 8

/-- PW_STATUS (Table 21-14). -/
def State.pwStatus (s : State) : Nat :=
  let p := s.pw
  let clock := if s.variant.west then min (p.clock 0) (p.clock 1) else p.clock 0
  b2n p.brown.isSome * 2 ^ 31 + b2n (p.capClock < 16) * 2 ^ 30 + b2n (p.east ≥ 100 || p.west ≥ 100 || p.hub ≥ 100) * 2 ^ 29
    + b2n (p.refLost.testBit 0) * 2 ^ 28 + b2n (p.refLost.testBit 1) * 2 ^ 27 + b2n (p.refLost.testBit 2) * 2 ^ 26 + clock % 32 * 2 ^ 21

/-- ST_STATUS (Table 22-7). -/
def State.stStatus (s : State) : Nat :=
  let st := match s.pw.boot with
    | .running => if s.st.hot.isSome then 3 else 1
    | .recovery => 2
    | _ => 0
  st * 2 ^ 30 + s.st.run % 2 * 2 ^ 29 + s.st.active % 2 * 2 ^ 28 + b2n s.st.fallback * 2 ^ 27 + s.st.staged % 4 * 2 ^ 25
    + b2n (s.st.active ≠ s.st.run) * 2 ^ 24

/-- Value of a register that is no counter; `w` fills what the spec leaves open in it. -/
def State.regValue (s : State) (b : Block) (o : Nat) (w : Word) : Nat :=
  match b with
  | .mc k =>
    if o = 0 then s.mcStatus k else if o = 4 then (s.core k).repairLanes.toNat else if o = 8 then (s.core k).repairCols.toNat else 0
  | .ve k => if o = 0 then s.veStatus k w else 0
  | .coop q => s.coopStatus q
  | .tiDie d =>
    if o = 0 then b2n (s.pw.on.testBit (10 + d)) * 2 ^ 31
      + ((List.range 64).filter fun ch => NMap.get false s.rel.channels (64 * d + ch)).length * 2 ^ 16 + 20 * 2 ^ 8
    else
      let pinned := s.pinnedBytes true d / 1024
      let radio := if s.pw.on.testBit (8 + d) then min 8192 (max pinned (w.toNat % 8193)) else 0
      radio * 2 ^ 16 + min 32768 (s.pinnedBytes false d / 1024)
  | .dp d =>
    if o = 0 then
      let p := if d = 0 then (s.cqUsed.1, s.cqPeak.1) else (s.cqUsed.2, s.cqPeak.2)
      p.1 % 2048 * 2 ^ 21 + p.2 % 2048 * 2 ^ 10
    else if o = 8 then s.radioSet % 2 ^ 32
    else if o = 12 then s.radioSet / 2 ^ 32 % 2 ^ 32
    else if o = 0x40 then s.guard % 2048
    else if o ≥ 0x100 then s.coreRes (32 * d + (o - 0x100) / 4) else 0
  | .wf =>
    if o = 0 then s.wfStatus
    else if o = 0x800 then s.fabric.st % 4 * 2 ^ 30 + b2n s.fabric.leased * 2 ^ 29 + s.fabric.node % 65536
    else if o = 0x804 then s.fabric.partition % 65536 * 65536 + s.fabric.rank % 65536
    else if o = 0x808 then s.fabric.epoch
    else if o = 0x80C then s.leaseLeft else 0
  | .wp p =>
    let x := NMap.get WfPort.init s.fabric.ports p
    if o = 0 then s.wfPortStatus p else if o = 4 then x.nRank % 65536 * 65536 + x.nNode % 65536 else x.delay % 2 ^ 24
  | .image => Memory.word s.fabric.image o
  | .sc n => if o = 0 then s.scStatus n else if o = 8 then (s.sc n).fault.1 % 16 * 2 ^ 28 + (s.sc n).fault.2 % 16384 else 0
  | .cl k => if o = 0 then s.clStatus k else if o = 4 then b2n (s.cluster k).halt else (s.cluster k).flags.toNat
  | .window k => ((s.cluster k).word (o / 4)).toNat
  | .we =>
    if o = 0 then s.weStatus else if o = 8 then s.rel.healthy % 2 ^ 32 else if o = 12 then s.rel.healthy / 2 ^ 32 % 16 else 0
  | .quality c => s.qualityWord c o
  | .tm n => if o = 0 then s.tmStatus n else 0
  | .sx =>
    let d (i : Nat) := if i = 0 then s.sx.doms[0] else s.sx.doms[1]
    if o = 0 then s.sxStatus
    else if o = 0x10 ∨ o = 0x14 then sat32 ((d ((o - 0x10) / 4)).offset / sxUnit)
    else if o = 0x18 ∨ o = 0x1C then sat32 (d ((o - 0x18) / 4)).rate else 0
  | .ev =>
    if o = 0 then b2n s.ev.disable
    else if 0x100 ≤ o ∧ o < 0x120 then maskOf 32 fun j => (s.src (32 * ((o - 0x100) / 4) + j)).pending
    else if 0x120 ≤ o ∧ o < 0x140 then maskOf 32 fun j => (s.src (32 * ((o - 0x120) / 4) + j)).owner.isSome
    else if 0x1000 ≤ o ∧ o < 0x1400 then s.evSrc ((o - 0x1000) / 4)
    else if o % 16 = 0 then NMap.get 0 s.ev.thresh ((o - 0x2000) / 16) % 16 else 0
  | .pw =>
    let p := s.pw
    if o = 0 then s.pwStatus
    else if o = 8 then p.on % 2 ^ 20
    else if o = 12 then p.watts % 65536 * 65536 + p.vin % 65536
    else if o = 0x10 then p.east % 256 * 2 ^ 24 + (if s.variant.west then p.west % 256 else 0) * 2 ^ 16 + p.hub % 256 * 2 ^ 8 + p.peak % 256
    else if o = 0x14 then p.maddr % 8 * 64 + p.slotStrap % 64 else 0
  | .st =>
    if o = 0 then s.stStatus
    else if o = 4 then s.fwVersion
    else if o = 8 then s.st.security
    else if o = 12 then 2 ^ 20 - s.st.sigIndex
    else if o < 0x1000 then s.pw.dpower.getD ((o - 0x100) / 4) 0 % 65536
    else leNat ((List.range 4).map fun i => Config.idKey (o - 0x1000 + i))
  | .stage => Memory.word s.st.stage o
  | .tiCtx | .none_ => 0

/-- Count a _LO word stands for: SX_LOCAL's is the local counter (R377). -/
def State.countAt (s : State) (a : Nat) : Nat := if a = aSX 0x008 then s.now % 2 ^ 64 else s.count a

/-- A register whose value the spec leaves open in part: VE_STATUS and TI_PIN_BYTES. -/
def regOpen (b : Block) (o : Nat) : Bool :=
  match b with
  | .ve _ => o = 0
  | .tiDie _ => o = 4
  | _ => false

/-- A read of a register word: its value, and what the read does: a _LO word captures, an rc field clears (R10, R87). -/
def State.regRead (s : State) (a : Nat) : Word × State :=
  let (b, o) := blockOf a
  if blockAbsent s.variant b then (0, s)
  else if s.blockOff b then (BitVec.ofNat 32 (offValue b o), s)
  else match regWord a with
  | .reserved => (0, s)
  | .ctrLo => (BitVec.ofNat 32 (s.countAt a), { s with cap := NMap.set 0 s.cap a (s.countAt a) })
  | .ctrHi => (BitVec.ofNat 32 (NMap.get 0 s.cap (a - 4) / 2 ^ 32), s)
  | .word _ =>
    let (w, s1) := if regOpen b o then s.draw else (0, s)
    let v := BitVec.ofNat 32 (s.regValue b o w)
    match b with
    | .sc n => (v, if o = 8 then s1.setSc n { s1.sc n with fault := (0, 0) } else s1)
    | _ => (v, s1)

/-! ### Writes -/

/-- MC_CTL.CLEAR (R87). -/
def clearMc (k : Nat) (s : State) : State := s.clearCounters (aMC k 0) (aMC k 0x1000)
/-- VE_CTL.CLEAR (R152). -/
def clearVe (k : Nat) (s : State) : State := s.clearCounters (aVE k 0) (aVE k 0x1000)
/-- DP_CTL.CLEAR (R209, Table 9-13). -/
def clearDp (d : Nat) (s : State) : State :=
  let s1 := s.clearCounters (aDP d 0) (aDP d 0x1000)
  { s1 with cqPeak := if d = 0 then (s.cqUsed.1, s.cqPeak.2) else (s.cqPeak.1, s.cqUsed.2) }
/-- WF_CTL.CLEAR (R238, R261). -/
def clearWf (s : State) : State := s.clearCounters (aWF 0) (aWF 0x2000)
/-- TM_CTL.CLEAR (R363). -/
def clearTm (n : Nat) (s : State) : State := s.clearCounters (aTM n 0) (aTM n 0x1000)
/-- SX_CTL.CLEAR (R377). -/
def clearSx (s : State) : State := s.clearCounters (aSX 0x010) (aSX 0x1000)

/-- The state after a command whose outcome is known to be a next state. -/
def after (s : State) (o : Host.Outcome State Fault Refusal) : State :=
  match o with
  | .next t => t
  | _ => s

/-- What a write of a present, powered register does: rw fields take the value, wo fields act, the rest is ignored (R10). -/
def State.regEffect (s : State) (b : Block) (o : Nat) (v : Word) : State :=
  let clear := v.toNat.testBit 0
  match b with
  | .mc k => if o = 0x00C && clear then clearMc k s else s
  | .ve k => if o = 0x004 && clear then clearVe k s else s
  | .dp d => if o = 0x004 && clear then clearDp d s else s
  | .wf => if o = 0x004 && clear then clearWf s else s
  | .image => { s with fabric := { s.fabric with image := Memory.writeN s.fabric.image o (leBytes 4 v.toNat) } }
  | .sc n => if o = 0x004 && clear then s.clearCounters (aSC n 0) (aSC n 0x1000) else s
  | .cl k =>
    if o = 0x004 then
      let s1 := if v.toNat.testBit 1 then s.clearCounters (aSCC k 0) (aSCC k 0x1000) else s
      scClHalt k clear s1
    else s
  | .window k => scWindowWrite k (o / 4) v s
  | .we => if o = 0x004 && clear then s.clearCounters (aWE 0x010) (aWE 0x1000) else s
  | .tm n => if o = 0x004 && clear then clearTm n s else s
  | .sx => if o = 0x004 && clear then clearSx s else s
  | .ev =>
    if o = 0 then
      let s1 := if v.toNat.testBit 1 then s.clearCounters (aEV 0) (aEV 0x1000) else s
      { s1 with ev := { s1.ev with disable := clear } }
    else if 0x1000 < o ∧ o < 0x1400 then
      let n := (o - 0x1000) / 4
      s.setSrc n { s.src n with mask := bits v.toNat 31 20, prio := bits v.toNat 18 16 }
    else if 0x2000 ≤ o ∧ o < 0x20C0 ∧ o % 16 = 0 then
      { s with ev := { s.ev with thresh := NMap.set 0 s.ev.thresh ((o - 0x2000) / 16) (v.toNat % 16) } }
    else s
  | .pw => if o = 0x004 && clear then after s (execPwCtlClear s) else s
  | .stage => { s with st := { s.st with stage := Memory.writeN s.st.stage o (leBytes 4 v.toNat) } }
  | _ => s

/-- A write of a register word; reserved bits of it change nothing. -/
def State.regWrite (s : State) (a : Nat) (v : Word) : State :=
  let (b, o) := blockOf a
  if a % 4 ≠ 0 ∨ blockAbsent s.variant b ∨ s.blockOff b then s
  else match regWord a with
  | .word _ => s.regEffect b o v
  | _ => s

/-- Bits of a word that a REG_WRITE may set (R11). -/
def regMask (a : Nat) : Nat :=
  match regWord a with
  | .reserved => 0
  | .word m => m
  | _ => 0xFFFFFFFF

/-- A REG_WRITE sets a reserved field or writes a reserved word with a value other than 0; in a block whose port number does not
exist writes are ignored (R363). -/
def State.writeReserved (s : State) (a : Nat) (v : Word) : Bool :=
  match (blockOf a).1 with
  | .tm n => s.portExists n && v.toNat &&& (0xFFFFFFFF - regMask a) ≠ 0
  | _ => v.toNat &&& (0xFFFFFFFF - regMask a) ≠ 0

/-! ### CLEAR and capture as events (R87, R152, R209, R238, R363, R377) -/

/-- COUNTER_LO_READ. -/
def counterLoRead (a : Nat) (s : State) : State :=
  if regWord a = .ctrLo then
    let (v, s1) := s.regRead a
    { s1 with readData := [v] }
  else s

/-- COUNTER_LO_READ (R87). -/
def execCounterLoRead (addr : Nat) (s : State) : Host.Outcome State Fault Refusal := .next (counterLoRead addr s)

/-- A write of 1 to the CLEAR bit of the block's control register. -/
def clearBit (a : Nat) (s : State) : State := s.regWrite a 1

/-- MC_CTL_CLEAR. -/
def execMcCtlClear (core : Nat) (s : State) : Host.Outcome State Fault Refusal :=
  .next (if core < 64 then clearBit (aMC core 0x00C) s else s)
/-- VE_CTL_CLEAR. -/
def execVeCtlClear (core : Nat) (s : State) : Host.Outcome State Fault Refusal :=
  .next (if core < 64 then clearBit (aVE core 0x004) s else s)
/-- DP_CTL_CLEAR. -/
def execDpCtlClear (die : Nat) (s : State) : Host.Outcome State Fault Refusal :=
  .next (if die < 2 then clearBit (aDP die 0x004) s else s)
/-- WF_CTL_CLEAR. -/
def execWfCtlClear (s : State) : Host.Outcome State Fault Refusal := .next (clearBit (aWF 0x004) s)
/-- TM_CTL_CLEAR. -/
def execTmCtlClear (port : Nat) (s : State) : Host.Outcome State Fault Refusal :=
  .next (if port < 16 then clearBit (aTM port 0x004) s else s)
/-- SX_CTL_CLEAR. -/
def execSxCtlClear (s : State) : Host.Outcome State Fault Refusal := .next (clearBit (aSX 0x004) s)

/-! ### BAR0 (R50–R52, Tables 2-4, 2-7, 3-3 to 3-9a) -/

/-- Bits of HW_REPLY_MOD that are rw. -/
def replyModMask : Word := 0x03FF01FF

/-- What a read of a BAR0 word of a function returns (Tables 3-2 to 3-9a, 2-4, 2-7): window bytes, reserved offsets and wo fields read zero,
and MSI-X table words as last written (R50). No row of the table but HW_NOTICE_DROP_READ brings such a read, and only that one has an effect. -/
def State.barRead (s : State) (fn off : Nat) : Word :=
  let f := s.fn fn
  let open_ := (List.range 64).filter fun c => (s.ctx fn c).st ≠ .closed
  if 0x18000 ≤ off ∧ off < 0x1C000 then NMap.get 0 s.regs (fn * 2 ^ 20 + off)
  else match off with
  | 0x10000 => BitVec.ofNat 32 (b2n f.ready * 2 ^ 31 + b2n f.halted * 2 ^ 30 + f.haltCause * 2 ^ 28 + f.expect / 65536 % 65536)
  | 0x10004 => f.replyMod
  | 0x10008 => f.baseLo
  | 0x1000C => f.baseHi
  | 0x10010 => BitVec.ofNat 32 (b2n f.enable * 2 ^ 31 + f.vector * 2 ^ 16 + f.sizeLog2)
  | 0x10014 => BitVec.ofNat 32 f.head
  | 0x10018 => BitVec.ofNat 32 f.tail
  | 0x1001C => BitVec.ofNat 32 (b2n (s.tenant fn).provisioned * 2 ^ 31 + b2n f.hostLost * 2 ^ 30 + b2n f.hbExpired * 2 ^ 29
      + min 256 f.held.length * 2 ^ 16 + open_.length * 2 ^ 8 + open_.countP fun c => (s.ctx fn c).st = .dead)
  | 0x10024 => if fn = 0 then BitVec.ofNat 32 (b2n s.link.muted * 2 ^ 31 + b2n s.link.holdover * 2 ^ 30 + s.link.holdoverMs % 65536) else 0
  | 0x10028 => BitVec.ofNat 32 f.noticeDrop
  | _ => 0

/-- HW_NOTICE_DROP read: the value, then cleared (Table 3-9a, R10 rc). -/
def hwNoticeDropRead (fn : Nat) (s : State) : State :=
  if fn > 15 then s
  else { s.setFn fn { s.fn fn with noticeDrop := 0 } with readData := [s.barRead fn 0x10028] }

/-- HW_NOTICE_DROP_READ. -/
def execHwNoticeDropRead (fn : Nat) (s : State) : Host.Outcome State Fault Refusal := .next (hwNoticeDropRead fn s)

/-- A write of a BAR0 word of a function; reserved offsets and fields ignore it (R50). MSI-X table words are kept as written. -/
def barWrite (fn off : Nat) (v : Word) (s : State) : State :=
  let f := s.fn fn
  if fn > 15 then s
  else if 0x18000 ≤ off ∧ off < 0x1C000 then { s with regs := NMap.set 0 s.regs (fn * 2 ^ 20 + off) v }
  else match off with
  | 0x10000 => if v.toNat.testBit 16 then hwWinCtlResync fn s else s
  | 0x10004 => s.setFn fn { f with replyMod := v &&& replyModMask }
  | 0x10008 => if f.enable then s else s.setFn fn { f with baseLo := v &&& 0xFFFFF000 }
  | 0x1000C => if f.enable then s else s.setFn fn { f with baseHi := v }
  | 0x10010 => ringCfgWrite fn v s
  | 0x10014 => hwRingHeadWrite fn v s
  | 0x10020 => hwHeartbeatWrite fn v s
  | 0x10024 => if fn = 0 then { s with link := { s.link with holdoverMs := v.toNat % 65536 } } else s
  | _ => s

/-- REGISTER_WRITE (R10). A poisoned write TLP to a HW_ register, whichever it is, is ignored and reported through AER (R67). -/
def execRegisterWrite (r : RegPlace) (v : Word) (s : State) : Host.Outcome State Fault Refusal :=
  .next (match r with
    | .bar fn off => barWrite fn off v s
    | .barPoisoned fn _ => if fn > 15 then s else s.aerEvent 12
    | .internal a => s.regWrite a v)

/-! ### REG_READ and REG_WRITE (R459) -/

def rrAddr (c : Cmd) : Nat := c.p 0 4
def rrCount (c : Cmd) : Nat := c.p 4 2
def rwValue (c : Cmd) : Word := BitVec.ofNat 32 (c.p 4 4)

def resvRegRead (_ : State) (c : Cmd) : Bool := zeroAt c.params 6 10
def resvRegWrite (_ : State) (c : Cmd) : Bool := zeroAt c.params 8 8

/-- The words a REG_READ names; where its count is out of range, the address alone. -/
def rrWords (c : Cmd) : List Nat :=
  let n := if 1 ≤ rrCount c ∧ rrCount c ≤ 4 then rrCount c else 1
  (List.range n).map fun i => rrAddr c + 4 * i

/-- Check 1 of R459. -/
def rrAbsent (s : State) (c : Cmd) : Bool :=
  (List.range (max 1 (rrCount c))).any fun i => blockAbsent s.variant (blockOf (rrAddr c + 4 * i)).1
def rwAbsent (s : State) (c : Cmd) : Bool := blockAbsent s.variant (blockOf (rrAddr c)).1

def checkRegRead (s : State) (c : Cmd) : Option Fail :=
  if rrAbsent s c then some (stUnitAbsent, [])
  else if rrAddr c % 4 ≠ 0 then failWith stShape 0xD4
  else if rrCount c = 0 ∨ rrCount c > 4 then failWith stShape 0xD5 else none

def checkRegWrite (s : State) (c : Cmd) : Option Fail :=
  if rwAbsent s c then some (stUnitAbsent, [])
  else if rrAddr c % 4 ≠ 0 then failWith stShape 0xD4
  else if s.writeReserved (rrAddr c) (rwValue c) then some (stReserved, []) else none

/-- Read words in order. -/
def readWords : List Nat → State → List Byte × State
  | [], s => ([], s)
  | a :: as, s =>
    let (v, s1) := s.regRead a
    let (r, s2) := readWords as s1
    (leBytes 4 v.toNat ++ r, s2)

def runRegRead (s : State) (c : Cmd) : State :=
  let (bs, s1) := readWords (rrWords c) s
  s1.ok c.id bs

def runRegWrite (s : State) (c : Cmd) : State := (s.regWrite (rrAddr c) (rwValue c)).ok c.id []

/-- REG_READ. -/
def execOpRegRead (id : Nat) (s : State) : Host.Outcome State Fault Refusal := .next (runCoreless 0xE004 checkRegRead runRegRead id s)
/-- REG_WRITE. -/
def execOpRegWrite (id : Nat) (s : State) : Host.Outcome State Fault Refusal := .next (runCoreless 0xE005 checkRegWrite runRegWrite id s)

end Sys2Proof.Machine
end

