-- ==== Sys2Proof/Machine/Checks.lean ====
section
/-! DEFINITION. Each opcode's own part of checks 7 and 10 (Table 2-5). -/
namespace Sys2Proof.Machine

/-! ### Each opcode's own tests -/

/-- The opcode's own part of check 7. -/
def opReserved (s : State) (c : Cmd) : Bool :=
  match c.opcode with
  | 0x0005 => resvContextOpen s c
  | 0x1001 => resvAlloc c
  | 0x1002 | 0x1011 | 0x1012 | 0x1013 => resvRef8 c
  | 0x1003 => resvCopy c
  | 0x1004 => resvFill c
  | 0x1010 => resvPromote c
  | 0x1014 => resvTierQuery c
  | 0x1020 => resvHint c
  | 0x2001 => resvChain s c
  | 0x2002 => resvVectorRun s c
  | 0x2003 => resvVectorLoad s c
  | 0x2004 => resvReduce s c
  | 0x2005 => resvGather s c
  | 0x2010 => resvStepCompose s c
  | 0x2011 => resvSeqSubmit s c
  | 0x2012 => resvSeqCancel s c
  | 0x2013 => resvSample s c
  | 0x3001 => resvTokenSignal s c
  | 0x3002 => resvTokenWait s c
  | 0x3003 => resvFence s c
  | 0x3004 => resvBarrierArm s c
  | 0x4001 => resvRegionExport s c
  | 0x4002 => resvRegionImport s c
  | 0x4003 => resvRegionRevoke s c
  | 0x4004 => resvTransfer s c
  | 0x4010 => resvRowsSend s c
  | 0x4011 => resvRowsCombine s c
  | 0x4020 => resvLeaseSet s c
  | 0x4021 => resvPartitionSet s c
  | 0x5001 => resvCellConfig s c
  | 0x5002 => resvCellStart s c
  | 0x5003 => resvCellStop s c
  | 0x5010 | 0x5011 => resvFapi s c
  | 0x5020 => resvRadioReserve s c
  | 0x5030 => resvHeadControl s c
  | 0x6001 => resvDomainConfig s c
  | 0x6002 => resvDomainSelect s c
  | 0x6003 => resvTriggerSet s c
  | 0x6004 => resvCaptureRead s c
  | 0x7001 => resvPortConfig s c
  | 0x7002 => resvQueueConfig s c
  | 0x7003 => resvPolicerConfig s c
  | 0x7004 => resvShaperConfig s c
  | 0x8001 => resvErrorLogRead s c
  | 0x8002 => resvCheckConfig s c
  | 0x8003 => resvScrub s c
  | 0x8004 => resvInject s c
  | 0x8005 => resvQuarantineQuery s c
  | 0x9001 => resvRecordStart s c
  | 0x9003 => resvReplayStart s c
  | 0x9004 => resvSeedSet s c
  | 0xE001 => resvFwStage s c
  | 0xE002 => resvFwActivate s c
  | 0xE003 => resvAttest s c
  | 0xE004 => resvRegRead s c
  | 0xE005 => resvRegWrite s c
  | 0xE006 => resvPowerPolicy s c
  | 0xE007 => resvTenantProvision s c
  | _ => true

/-- The opcode's own checks; `compose` is that of STEP_COMPOSE, and HELLO's version offer is header byte 2. -/
def opCheckOf (compose : State → Cmd → Option Fail) (bs : List Byte) (s : State) (c : Cmd) : Option Fail :=
  match c.opcode with
  | 0x0001 => checkHello (fieldAt bs 2 1) s c
  | 0x0002 => checkCaps s c
  | 0x0005 => checkContextOpen s c
  | 0x1001 => checkAlloc s c
  | 0x1002 => checkFree s c
  | 0x1003 => checkCopy s c
  | 0x1004 => checkFill s c
  | 0x1010 => checkPromote s c
  | 0x1011 => checkEvict s c
  | 0x1012 => checkPin s c
  | 0x1013 => checkUnpin s c
  | 0x1014 => checkTierQuery s c
  | 0x1020 => checkHint s c
  | 0x2001 => checkChain s c
  | 0x2002 => checkVectorRun s c
  | 0x2003 => checkVectorLoad s c
  | 0x2004 => checkReduce s c
  | 0x2005 => checkGather s c
  | 0x2010 => compose s c
  | 0x2011 => checkSeqSubmit s c
  | 0x2013 => checkSample s c
  | 0x3001 => checkTokenSignal s c
  | 0x3002 => checkTokenWait s c
  | 0x3004 => checkBarrierArm s c
  | 0x4001 => checkRegionExport s c
  | 0x4002 => checkRegionImport s c
  | 0x4003 => checkRegionRevoke s c
  | 0x4004 => checkTransfer s c
  | 0x4010 => checkRowsSend s c
  | 0x4011 => checkRowsCombine s c
  | 0x4020 => checkLeaseSet s c
  | 0x4021 => checkPartitionSet s c
  | 0x5001 => checkCellConfig s c
  | 0x5002 => checkCellStart s c
  | 0x5003 => checkCellStop s c
  | 0x5010 | 0x5011 => checkFapi s c
  | 0x5020 => checkRadioReserve s c
  | 0x5030 => checkHeadControl s c
  | 0x6001 => checkDomainConfig s c
  | 0x6002 => checkDomainSelect s c
  | 0x6003 => checkTriggerSet s c
  | 0x6004 => checkCaptureRead s c
  | 0x7001 => checkPortConfig s c
  | 0x7002 => checkQueueConfig s c
  | 0x7003 => checkPolicerConfig s c
  | 0x7004 => checkShaperConfig s c
  | 0x8001 => checkErrorLogRead s c
  | 0x8002 => checkCheckConfig s c
  | 0x8003 => checkScrub s c
  | 0x8004 => checkInject s c
  | 0x8005 => checkQuarantineQuery s c
  | 0x9001 => checkRecordStart s c
  | 0x9002 => checkRecordStop s c
  | 0x9003 => checkReplayStart s c
  | 0x9004 => checkSeedSet s c
  | 0xE001 => checkFwStage s c
  | 0xE002 => checkFwActivate s c
  | 0xE003 => checkAttest s c
  | 0xE004 => checkRegRead s c
  | 0xE005 => checkRegWrite s c
  | 0xE006 => checkPowerPolicy s c
  | 0xE007 => checkTenantProvision s c
  | _ => none

end Sys2Proof.Machine
end

