-- ==== Sys2Proof/Machine/Composer.lean ====
section
/-! DEFINITION. The step composer (R197–R203): STEP_COMPOSE, the step program, the serving loop's steps and their watchdog. -/
namespace Sys2Proof.Machine

/-! ### The step program (R198) -/

/-- Opcodes a step program may hold. -/
def programOps : List Nat := [0x0004, 0x1003, 0x1004, 0x2001, 0x2002, 0x2004, 0x2005, 0x3001, 0x3002, 0x4010, 0x4011]

/-- Cut a run of packets by their header lengths; the last piece is what remains where a length is out of range. -/
def cutPackets : Nat → List Byte → List (List Byte)
  | 0, _ => []
  | _ + 1, [] => []
  | k + 1, b :: bs =>
    let all := b :: bs
    let n := 16 * fieldAt all 4 2
    if n < 32 ∨ n > 4096 ∨ n > all.length then [all] else all.take n :: cutPackets k (all.drop n)

/-- A packet of a step program as a command of context `x`. -/
def programCmd (bs : List Byte) (t : Nat) : Cmd := { parseCmd bs (if t = 0 then .pf else .vf) t with program := true }

/-- Checks 2 to 10 of one packet as if written to the tenant's window, check 9 where `ctx9` is set, then its opcode and context (R198). Of a
packet that passes them all but is excluded by its opcode or context the manual states no status: a free value (log 4). `compose` is check
10 of a STEP_COMPOSE among the packets. -/
def programPacket (compose : State → Cmd → Option Fail) (s : State) (t x version : Nat) (ctx9 : Bool) (bs : List Byte) : Option Fail :=
  let c := programCmd bs t
  let n := 16 * fieldAt bs 4 2
  let odd : Fail := ((Config.freeWord s.free).toNat % 65536, [])
  firstFail [(32 ≤ n && n ≤ 4096 && n = bs.length, (stBadLength, [])), (sealOk bs (bs.length - 8), (stBadSeal, []))]
    <|> formChecks s version bs c opReserved
    <|> (if ctx9 then s.contextCheck c.opcode t c.ctx else none)
    <|> opCheckOf compose bs s c
    <|> firstFail [(programOps.contains c.opcode && c.ctx = x, odd)]

/-- The first packet of a run that fails, and its status. -/
def programFault (compose : State → Cmd → Option Fail) (s : State) (t x version : Nat) : Nat → List (List Byte) → Option (Nat × Nat)
  | _, [] => none
  | i, bs :: rest =>
    match programPacket compose s t x version true bs with
    | some f => some (i, f.1)
    | none => programFault compose s t x version (i + 1) rest

/-! ### STEP_COMPOSE (R197, Table 9-5) -/

/-- Check 3: the step program. One that cannot be read fails at packet 0 with the status of the read; a line of it that is still to come from
another module or to be corrected is judged when the command starts. -/
def composeProgram (compose : State → Cmd → Option Fail) (s : State) (c : Cmd) : Option Fail :=
  let fault (i st : Nat) : Option Fail := some (stShape, leBytes 1 0x55 ++ leBytes 3 0 ++ leBytes 4 i ++ leBytes 2 st)
  match s.consume c.id c.tenant (c.p 0 8) 0 (c.p 8 4) with
  | .error f => if f.1 = stAsk then none else fault 0 f.1
  | .ok bs => match programFault compose s c.tenant c.ctx (s.fn c.tenant).version 0 (cutPackets (bs.length + 1) bs) with
    | some (i, st) => fault i st
    | none => none

/-- The checks of a STEP_COMPOSE; `compose` judges one that its program holds. -/
def checkCompose (compose : State → Cmd → Option Fail) (s : State) (c : Cmd) : Option Fail :=
  firstFail (refChecks s c [(c.p 0 8, c.p 8 4), (c.p 16 8, 64 + 16 * c.scBudget), (c.p 24 8, ceilDiv c.scBudget 8),
      (c.p 32 8, 4 * c.scMaxLen * c.scMaxSeqs), (c.p 40 8, 4 * c.scBudget * c.scVocab)]
    ++ [need (composeFields c) stShape 0x56])
  <|> composeProgram compose s c
  <|> firstFail [need (!(s.ctx c.tenant c.ctx).busy) stNoResources 4]

/-- Checks of STEP_COMPOSE (R197). A STEP_COMPOSE in its program may stand in none, so what such a one's own program holds fails by its
opcode whatever its checks would say. -/
def checkStepCompose (s : State) (c : Cmd) : Option Fail := checkCompose (checkCompose fun _ _ => none) s c

/-- STEP_COMPOSE sets the serving configuration, once the whole program has been read and judged. -/
def runStepCompose (s : State) (c : Cmd) : State :=
  let cfg : Serving :=
    { program := c.p 0 8, programBytes := c.p 8 4, budget := c.scBudget, chunk := c.scChunk, batch := c.p 16 8, rowMask := c.p 24 8,
      kvRows := c.p 32 8, logits := c.p 40 8, vocab := c.scVocab, maxLen := c.scMaxLen, pages := c.p 56 4, maxSeqs := c.scMaxSeqs,
      watchdog := c.p 62 2 }
  match s.consume c.id c.tenant (c.p 0 8) 0 (c.p 8 4), checkStepCompose s c with
  | .error f, none => s.fail c.id f.1 f.2
  | _, some f => (s.setCmd { c with signals := [] }).finish c.id f.1 f.2
  | .ok _, none => (s.setCtx c.tenant c.ctx { s.ctx c.tenant c.ctx with serving := some cfg }).ok c.id []

/-- STEP_COMPOSE. -/
def execOpStepCompose (id : Nat) (s : State) : Host.Outcome State Fault Refusal := .next (runCoreless 0x2010 checkStepCompose (reading runStepCompose) id s)

/-! ### Steps (R199, R202) -/

/-- Issue the packets of the step program into the context, as if accepted now (R202). One that fails its checks fails the step. -/
def issueProgram (t c : Nat) : List (List Byte) → State → State
  | [], s => s
  | bs :: rest, s =>
    let x := s.ctx t c
    match programPacket (checkCompose fun _ _ => none) s t c (s.fn t).version false bs with
    | some f => s.setCtx t c { x with stepFailed := some (f.1, 0) }
    | none =>
      let p := programCmd bs t
      let id := s.nextId + 1
      let cmd := { p with id := id, acceptedAt := s.now, prev := if p.ordered then x.last else none }
      issueProgram t c rest ({ s with cmds := s.cmds ++ [cmd], nextId := id }.setCtx t c { x with last := some id })

/-- Batch table, row mask, then the packets of the step program. -/
def stepWrites (s : State) (t c : Nat) (cfg : Serving) (table mask : List Byte) : State :=
  let w := writeAll t c 0 false [(cfg.batch, 0, table), (cfg.rowMask, 0, mask)] s
  match w.2, s.consume 0 t cfg.program 0 cfg.programBytes with
  | some f, _ => w.1.setCtx t c { w.1.ctx t c with stepFailed := some (f.1, 0) }
  | none, .error f => w.1.setCtx t c { w.1.ctx t c with stepFailed := some (f.1, 0) }
  | none, .ok bs => issueProgram t c (cutPackets (bs.length + 1) bs) w.1

/-- Begin a step. A table that cannot be written, a program that cannot be read or a packet that fails its checks fails the step. -/
def beginStep (s : State) (t c : Nat) (cfg : Serving) : State :=
  let x := s.ctx t c
  let dec := decodeRows x.running
  let pre := prefillRows cfg x.running dec.length
  let rows := dec ++ pre.1
  let samples : List SampleRow := (List.range rows.length).filterMap fun i =>
    (rows[i]?).bind fun r => if r.flags.testBit 0 then some { row := i, ident := r.ident } else none
  let s1 := s.setCtx t c { x with running := pre.2, stepping := some (samples, none), sampling := false, stepFailed := none, stepSlow := 0 }
  let s2 := stepWrites s1 t c cfg (batchTable x.step dec.length rows) (rowMaskBytes rows.length cfg.budget)
  match (s2.ctx t c).stepFailed with
  | some (st, cause) => failStep s2 t c st cause
  | none => s2

/-- SERVING_STEP: the step composer of a context goes on: it ends the step in progress once every packet of it has completed, else
it admits sequences and begins the next step. -/
def servingStep (t c : Nat) (s : State) : State :=
  let x := s.ctx t c
  match x.serving with
  | none => s
  | some cfg =>
    match x.stepping with
    | some (rows, _) =>
      if s.cmds.any fun d => d.program && d.tenant = t && d.ctx = c then s
      else
        let s1 := if x.sampling then s else s.setCtx t c { x with step := x.step + 1, sampling := true }
        sampleStep t c cfg rows s1
    | none =>
      if x.st = .dead then s.endSequences t c stContextDead 5 0
      else if s.stalled t ∨ x.st = .closed ∨ s.cmds.any fun d => d.program && d.tenant = t && d.ctx = c then s
      else
        let s1 := admitAll t c cfg (x.queue.length + 1) s
        if (s1.ctx t c).running.isEmpty then s1 else beginStep s1 t c cfg

/-- SERVING_STEP. -/
def execServingStep (tenant ctx : Nat) (s : State) : Host.Outcome State Fault Refusal := .next (servingStep tenant ctx s)

/-- STEP_WATCHDOG: a step reaches its period (R203), measured from the start of its first packet: the context dies, every sequence ends with
OVERRUN 0x03. Waits under R37 do not count, and time at a reduced clock accrues as R426 gives. -/
def stepWatchdog (t c : Nat) (s : State) : State :=
  match (s.ctx t c).serving, s.stepStart t c with
  | some cfg, some start =>
    let ms := if cfg.watchdog = 0 then (s.tenant t).watchdog else cfg.watchdog
    if 16 * s.now ≥ 16 * (start + msec ms) + (s.ctx t c).stepSlow then
      failStep (s.addLog { LogRec.none_ with cls := 6, outcome := 5, tenant := t, ctx := c, status := stOverrun }) t c stOverrun 3
    else s
  | _, _ => s

/-- STEP_WATCHDOG. -/
def execStepWatchdog (tenant ctx : Nat) (s : State) : Host.Outcome State Fault Refusal := .next (stepWatchdog tenant ctx s)

end Sys2Proof.Machine
end

