-- ==== Sys2Proof/Machine/Accept.lean ====
section
/-! DEFINITION. Packets enter the machine: through windows (R26, R30, R33), the management port (R38), the remote-command entry
(R39) and from record rings (R417). -/
namespace Sys2Proof.Machine

/-- Check 10: the opcode's own checks at acceptance. -/
def opCheck (bs : List Byte) (s : State) (c : Cmd) : Option Fail := opCheckOf checkStepCompose bs s c

/-- Effects that take place at acceptance (R33). -/
def opAccepted (bs : List Byte) (s : State) (c : Cmd) : State :=
  match c.opcode with
  | 0x0001 => helloAccepted (fieldAt bs 2 1) s c
  | 0x0002 => capsAccepted s c
  | 0x0005 => openAccepted s c
  | 0x0006 => closeAccepted s c
  | 0x0007 => resetAccepted s c
  | 0x4003 => revokeAccepted s c
  | 0x4021 => if psAction c = 2 then detachAccepted s c else s
  | 0x6001 => domainAccepted s c
  | 0x8005 => quarantineAccepted s c
  | 0xE006 => powerAccepted s c
  | _ => s

/-! ### Acceptance -/

/-- A parsed packet stamped with its acceptance: number, local counter and output time. -/
def State.stamp (s : State) (c : Cmd) : Cmd := { c with id := s.nextId + 1, acceptedAt := s.now, acceptedOut := s.sx.time }

/-- A command joins its interpreter's queue. -/
def State.enqueue (s : State) (c : Cmd) : State := { s with cmds := s.cmds ++ [c], nextId := c.id }

/-- The command a packet is ordered after (R26): the previous packet of its context or, for scope T, of its window. -/
def State.previous (s : State) (c : Cmd) : Option Nat :=
  if scopeC c.opcode then (s.ctx c.tenant c.ctx).last else (s.fn c.tenant).lastT

/-- Note a packet as the previous one of those to come; one that has completed leaves nothing to wait for. CONTEXT_RESET starts its
context afresh (R26). -/
def State.noteLast (s : State) (c : Cmd) (id : Option Nat) : State :=
  let id := if c.opcode = 0x0007 then none else id
  if !scopeC c.opcode then s.setFn c.tenant { s.fn c.tenant with lastT := id }
  else if c.ctx < 64 ∧ (s.ctx c.tenant c.ctx).st ≠ .closed then s.setCtx c.tenant c.ctx { s.ctx c.tenant c.ctx with last := id }
  else s

/-- Packets that name a context are recorded as they are accepted, but RECORD_STOP and STEP_READ (R416). -/
def State.recordPacket (s : State) (c : Cmd) (bs : List Byte) : State :=
  if scopeC c.opcode ∧ c.opcode ≠ 0x9002 ∧ c.opcode ≠ 0x9005 then s.record c.tenant c.ctx 1 bs false else s

/-- A command that has passed every check enters the machine. -/
def State.accept (s : State) (c : Cmd) (bs : List Byte) : State :=
  opAccepted bs ((s.enqueue c).recordPacket c bs) c

/-! ### Windows (R30, R33, R37, R418) -/

/-- During a replay the context's window packets fail check 10, but CONTEXT_RESET and CONTEXT_CLOSE (R418). -/
def replayBars (s : State) (c : Cmd) : Option Fail :=
  if scopeC c.opcode ∧ c.opcode ≠ 0x0006 ∧ c.opcode ≠ 0x0007 ∧ (s.ctx c.tenant c.ctx).replaying.isSome then failWith stNoResources 0x52 else none

/-- Entry of a function's window. -/
def windowEntry (n : Nat) : Entry := if n = 0 then .pf else .vf

/-- One packet of a window is accepted: it fails a check and completes, or its command enters the machine. -/
def acceptPacket (n : Nat) (bs : List Byte) (s : State) : State :=
  let c := s.stamp (parseCmd bs (windowEntry n) n)
  match packetChecks s (s.fn n).version bs c opReserved (fun s c => replayBars s c <|> opCheck bs s c) with
  | some f =>
    let x := s.headCtx n (bs.take 16)
    (s.noteLast c none).failRecord n c.tag f.1 x.1 x.2 f.2
  | none =>
    let c := { c with prev := if c.ordered then s.previous c else none }
    (s.noteLast c (some c.id)).accept c bs

/-- PACKET_ACCEPT: the next submitted packet in stream order; a resynchronisation goes on once none is left (R32). -/
def packetAccept (n : Nat) (s : State) : State :=
  let f := (s.fn n).skipBad
  if n > 15 || !s.pw.ready || !(s.tenant n).provisioned || s.stalled n then s
  else match f.submitted with
    | [] => if f.resync then finishResync (s.setFn n f) n else s.setFn n f
    | p :: rest =>
      let f1 := { f with submitted := rest, mark := (f.mark + p.bytes.length / 16) % 65536 }.skipBad
      let s1 := acceptPacket n p.bytes (s.setFn n f1)
      if (s1.fn n).resync && (s1.fn n).submitted.isEmpty then finishResync s1 n else s1

/-- PACKET_ACCEPT. -/
def execPacketAccept (fn : Nat) (s : State) : Host.Outcome State Fault Refusal := .next (packetAccept fn s)

/-! ### The management port (R38, R430, R431, R450) -/

/-- A record of the management port for a packet that never became a command. -/
def State.respondFail (s : State) (bs : List Byte) (f : Fail) : State :=
  s.respond { tag := fieldAt bs 6 2, status := f.1, ctx := if scopeC (fieldAt bs 0 2) then fieldAt bs 8 2 else 0, final := true,
              origin := false, step := 0, result := f.2 } []

/-- What the boot ROM serves after firmware verification has failed (R450): HELLO, FW_STAGE, FW_ACTIVATE, REG_READ of ST_. -/
def recoverySet (c : Cmd) : Bool :=
  c.opcode = 0x0001 || c.opcode = 0xE001 || c.opcode = 0xE002
    || (c.opcode = 0xE004 && (rrWords c).all fun a => (blockOf a).1 = .st || (blockOf a).1 = .stage)

/-- MCTP_MESSAGE: each message holds one packet; before start-up is complete every packet is answered NO_RESOURCES 0x0E. -/
def mctpMessage (bs : List Byte) (s : State) : State :=
  let c := { s.stamp (parseCmd bs .mgmt 0) with stage := .granted }
  let busy : Fail := (stNoResources, [0x0E])
  match s.pw.boot with
  | .reset => s
  | .starting => s.respondFail bs busy
  | _ =>
    if bs.length % 16 ≠ 0 ∨ bs.length < 32 ∨ bs.length > 4096 then s.respondFail bs (stBadLength, [])
    else if !sealOk bs 0 then s.respondFail bs (stBadSeal, [])
    else if s.pw.boot = .recovery ∧ !recoverySet c then s.respondFail bs busy
    else match packetChecks s s.mgmtVersion bs c opReserved (opCheck bs) with
      | some f => s.respondFail bs f
      | none => s.accept c bs

/-- MCTP_MESSAGE. -/
def execMctpMessage (data : List Byte) (s : State) : Host.Outcome State Fault Refusal := .next (mctpMessage data s)

/-! ### The remote-command entry (R39, R214, R254, R267) -/

/-- A forwarded LEASE_SET that fails: its record in the physical function's ring, its status to the module that sent it. -/
def State.leaseFail (s : State) (src : Nat) (f : Fail) : State :=
  let s1 := if f.1 = stKeyRejected then s.bump (aWF 0x820) 1 else s
  (s1.remoteFail 0 0 0x4020 f).send
    { node := src, kind := .status, number := 0, epoch := 0, data := leBytes 2 f.1 ++ f.2, poison := false }

/-- A forwarded LEASE_SET arrives. -/
def remoteLease (r : RemotePkt) (s : State) : State :=
  let c := { s.stamp (parseCmd r.bytes .remote 0) with trailer := leBytes 2 r.src }
  match packetChecks s 0x10 r.bytes c opReserved (opCheck r.bytes) with
  | some f => s.leaseFail r.src f
  | none => s.accept c r.bytes

/-- A remote-command packet of a region: a receive signal is counted (R267), any other acts on the region's tenant and context. -/
def remoteRegion (r : RemotePkt) (num : Nat) (e : Export) (s : State) : State :=
  let c := s.stamp { parseCmd r.bytes .remote e.tenant with ctx := e.ctx }
  match packetChecks s 0x10 r.bytes c opReserved (opCheck r.bytes) with
  | some f => s.remoteFail e.tenant e.ctx c.opcode f
  | none =>
    if c.opcode = 0x3001 ∧ c.p 0 1 = 1 ∧ c.signals.length = 1 ∧ rxMagic s e then
      let token := c.signals.headD 0
      match receiveArrival s num e token with
      | (s1, none) => s1.recordSignal e r.src r.offset token
      | (s1, some f) => s1.remoteFail e.tenant e.ctx c.opcode f
    else s.accept c r.bytes

/-- A remote-command packet that has left its ingress buffer: steps 1 to 3 of R214, then the packet; a lapsed module answers FENCED (R256). -/
def takenCommand (r : RemotePkt) (op : Nat) (p : FabPkt) (s : State) : State :=
  if !NMap.get false s.fabric.members r.src then s.bump (aWF 0x810) 1
  else if op = 0x4020 then remoteLease r s
  else if s.fabric.st = 3 then s.answer p .fenced [] false
  else match s.regionFor p 0 with
    | none => s.rejectKey p
    | some (num, e) =>
      if !e.complete ∨ e.revoking.isSome then (s.remoteFail e.tenant e.ctx op (stKeyRejected, [])).rejectKey p
      else if !e.remoteCmd then s.remoteFail e.tenant e.ctx op (stKeyRejected, [])
      else remoteRegion r num e s

/-- REMOTE_COMMAND. It leaves its ingress buffer at once. -/
def remoteCommand (r : RemotePkt) (s : State) : State :=
  let op := fieldAt r.bytes 0 2
  let p : FabPkt := { src := r.src, epoch := 0, seq := 0, offset := r.offset, key := r.key, size := 0, enable := 0, data := [],
                      poison := false, ownEpoch := 0, port := r.port }
  if !s.variant.fabric ∨ s.fabric.st = 0 then s
  else takenCommand r op p (s.freeIngress r.port 3 (1 + ceilDiv r.bytes.length 32))

/-- REMOTE_COMMAND. -/
def execRemoteCommand (r : RemotePkt) (s : State) : Host.Outcome State Fault Refusal := .next (remoteCommand r s)

/-! ### Replaying a record ring (R417, R418, Table 20-1) -/

/-- A recorded packet with its context field replaced. -/
def intoContext (bs : List Byte) (c : Nat) : List Byte := bs.take 8 ++ leBytes 2 c ++ bs.drop 10

/-- A packet entry is accepted into the context that replays. -/
def replayPacket (t c : Nat) (bs : List Byte) (s : State) : State :=
  let b := intoContext bs c
  let x := s.stamp { parseCmd b (windowEntry t) t with replayed := true }
  match packetChecks s (s.fn t).version b x opReserved (opCheck b) with
  | some f =>
    let h := s.headCtx t (b.take 16)
    (s.noteLast x none).failRecord t x.tag f.1 h.1 h.2 f.2
  | none =>
    let x := { x with prev := if x.ordered then s.previous x else none }
    (s.noteLast x (some x.id)).accept x b

/-- The export of the context whose object holds byte `off`. -/
def State.exportOver (s : State) (t c off : Nat) : Option (Nat × Export) :=
  s.fabric.exports.findSome? fun e => match e.2 with
    | some x => if x.tenant = t ∧ x.ctx = c ∧ x.offset ≤ off ∧ off < x.offset + x.length then some (e.1, x) else none
    | none => none

/-- An inbound entry is applied to the same object offset; a receive signal acts as R267 gives. -/
def replayInbound (t c : Nat) (bs : List Byte) (poison : Bool) (s : State) : State :=
  match s.exportOver t c (fieldAt bs 8 8) with
  | none => s
  | some (num, e) =>
    if fieldAt bs 2 2 = 1 then (receiveArrival s num e (fieldAt bs 4 4)).1
    else
      let data := bs.drop 16
      let p : FabPkt := { src := fieldAt bs 0 2, epoch := 0, seq := 0, offset := e.base + (fieldAt bs 8 8 - e.offset), key := e.key,
                          size := data.length, enable := 2 ^ data.length - 1, data := data, poison := poison, ownEpoch := e.epoch, port := 8 }
      if e.mode = 2 then s.regionAtomic e p else s.regionWrite e p

/-- A fronthaul entry goes to the uplink path of its cell, which is configured and does not run: a FAPI_P7 message is held for its
slot; U-plane is there for the slot's processing, which SLOT_DEADLINE reports. -/
def replayFronthaul (bs : List Byte) (s : State) : State :=
  let n := Config.entryCell bs
  match s.cell n with
  | some x =>
    if x.st = .configured ∧ Config.fapiLength bs = bs.length then
      let t := Config.fapiSlot bs
      s.setCell n (some { x with held := x.held ++ [(t.1, t.2, bs)] })
    else s
  | none => s

/-- REPLAY_ENTRY: the next entry is fed, once what its read asks for has come; a ring that cannot be read ends the replay with that failure. -/
def replayEntry (t c : Nat) (s : State) : State :=
  match (s.ctx t c).replaying with
  | none => s
  | some r =>
    if r.fed ≥ r.total then s.settleContexts
    else
      let h := s.readRef r.id t r.ring r.next 32
      let len := fieldAt h.bytes 4 4
      let b := s.readRef r.id t r.ring (r.next + 32) len
      let r1 := { r with next := r.next + 32 + roundUp len 32, fed := r.fed + 1 }
      let s1 := s.setCtx t c { s.ctx t c with replaying := some r1 }
      match h.fail <|> b.fail with
      | some f => if f.1 = stAsk then s.seeTo t c r.id f else (s.setCtx t c { s.ctx t c with replaying := none }).fail r.id f.1 f.2
      | none =>
        let kind := fieldAt h.bytes 0 1
        let s2 := if kind = 1 then replayPacket t c b.bytes s1
          else if kind = 2 then replayInbound t c b.bytes ((fieldAt h.bytes 1 1).testBit 0) s1
          else if kind = 3 then replayFronthaul b.bytes s1 else s1
        s2.settleContexts

/-- REPLAY_ENTRY. -/
def execReplayEntry (tenant ctx : Nat) (s : State) : Host.Outcome State Fault Refusal := .next (replayEntry tenant ctx s)

end Sys2Proof.Machine
end

