-- ==== Sys2Proof/Machine/Dispatch.lean ====
section
/-! DEFINITION. One arm per command: a direct call of its meaning. -/
namespace Sys2Proof.Machine

def exec (i : Instr) (s : State) : Host.Outcome State Fault Refusal :=
  match i with
  | .windowWrite fn off data poisoned => Sys2Proof.Machine.execWindowWrite fn off data poisoned s
  | .packetAccept fn => Sys2Proof.Machine.execPacketAccept fn s
  | .mctpMessage data => Sys2Proof.Machine.execMctpMessage data s
  | .remoteCommand r => Sys2Proof.Machine.execRemoteCommand r s
  | .hwWinCtlResync fn => Sys2Proof.Machine.execHwWinCtlResync fn s
  | .hwRingCfgEnable fn v => Sys2Proof.Machine.execHwRingCfgEnable fn v s
  | .hwRingHeadWrite fn v => Sys2Proof.Machine.execHwRingHeadWrite fn v s
  | .hwHeartbeatWrite fn v => Sys2Proof.Machine.execHwHeartbeatWrite fn v s
  | .hwNoticeDropRead fn => Sys2Proof.Machine.execHwNoticeDropRead fn s
  | .counterLoRead addr => Sys2Proof.Machine.execCounterLoRead addr s
  | .mcCtlClear core => Sys2Proof.Machine.execMcCtlClear core s
  | .veCtlClear core => Sys2Proof.Machine.execVeCtlClear core s
  | .dpCtlClear die => Sys2Proof.Machine.execDpCtlClear die s
  | .wfCtlClear => Sys2Proof.Machine.execWfCtlClear s
  | .scCtlClear core => Sys2Proof.Machine.execScCtlClear core s
  | .scClCtlClear cluster => Sys2Proof.Machine.execScClCtlClear cluster s
  | .scClCtlHalt cluster halt => Sys2Proof.Machine.execScClCtlHalt cluster halt s
  | .scProgramWindowWrite cluster index v => Sys2Proof.Machine.execScProgramWindowWrite cluster index v s
  | .scFaultRead core => Sys2Proof.Machine.execScFaultRead core s
  | .weCtlClear => Sys2Proof.Machine.execWeCtlClear s
  | .tmCtlClear port => Sys2Proof.Machine.execTmCtlClear port s
  | .sxCtlClear => Sys2Proof.Machine.execSxCtlClear s
  | .pwCtlClear => Sys2Proof.Machine.execPwCtlClear s
  | .evCtlClear => Sys2Proof.Machine.execEvCtlClear s
  | .evCtlDisable on => Sys2Proof.Machine.execEvCtlDisable on s
  | .evClaim target => Sys2Proof.Machine.execEvClaim target s
  | .evComplete target v => Sys2Proof.Machine.execEvComplete target v s
  | .registerWrite r v => Sys2Proof.Machine.execRegisterWrite r v s
  | .opHello id => Sys2Proof.Machine.execOpHello id s
  | .opCaps id => Sys2Proof.Machine.execOpCaps id s
  | .opCreditQuery id => Sys2Proof.Machine.execOpCreditQuery id s
  | .opNop id => Sys2Proof.Machine.execOpNop id s
  | .opContextOpen id => Sys2Proof.Machine.execOpContextOpen id s
  | .opContextClose id => Sys2Proof.Machine.execOpContextClose id s
  | .opContextReset id => Sys2Proof.Machine.execOpContextReset id s
  | .opTenantProvision id => Sys2Proof.Machine.execOpTenantProvision id s
  | .opAlloc id => Sys2Proof.Machine.execOpAlloc id s
  | .opFree id => Sys2Proof.Machine.execOpFree id s
  | .opCopy id => Sys2Proof.Machine.execOpCopy id s
  | .opFill id => Sys2Proof.Machine.execOpFill id s
  | .opPromote id => Sys2Proof.Machine.execOpPromote id s
  | .opEvict id => Sys2Proof.Machine.execOpEvict id s
  | .opPin id => Sys2Proof.Machine.execOpPin id s
  | .opUnpin id => Sys2Proof.Machine.execOpUnpin id s
  | .opTierQuery id => Sys2Proof.Machine.execOpTierQuery id s
  | .opCompressHint id => Sys2Proof.Machine.execOpCompressHint id s
  | .opMatmulChain id => Sys2Proof.Machine.execOpMatmulChain id s
  | .opVectorRun id => Sys2Proof.Machine.execOpVectorRun id s
  | .opVectorLoad id => Sys2Proof.Machine.execOpVectorLoad id s
  | .opReduce id => Sys2Proof.Machine.execOpReduce id s
  | .opGatherRows id => Sys2Proof.Machine.execOpGatherRows id s
  | .opStepCompose id => Sys2Proof.Machine.execOpStepCompose id s
  | .opSeqSubmit id => Sys2Proof.Machine.execOpSeqSubmit id s
  | .opSeqCancel id => Sys2Proof.Machine.execOpSeqCancel id s
  | .opSample id => Sys2Proof.Machine.execOpSample id s
  | .opTokenSignal id => Sys2Proof.Machine.execOpTokenSignal id s
  | .opTokenWait id => Sys2Proof.Machine.execOpTokenWait id s
  | .opFence id => Sys2Proof.Machine.execOpFence id s
  | .opBarrierArm id => Sys2Proof.Machine.execOpBarrierArm id s
  | .opRegionExport id => Sys2Proof.Machine.execOpRegionExport id s
  | .opRegionImport id => Sys2Proof.Machine.execOpRegionImport id s
  | .opRegionRevoke id => Sys2Proof.Machine.execOpRegionRevoke id s
  | .opOwnershipTransfer id => Sys2Proof.Machine.execOpOwnershipTransfer id s
  | .opRowsSend id => Sys2Proof.Machine.execOpRowsSend id s
  | .opRowsCombine id => Sys2Proof.Machine.execOpRowsCombine id s
  | .opLeaseSet id => Sys2Proof.Machine.execOpLeaseSet id s
  | .opPartitionSet id => Sys2Proof.Machine.execOpPartitionSet id s
  | .opCellConfig id => Sys2Proof.Machine.execOpCellConfig id s
  | .opCellStart id => Sys2Proof.Machine.execOpCellStart id s
  | .opCellStop id => Sys2Proof.Machine.execOpCellStop id s
  | .opRadioReserve id => Sys2Proof.Machine.execOpRadioReserve id s
  | .opFapiP5 id => Sys2Proof.Machine.execOpFapiP5 id s
  | .opFapiP7 id => Sys2Proof.Machine.execOpFapiP7 id s
  | .opHeadControl id => Sys2Proof.Machine.execOpHeadControl id s
  | .opDomainConfig id => Sys2Proof.Machine.execOpDomainConfig id s
  | .opDomainSelect id => Sys2Proof.Machine.execOpDomainSelect id s
  | .opTriggerSet id => Sys2Proof.Machine.execOpTriggerSet id s
  | .opCaptureRead id => Sys2Proof.Machine.execOpCaptureRead id s
  | .opTimeRead id => Sys2Proof.Machine.execOpTimeRead id s
  | .opPortConfig id => Sys2Proof.Machine.execOpPortConfig id s
  | .opQueueConfig id => Sys2Proof.Machine.execOpQueueConfig id s
  | .opShaperConfig id => Sys2Proof.Machine.execOpShaperConfig id s
  | .opPolicerConfig id => Sys2Proof.Machine.execOpPolicerConfig id s
  | .opErrorLogRead id => Sys2Proof.Machine.execOpErrorLogRead id s
  | .opCheckConfig id => Sys2Proof.Machine.execOpCheckConfig id s
  | .opScrub id => Sys2Proof.Machine.execOpScrub id s
  | .opInject id => Sys2Proof.Machine.execOpInject id s
  | .opQuarantineQuery id => Sys2Proof.Machine.execOpQuarantineQuery id s
  | .opRecordStart id => Sys2Proof.Machine.execOpRecordStart id s
  | .opRecordStop id => Sys2Proof.Machine.execOpRecordStop id s
  | .opReplayStart id => Sys2Proof.Machine.execOpReplayStart id s
  | .opSeedSet id => Sys2Proof.Machine.execOpSeedSet id s
  | .opStepRead id => Sys2Proof.Machine.execOpStepRead id s
  | .opFwStage id => Sys2Proof.Machine.execOpFwStage id s
  | .opFwActivate id => Sys2Proof.Machine.execOpFwActivate id s
  | .opRegRead id => Sys2Proof.Machine.execOpRegRead id s
  | .opRegWrite id => Sys2Proof.Machine.execOpRegWrite id s
  | .opPowerPolicy id => Sys2Proof.Machine.execOpPowerPolicy id s
  | .opAttest id => Sys2Proof.Machine.execOpAttest id s
  | .commandGrant id => Sys2Proof.Machine.execCommandGrant id s
  | .commandStart core => Sys2Proof.Machine.execCommandStart core s
  | .spillEnd core => Sys2Proof.Machine.execSpillEnd core s
  | .fillEnd core => Sys2Proof.Machine.execFillEnd core s
  | .completionPost die => Sys2Proof.Machine.execCompletionPost die s
  | .replyTimeThreshold fn => Sys2Proof.Machine.execReplyTimeThreshold fn s
  | .radioCommandIssue cell ns disagree => Sys2Proof.Machine.execRadioCommandIssue cell ns disagree s
  | .slotGuardLimit core => Sys2Proof.Machine.execSlotGuardLimit core s
  | .contextWatchdog id => Sys2Proof.Machine.execContextWatchdog id s
  | .stepWatchdog tenant ctx => Sys2Proof.Machine.execStepWatchdog tenant ctx s
  | .heartbeatExpiry tenant => Sys2Proof.Machine.execHeartbeatExpiry tenant s
  | .tokenWaitTimeout id => Sys2Proof.Machine.execTokenWaitTimeout id s
  | .replay id o => Sys2Proof.Machine.execReplay id o s
  | .servingStep tenant ctx => Sys2Proof.Machine.execServingStep tenant ctx s
  | .replayEntry tenant ctx => Sys2Proof.Machine.execReplayEntry tenant ctx s
  | .cooperRoundTimeout quarter => Sys2Proof.Machine.execCooperRoundTimeout quarter s
  | .raiseComplete tenant handle => Sys2Proof.Machine.execRaiseComplete tenant handle s
  | .loweringComplete tenant handle => Sys2Proof.Machine.execLoweringComplete tenant handle s
  | .trackerRetire slice tracker => Sys2Proof.Machine.execTrackerRetire slice tracker s
  | .l2WriteBack tenant handle line => Sys2Proof.Machine.execL2WriteBack tenant handle line s
  | .patrolScrub tenant handle line e => Sys2Proof.Machine.execPatrolScrub tenant handle line e s
  | .fabricLoad p => Sys2Proof.Machine.execFabricLoad p s
  | .fabricStore p => Sys2Proof.Machine.execFabricStore p s
  | .fabricAtomic p => Sys2Proof.Machine.execFabricAtomic p s
  | .homeEntryAdmit unit => Sys2Proof.Machine.execHomeEntryAdmit unit s
  | .writeBack p => Sys2Proof.Machine.execWriteBack p s
  | .probe p rights => Sys2Proof.Machine.execProbe p rights s
  | .loadResponse r => Sys2Proof.Machine.execLoadResponse r s
  | .acknowledgement node epoch seq => Sys2Proof.Machine.execAcknowledgement node epoch seq s
  | .refusal node epoch seq kind => Sys2Proof.Machine.execRefusal node epoch seq kind s
  | .ownerChange p owner => Sys2Proof.Machine.execOwnerChange p owner s
  | .ownerNotice p base epoch owner => Sys2Proof.Machine.execOwnerNotice p base epoch owner s
  | .writeBackRequest p base => Sys2Proof.Machine.execWriteBackRequest p base s
  | .importReleaseNotice p => Sys2Proof.Machine.execImportReleaseNotice p s
  | .receiveSignal p token after => Sys2Proof.Machine.execReceiveSignal p token after s
  | .resend node => Sys2Proof.Machine.execResend node s
  | .streamBreak node => Sys2Proof.Machine.execStreamBreak node s
  | .fenceTimeout id => Sys2Proof.Machine.execFenceTimeout id s
  | .importProbeTimeout id => Sys2Proof.Machine.execImportProbeTimeout id s
  | .transferTimeout id => Sys2Proof.Machine.execTransferTimeout id s
  | .revokeWriteBackTimeout id => Sys2Proof.Machine.execRevokeWriteBackTimeout id s
  | .leaseForwardTimeout id => Sys2Proof.Machine.execLeaseForwardTimeout id s
  | .leaseExpiry => Sys2Proof.Machine.execLeaseExpiry s
  | .linkFrameReceive port f => Sys2Proof.Machine.execLinkFrameReceive port f s
  | .portDown port cause => Sys2Proof.Machine.execPortDown port cause s
  | .portRetrain port => Sys2Proof.Machine.execPortRetrain port s
  | .portTraining port n => Sys2Proof.Machine.execPortTraining port n s
  | .fencedPortRetry port => Sys2Proof.Machine.execFencedPortRetry port s
  | .barrierArmSignal barrier port => Sys2Proof.Machine.execBarrierArmSignal barrier port s
  | .barrierRelease barrier port remaining held => Sys2Proof.Machine.execBarrierRelease barrier port remaining held s
  | .barrierFire barrier => Sys2Proof.Machine.execBarrierFire barrier s
  | .barrierTimeout id => Sys2Proof.Machine.execBarrierTimeout id s
  | .ethernetFrameReceive f => Sys2Proof.Machine.execEthernetFrameReceive f s
  | .pfcRefresh port prio => Sys2Proof.Machine.execPfcRefresh port prio s
  | .pfcPauseExpiry port prio => Sys2Proof.Machine.execPfcPauseExpiry port prio s
  | .frameTransmit port => Sys2Proof.Machine.execFrameTransmit port s
  | .transmitRingPoll port queue => Sys2Proof.Machine.execTransmitRingPoll port queue s
  | .ethernetLinkChange port up => Sys2Proof.Machine.execEthernetLinkChange port up s
  | .ptpMessage m => Sys2Proof.Machine.execPtpMessage m s
  | .announceTimeout domain => Sys2Proof.Machine.execAnnounceTimeout domain s
  | .slewEnd => Sys2Proof.Machine.execSlewEnd s
  | .syncTransmit domain port => Sys2Proof.Machine.execSyncTransmit domain port s
  | .triggerEdge trigger => Sys2Proof.Machine.execTriggerEdge trigger s
  | .captureEdge source falling => Sys2Proof.Machine.execCaptureEdge source falling s
  | .slotBoundary cell => Sys2Proof.Machine.execSlotBoundary cell s
  | .requestDeadline cell => Sys2Proof.Machine.execRequestDeadline cell s
  | .fronthaulWindow cell symbol uplink opening ready => Sys2Proof.Machine.execFronthaulWindow cell symbol uplink opening ready s
  | .slotDeadline cell d => Sys2Proof.Machine.execSlotDeadline cell d s
  | .cellBecomesRunning cell => Sys2Proof.Machine.execCellBecomesRunning cell s
  | .agcMeasurement cell antenna power prach => Sys2Proof.Machine.execAgcMeasurement cell antenna power prach s
  | .frequencyEstimate cell offset quality => Sys2Proof.Machine.execFrequencyEstimate cell offset quality s
  | .jobStart core j => Sys2Proof.Machine.execJobStart core j s
  | .jobCycleLimit core => Sys2Proof.Machine.execJobCycleLimit core s
  | .fftIfft engine d => Sys2Proof.Machine.execFftIfft engine d s
  | .map engine d => Sys2Proof.Machine.execMap engine d s
  | .demap engine d => Sys2Proof.Machine.execDemap engine d s
  | .ldpcDecode engine d => Sys2Proof.Machine.execLdpcDecode engine d s
  | .ldpcEncode engine d => Sys2Proof.Machine.execLdpcEncode engine d s
  | .polarEncode engine d => Sys2Proof.Machine.execPolarEncode engine d s
  | .polarDecode engine d => Sys2Proof.Machine.execPolarDecode engine d s
  | .prach engine d => Sys2Proof.Machine.execPrach engine d s
  | .eventSourceInput source high => Sys2Proof.Machine.execEventSourceInput source high s
  | .inputValid o => Sys2Proof.Machine.execInputValid o s
  | .startupComplete t => Sys2Proof.Machine.execStartupComplete t s
  | .windowReady => Sys2Proof.Machine.execWindowReady s
  | .brownoutWarning tenMv => Sys2Proof.Machine.execBrownoutWarning tenMv s
  | .brownoutClear => Sys2Proof.Machine.execBrownoutClear s
  | .resetTrip => Sys2Proof.Machine.execResetTrip s
  | .overvoltageTrip => Sys2Proof.Machine.execOvervoltageTrip s
  | .thermalTrip die => Sys2Proof.Machine.execThermalTrip die s
  | .powerMeasurement o => Sys2Proof.Machine.execPowerMeasurement o s
  | .domainSwitchDone t => Sys2Proof.Machine.execDomainSwitchDone t s
  | .moduleReset => Sys2Proof.Machine.execModuleReset s
  | .referenceLoss ref => Sys2Proof.Machine.execReferenceLoss ref s
  | .referenceReturn ref => Sys2Proof.Machine.execReferenceReturn ref s
  | .perstAssertion => Sys2Proof.Machine.execPerstAssertion s
  | .perstRelease => Sys2Proof.Machine.execPerstRelease s
  | .hotReset => Sys2Proof.Machine.execHotReset s
  | .linkDisable => Sys2Proof.Machine.execLinkDisable s
  | .physicalFunctionFlr => Sys2Proof.Machine.execPhysicalFunctionFlr s
  | .virtualFunctionFlr fn => Sys2Proof.Machine.execVirtualFunctionFlr fn s
  | .surpriseDown => Sys2Proof.Machine.execSurpriseDown s
  | .holdoverExpiry => Sys2Proof.Machine.execHoldoverExpiry s
  | .linkReturn => Sys2Proof.Machine.execLinkReturn s
  | .clerkWatchdog domain => Sys2Proof.Machine.execClerkWatchdog domain s
  | .controlCoreWatchdog cluster => Sys2Proof.Machine.execControlCoreWatchdog cluster s
  | .stewardWatchdog core => Sys2Proof.Machine.execStewardWatchdog core s
  | .hotRestartTimeout => Sys2Proof.Machine.execHotRestartTimeout s
  | .veAdd core w => Sys2Proof.Machine.execVeAdd core w s
  | .veSub core w => Sys2Proof.Machine.execVeSub core w s
  | .veMul core w => Sys2Proof.Machine.execVeMul core w s
  | .veFma core w => Sys2Proof.Machine.execVeFma core w s
  | .veMin core w => Sys2Proof.Machine.execVeMin core w s
  | .veMax core w => Sys2Proof.Machine.execVeMax core w s
  | .veAbs core w => Sys2Proof.Machine.execVeAbs core w s
  | .veNeg core w => Sys2Proof.Machine.execVeNeg core w s
  | .veCmpeq core w => Sys2Proof.Machine.execVeCmpeq core w s
  | .veCmplt core w => Sys2Proof.Machine.execVeCmplt core w s
  | .veCmple core w => Sys2Proof.Machine.execVeCmple core w s
  | .veCmpun core w => Sys2Proof.Machine.execVeCmpun core w s
  | .veSel core w => Sys2Proof.Machine.execVeSel core w s
  | .veExp2 core w => Sys2Proof.Machine.execVeExp2 core w s
  | .veLog2 core w => Sys2Proof.Machine.execVeLog2 core w s
  | .veRcp core w => Sys2Proof.Machine.execVeRcp core w s
  | .veRsq core w => Sys2Proof.Machine.execVeRsq core w s
  | .veTanh core w => Sys2Proof.Machine.execVeTanh core w s
  | .veRelu core w => Sys2Proof.Machine.execVeRelu core w s
  | .veGelu core w => Sys2Proof.Machine.execVeGelu core w s
  | .veSilu core w => Sys2Proof.Machine.execVeSilu core w s
  | .veSwiglu core w => Sys2Proof.Machine.execVeSwiglu core w s
  | .veCvtn core w => Sys2Proof.Machine.execVeCvtn core w s
  | .veCvtwl core w => Sys2Proof.Machine.execVeCvtwl core w s
  | .veCvtwh core w => Sys2Proof.Machine.execVeCvtwh core w s
  | .veCvtfi core w => Sys2Proof.Machine.execVeCvtfi core w s
  | .veCvtif core w => Sys2Proof.Machine.execVeCvtif core w s
  | .veAnd core w => Sys2Proof.Machine.execVeAnd core w s
  | .veOr core w => Sys2Proof.Machine.execVeOr core w s
  | .veXor core w => Sys2Proof.Machine.execVeXor core w s
  | .veShl core w => Sys2Proof.Machine.execVeShl core w s
  | .veShra core w => Sys2Proof.Machine.execVeShra core w s
  | .veMovs core w => Sys2Proof.Machine.execVeMovs core w s
  | .veIotac core w => Sys2Proof.Machine.execVeIotac core w s
  | .veIotar core w => Sys2Proof.Machine.execVeIotar core w s
  | .veShc1 core w => Sys2Proof.Machine.execVeShc1 core w s
  | .veTrn core w => Sys2Proof.Machine.execVeTrn core w s
  | .vePand core w => Sys2Proof.Machine.execVePand core w s
  | .vePor core w => Sys2Proof.Machine.execVePor core w s
  | .vePnot core w => Sys2Proof.Machine.execVePnot core w s
  | .vePset core w => Sys2Proof.Machine.execVePset core w s
  | .vePclr core w => Sys2Proof.Machine.execVePclr core w s
  | .veRsum core w => Sys2Proof.Machine.execVeRsum core w s
  | .veRprod core w => Sys2Proof.Machine.execVeRprod core w s
  | .veRmax core w => Sys2Proof.Machine.execVeRmax core w s
  | .veRmin core w => Sys2Proof.Machine.execVeRmin core w s
  | .veRcnt core w => Sys2Proof.Machine.execVeRcnt core w s
  | .veRmean core w => Sys2Proof.Machine.execVeRmean core w s
  | .veScan core w => Sys2Proof.Machine.execVeScan core w s
  | .veSscan core w => Sys2Proof.Machine.execVeSscan core w s
  | .veCspush core w => Sys2Proof.Machine.execVeCspush core w s
  | .veCsfin core w => Sys2Proof.Machine.execVeCsfin core w s
  | .veCsclr core w => Sys2Proof.Machine.execVeCsclr core w s
  | .veTopk core w => Sys2Proof.Machine.execVeTopk core w s
  | .veTopkclr core w => Sys2Proof.Machine.execVeTopkclr core w s
  | .veLdt core w => Sys2Proof.Machine.execVeLdt core w s
  | .veStt core w => Sys2Proof.Machine.execVeStt core w s
  | .veLds core w => Sys2Proof.Machine.execVeLds core w s
  | .veSts core w => Sys2Proof.Machine.execVeSts core w s
  | .veSmx core w => Sys2Proof.Machine.execVeSmx core w s
  | .veCput core w => Sys2Proof.Machine.execVeCput core w s
  | .veCget core w => Sys2Proof.Machine.execVeCget core w s
  | .veEnd core w => Sys2Proof.Machine.execVeEnd core w s
  | .veNop core w => Sys2Proof.Machine.execVeNop core w s
  | .veAddi core w => Sys2Proof.Machine.execVeAddi core w s
  | .veAddScalar core w => Sys2Proof.Machine.execVeAddScalar core w s
  | .veSubScalar core w => Sys2Proof.Machine.execVeSubScalar core w s
  | .veMuli core w => Sys2Proof.Machine.execVeMuli core w s
  | .veShli core w => Sys2Proof.Machine.execVeShli core w s
  | .veShri core w => Sys2Proof.Machine.execVeShri core w s
  | .veAndi core w => Sys2Proof.Machine.execVeAndi core w s
  | .veBr core w => Sys2Proof.Machine.execVeBr core w s
  | .veBeqz core w => Sys2Proof.Machine.execVeBeqz core w s
  | .veBnez core w => Sys2Proof.Machine.execVeBnez core w s
  | .veBlt core w => Sys2Proof.Machine.execVeBlt core w s
  | .veLoop core w => Sys2Proof.Machine.execVeLoop core w s
  | .veMvsv core w => Sys2Proof.Machine.execVeMvsv core w s
  | .scMov core w => Sys2Proof.Machine.execScMov core w s
  | .scCadd core w => Sys2Proof.Machine.execScCadd core w s
  | .scCsub core w => Sys2Proof.Machine.execScCsub core w s
  | .scCmul core w => Sys2Proof.Machine.execScCmul core w s
  | .scCmulj core w => Sys2Proof.Machine.execScCmulj core w s
  | .scConj core w => Sys2Proof.Machine.execScConj core w s
  | .scCneg core w => Sys2Proof.Machine.execScCneg core w s
  | .scSwap core w => Sys2Proof.Machine.execScSwap core w s
  | .scAddw core w => Sys2Proof.Machine.execScAddw core w s
  | .scSubw core w => Sys2Proof.Machine.execScSubw core w s
  | .scAndw core w => Sys2Proof.Machine.execScAndw core w s
  | .scOrw core w => Sys2Proof.Machine.execScOrw core w s
  | .scXorw core w => Sys2Proof.Machine.execScXorw core w s
  | .scShlh core w => Sys2Proof.Machine.execScShlh core w s
  | .scShrh core w => Sys2Proof.Machine.execScShrh core w s
  | .scShlw core w => Sys2Proof.Machine.execScShlw core w s
  | .scShrw core w => Sys2Proof.Machine.execScShrw core w s
  | .scMag2 core w => Sys2Proof.Machine.execScMag2 core w s
  | .scMinw core w => Sys2Proof.Machine.execScMinw core w s
  | .scMaxw core w => Sys2Proof.Machine.execScMaxw core w s
  | .scAccrd core w => Sys2Proof.Machine.execScAccrd core w s
  | .scAccclr core w => Sys2Proof.Machine.execScAccclr core w s
  | .scAccsh core w => Sys2Proof.Machine.execScAccsh core w s
  | .scAccadd core w => Sys2Proof.Machine.execScAccadd core w s
  | .scAccld core w => Sys2Proof.Machine.execScAccld core w s
  | .scCmpw core w => Sys2Proof.Machine.execScCmpw core w s
  | .scAbsh core w => Sys2Proof.Machine.execScAbsh core w s
  | .scCmac core w => Sys2Proof.Machine.execScCmac core w s
  | .scCmacj core w => Sys2Proof.Machine.execScCmacj core w s
  | .scCmsu core w => Sys2Proof.Machine.execScCmsu core w s
  | .scCmpy core w => Sys2Proof.Machine.execScCmpy core w s
  | .scCpow core w => Sys2Proof.Machine.execScCpow core w s
  | .scNopm core w => Sys2Proof.Machine.execScNopm core w s
  | .scSfFir core w => Sys2Proof.Machine.execScSfFir core w s
  | .scSfSearch core w => Sys2Proof.Machine.execScSfSearch core w s
  | .scLd core w => Sys2Proof.Machine.execScLd core w s
  | .scSt core w => Sys2Proof.Machine.execScSt core w s
  | .scLdil core w => Sys2Proof.Machine.execScLdil core w s
  | .scLdih core w => Sys2Proof.Machine.execScLdih core w s
  | .scMovr core w => Sys2Proof.Machine.execScMovr core w s
  | .scAddpi core w => Sys2Proof.Machine.execScAddpi core w s
  | .scNop core w => Sys2Proof.Machine.execScNop core w s
  | .scDone core w => Sys2Proof.Machine.execScDone core w s
  | .scBr core w => Sys2Proof.Machine.execScBr core w s
  | .scCall core w => Sys2Proof.Machine.execScCall core w s
  | .scRet core w => Sys2Proof.Machine.execScRet core w s
  | .scLoop core w => Sys2Proof.Machine.execScLoop core w s
  | .scLoopr core w => Sys2Proof.Machine.execScLoopr core w s
  | .scBreak core w => Sys2Proof.Machine.execScBreak core w s
  | .scWaitf core w => Sys2Proof.Machine.execScWaitf core w s
  | .scSetf core w => Sys2Proof.Machine.execScSetf core w s
  | .scClrf core w => Sys2Proof.Machine.execScClrf core w s
  | .hotRestartResume => Sys2Proof.Machine.execHotRestartResume s
  | .linkFrameTransmit port => Sys2Proof.Machine.execLinkFrameTransmit port s
  | .dmaReadCompletion id fn iova o => Sys2Proof.Machine.execDmaReadCompletion id fn iova o s
  | .completionTimeout id => Sys2Proof.Machine.execCompletionTimeout id s
  | .dynamicAddressAssignment addr fromStatic => Sys2Proof.Machine.execDynamicAddressAssignment addr fromStatic s
  | .configurationRequest q => Sys2Proof.Machine.execConfigurationRequest q s

end Sys2Proof.Machine
end

