-- ==== Sys2Proof/Machine/Tick.lean ====
section
/-! DEFINITION. The passing of time on an empty queue. -/
namespace Sys2Proof.Machine

/-- Sixteenths of full speed that a command on a core lacks (R426). -/
def State.lag (s : State) (c : Cmd) : Nat :=
  match c.core with
  | some k => if c.stage = .started ∨ c.stage = .waiting then 16 - s.coreClock k else 0
  | none => 0

/-- The largest lag among the packets of a context's step program. -/
def State.stepLag (s : State) (t c : Nat) : Nat :=
  s.cmds.foldl (fun m d => if d.program ∧ d.tenant = t ∧ d.ctx = c then max m (s.lag d) else m) 0

/-- A step that has begun gets back `n` sixteenths of a period. -/
def State.stepGains (s : State) (e : Nat × Nat) (n : Nat) : State :=
  if (s.stepStart e.1 e.2).isSome then s.setCtx e.1 e.2 { s.ctx e.1 e.2 with stepSlow := (s.ctx e.1 e.2).stepSlow + n } else s

/-- Time lost to clocks below 16/16 is noted on the commands and steps it slows (R426). -/
def State.slowDown (s : State) : State :=
  let live := s.cmds.filter fun d => s.lag d > 0
  let cmds := s.cmds.map fun d => { d with slowed := d.slowed + s.lag d }
  let steps := (live.filter fun d => d.program && !s.stalled d.tenant).map fun d => (d.tenant, d.ctx)
  if live.isEmpty then s else steps.dedup.foldl (fun (u : State) e => u.stepGains e (s.stepLag e.1 e.2)) { s with cmds := cmds }

/-- Periods in which a tenant's records wait for ring space are not measured by its steps' watchdog (R37, R203). -/
def State.stallTime (s : State) : State :=
  ((List.range 16).filter s.stalled).foldl (fun (s : State) t =>
    ((s.tenant t).ctxs.map Prod.fst).foldl (fun (s : State) c => s.stepGains (t, c) 16) s) s

/-- Nanosecond counters of the power block (Table 21-13). -/
def State.powerTime (s : State) : State :=
  if s.now % 4 ≠ 0 then s
  else
    let s1 := if s.pw.brown.isSome then s.bump (aPW 0x020) 1 else s
    if s.pw.capClock < 16 ∨ s.pw.hotEast < 16 ∨ s.pw.hotWest < 16 then s1.bump (aPW 0x028) 1 else s1

/-- The reports an island controller holds go on, and the Clerk reports each island's overflow count as lost reports (R18). The spec does
not say which time such a record carries: DESIGN CHOICE (log 24), the time at which it is logged, not that of the error. -/
def State.releaseClerk (s : State) (d : Nat) (held : List LogRec) (lost : NMap Nat) : State :=
  let s1 := held.foldl (fun (s : State) r => s.clerkReport d r)
    { s with rel := { s.rel with clerkDown := NMap.set none s.rel.clerkDown d none } }
  lost.foldl (fun (s : State) e => s.clerkReport d
    { LogRec.none_ with cls := 0x0A, outcome := 0, island := e.1, domain := d, count := min 0xFFFFFFFF e.2 }) s1

/-- Clerks that restart are back (R18). How long a restart lasts the spec shows by an example only (40 µs, Table 1-6): DESIGN CHOICE (log 24),
it ends at the next period of the local counter. -/
def State.clerksBack (s : State) : State :=
  s.rel.clerkDown.foldl (fun (s : State) e => match e.2 with
    | some x => s.releaseClerk e.1 x.1 x.2
    | none => s) s

/-- One period of 0.25 ns of the local counter (R364, log 2); one item passes from this module to itself (R211). -/
def tick (s : State) : State :=
  let s1 := { s with now := (s.now + 1) % 2 ^ 64, sx := s.sx.tick }
  s1.deliverOwn.clerksBack.powerTime.slowDown.stallTime

end Sys2Proof.Machine
end

