-- ==== Sys2Proof/Safety.lean ====
section
/-! DEFINITION. Words that statements use: safe runs, what an invariant of a step is, when a command may start, and packets as
their fields spell them. -/
namespace Sys2Proof.Machine

/-- The step answers a next state: neither a fault nor a refusal. -/
def Goes (s : State) : Prop := ∃ t, step s = .next t

/-- Every step that answers a next state keeps `Inv`. -/
def StepKeeps (Inv : State → Prop) : Prop := ∀ s t, Inv s → step s = .next t → Inv t

/-- Nothing holds back the granted coreless command `c` of opcode `op`, the command numbered `id`: records of its tenant do not stall it
(R37), no ownership transfer (Table 10-8) and no hot restart (R455) holds it, and its context lets it start (check 9, R33). -/
def Ready (s : State) (op id : Nat) (c : Cmd) : Prop :=
  s.cmd? id = some c ∧ c.opcode = op ∧ c.stage = .granted ∧ (c.entry ≠ .mgmt → s.stalled c.tenant = false)
    ∧ s.heldBack c = false ∧ s.stewardHeld c = false ∧ s.contextAtStart c = none

/-- The command as it runs: started now. -/
def begun (s : State) (c : Cmd) : Cmd := { c with stage := .started, startedAt := s.now }

/-- The state its effect acts on. -/
def Begun (s : State) (c : Cmd) : State := s.setCmd (begun s c)

/-- Core command `c`, the command numbered `id` of opcode `op`, has started on a core and has not reached its run limit (R188). -/
def Running (s : State) (op id : Nat) (c : Cmd) : Prop :=
  s.cmd? id = some c ∧ c.opcode = op ∧ c.stage = .started ∧ c.core.isSome = true ∧ s.limitReached c = false

/-- Nothing that the effect `body` of command `c` reads in `s` is still to come from another module (R219) or to be corrected first (R166). -/
def Settled (body : State → Cmd → State) (s : State) (c : Cmd) : Prop := (body s c).asks c.id = none

/-- Instruction `w` of format `fmt` and opcode `op` is the one at the program counter of the program `v` that command `c` runs on `core`. -/
def Issuing (s : State) (core : Nat) (v : Ve) (c : Cmd) (w : Dbl) (fmt op : Nat) : Prop :=
  s.program core = some (v, c) ∧ core < 64 ∧ v.image[v.pc]? = some w ∧ veFormat w = fmt ∧ veOp w = op

/-- It issues and the shadow unit agrees with it: no mismatch is armed, or the instruction is none that it repeats (R392). -/
def Issues (s : State) (core : Nat) (v : Ve) (c : Cmd) (w : Dbl) (fmt op : Nat) : Prop :=
  Issuing s core v c w fmt op ∧ ((s.core core).inject.2.2 = 0 ∨ veSampled w = false)

/-- The engine has issued an instruction, its counters have counted it. -/
def State.counted (s : State) (core : Nat) (v : Ve) (w : Dbl) (taken : Bool) : State :=
  let a := v.advance w taken
  (((s.setCore core { s.core core with ve := some a.1, vePc := v.pc }).bump (aVE core 0x18) 1).bump (aVE core 0x28) a.2.1).bump
    (aVE core 0x10) a.2.2

/-- What the shadow unit finds of it: whether the units differ, and the state in which the instruction has its effect. -/
def State.shadowed (s : State) (core : Nat) (v : Ve) (w : Dbl) (taken : Bool) : Bool × State :=
  (s.counted core v w taken).shadow core (if veSampled w then veIssue v w false else 0)

def State.issued (s : State) (core : Nat) (v : Ve) (w : Dbl) (taken : Bool) : State := (s.shadowed core v w taken).2

/-- The word at the program counter of core `n`'s job is `w`, of kind `k`; its fields are legal, cycles are left, and a flow instruction is
not the last of a loop's body (R308, R317, R320). -/
def ScIssues (s : State) (n k : Nat) (w : Word) (r : ScRegs) : Prop :=
  (s.sc n).job = some r ∧ n ≤ 127 ∧ (s.sc n).left ≠ 0 ∧ (s.cluster (n / 16)).word r.pc = w ∧ scKind w = some k
    ∧ scLegal r.sfmode k w = true ∧ (193 ≤ k → ∀ l, r.loops.head? = some l → l.2.1 ≠ r.pc)

/-- Levels, next instruction and stall after an instruction that gives a next index, or goes on in sequence. -/
def scAfter (r r1 : ScRegs) : Option Nat → List (Nat × Nat × Nat) × Nat × Nat
  | some i => (r1.loops, i, 0)
  | none => loopEnd r1.loops r.pc

/-- Cycles of an instruction: one, its hazard, its own stalls, a loop's back edge. -/
def scCost (r : ScRegs) (w : Word) (o : State × ScRegs × Option Nat × Nat × Nat) : Nat :=
  1 + hazard r w + o.2.2.2.1 + (scAfter r o.2.1 o.2.2.1).2.2

/-- The registers after an instruction: where it goes, and what it left for the hazards of the next ones. -/
def scNext (r : ScRegs) (w : Word) (o : State × ScRegs × Option Nat × Nat × Nat) : ScRegs :=
  let le := scAfter r o.2.1 o.2.2.1
  { o.2.1 with loops := le.1, pc := le.2.1, accNew := if scKind w = some 68 && r.sfmode then 0 else accWrites w, ptr1 := ptrWrites w, ptr2 := r.ptr1 }

/-- Cycles of it that are stalls: all but one, and that one of a WAITF that goes on waiting too (R319). -/
def scStalls (r : ScRegs) (w : Word) (o : State × ScRegs × Option Nat × Nat × Nat) : Nat :=
  scCost r w o - 1 + b2n (scKind w = some 200 && o.2.2.1 == some r.pc)

/-- The state in which an instruction has issued: the job's registers and cycles left, SC_BUSY, SC_STALL and shared-memory stalls counted. -/
def State.scIssued (s : State) (n : Nat) (w : Word) (r : ScRegs) (o : State × ScRegs × Option Nat × Nat × Nat) : State :=
  let cost := scCost r w o
  (((o.1.setSc n { o.1.sc n with job := some (scNext r w o), left := (s.sc n).left - cost, pcSeen := r.pc }).bump (aSC n 0x010) cost).bump
    (aSC n 0x018) (scStalls r w o)).bump (aSC n 0x020) o.2.2.2.2

/-- The state after an instruction whose cycles go beyond those left: it takes no effect, and what is left is counted as busy. -/
def State.scStopped (s : State) (n : Nat) (w : Word) (r : ScRegs) (o : State × ScRegs × Option Nat × Nat × Nat) : State :=
  let left := (s.sc n).left
  (((s.setSc n { s.sc n with left := 0, pcSeen := r.pc }).bump (aSC n 0x010) left).bump (aSC n 0x018) (min left (scStalls r w o))).bump
    (aSC n 0x020) (min left o.2.2.2.2)

/-- The state after an instruction other than DONE: one that saturated counts once. -/
def State.scTaken (s : State) (n : Nat) (w : Word) (r : ScRegs) (o : State × ScRegs × Option Nat × Nat × Nat) : State :=
  let t := s.scIssued n w r o
  let y := scNext r w o
  if o.2.1.flg.toNat.testBit 5 then (t.setSc n { t.sc n with job := some { y with flg := y.flg &&& 0x1F } }).bump (aSC n 0x038) 1 else t

/-- A register block is there and its domain is on. -/
def BlockUp (s : State) (b : Block) : Prop := blockAbsent s.variant b = false ∧ s.blockOff b = false

end Sys2Proof.Machine
end

