-- ==== Sys2Proof/Certificates/Slice0/Obligations.lean ====
section
/-! DEFINITION. The statements for the provers. -/
open Sys2Proof Sys2Proof.Machine

/-! ### The block -/

/-- With a command at the front of the queue, a step is that command's effect on the state with the queue's rest. -/
def Obligations.StepRunsFront : Prop :=
  ∀ (c : Instr) (rest : List Instr) (s : State), s.pending = c :: rest → step s = exec c { s with pending := rest }

/-- On an empty queue a step is one period of the local counter: it counts one modulo 2^64 (the model's choice of when the clock
moves, log 2). -/
def Obligations.EmptyQueueTicks : Prop :=
  ∀ s : State, s.pending = [] → ∃ t, step s = .next t ∧ t.now = (s.now + 1) % 2 ^ 64 ∧ t.pending = []

/-- What reset leaves: no command waits, nothing is powered, no context, core, cell, cluster, port or export is anything but at its
initial value, no memory lists a byte, every counter reads zero. -/
def Obligations.ResetLeaves : Prop :=
  State.reset.pending = [] ∧ State.reset.pw.boot = .reset ∧ State.reset.pw.on = 0 ∧ State.reset.pw.ready = false
    ∧ State.reset.cmds = [] ∧ State.reset.rel.log = [] ∧ State.reset.link.up = false
    ∧ (∀ t c, (State.reset.ctx t c).st = .closed) ∧ (∀ k, State.reset.core k = Core.init) ∧ (∀ n, State.reset.sc n = Sc.init)
    ∧ (∀ n, State.reset.cell n = none) ∧ (∀ k, State.reset.cluster k = Cluster.init) ∧ (∀ p, State.reset.sub p = SubPort.init)
    ∧ (∀ a, State.reset.count a = 0) ∧ (∀ f a, Memory.read (State.reset.hostMem f) a = 0)
    ∧ State.reset.fabric.exports = [] ∧ State.reset.fabric.imports = []

/-- No command changes the queue it is taken from, nor the variant of the module. -/
def Obligations.ExecKeepsQueueAndVariant : Prop :=
  ∀ (c : Instr) (s t : State), exec c s = .next t → t.pending = s.pending ∧ t.variant = s.variant

/-- The flash's counters SECURITY and SIG_INDEX only rise, whatever the step: no command, no reset and no tick lowers one. -/
def Obligations.FlashCountersRise : Prop :=
  ∀ s t : State, step s = .next t → s.st.security ≤ t.st.security ∧ s.st.sigIndex ≤ t.st.sigIndex

/-- SIG_INDEX never passes 2^20: at 2^20 every ATTEST is refused before it spends an index. -/
def Obligations.SigIndexBounded : Prop := StepKeeps fun s => s.st.sigIndex ≤ 2 ^ 20

/-- Reset meets the bound on SIG_INDEX (its value in the flash as shipped is the model's choice, log 12). -/
def Obligations.ResetSigIndexBounded : Prop := State.reset.st.sigIndex ≤ 2 ^ 20

/-! ### Memory, counters, records -/

/-- The byte memories (windows, objects, host memory, signal memories, slots): a byte written reads back and every other byte is as
before; a string written reads back byte by byte and nothing outside it changes; the canonical form is kept.
A little-endian string of `n` bytes spells its number modulo 256^n, and a byte memory gives back a field written to it. -/
def Obligations.MemoriesAndFieldsReadBack : Prop :=
  (
  (∀ (m : Memory) (a : Nat) (b : Byte), Memory.wf m = true → Memory.wf (Memory.write m a b) = true
      ∧ ∀ x, Memory.read (Memory.write m a b) x = if x = a then b else Memory.read m x)
    ∧ ∀ (m : Memory) (a : Nat) (bs : List Byte), Memory.wf m = true → Memory.wf (Memory.writeN m a bs) = true
      ∧ (∀ i (h : i < bs.length), Memory.read (Memory.writeN m a bs) (a + i) = bs[i])
      ∧ ∀ x, x < a ∨ a + bs.length ≤ x → Memory.read (Memory.writeN m a bs) x = Memory.read m x)
  ∧ (
  (∀ n v, (leBytes n v).length = n ∧ leNat (leBytes n v) = v % 256 ^ n)
    ∧ ∀ (m : Memory) (a n v : Nat), Memory.wf m = true → leNat (Memory.readN (Memory.writeN m a (leBytes n v)) a n) = v % 256 ^ n)

/-- Counters: an event adds its amount and stops at 2^64 − 1; no other counter moves. CLEAR zeroes the counters of its block and no
other, and leaves every capture. -/
def Obligations.CountersSaturateAndClear : Prop :=
  (∀ (s : State) (a n : Nat), NMap.wf 0 s.ctr = true → NMap.wf 0 (s.bump a n).ctr = true
      ∧ (s.bump a n).count a = min (2 ^ 64 - 1) (s.count a + n) ∧ ∀ b, b ≠ a → (s.bump a n).count b = s.count b)
    ∧ ∀ (s : State) (lo hi : Nat), NMap.wf 0 s.ctr = true → NMap.wf 0 (s.clearCounters lo hi).ctr = true
      ∧ (s.clearCounters lo hi).cap = s.cap
      ∧ ∀ a, (s.clearCounters lo hi).count a = if lo ≤ a ∧ a < hi then 0 else s.count a

/-- A reply record is 32 bytes and its fields stand where Table 2-6 puts them: tag, status, context, accept mark, flags with the phase
of the ring's pass, completion time, step, result. -/
def Obligations.ReplyRecordFields : Prop :=
  ∀ (r : Reply) (mark ns tail size : Nat), r.tag < 2 ^ 16 → r.status < 2 ^ 16 → r.ctx < 2 ^ 16 → mark < 2 ^ 16 → r.step < 2 ^ 16 →
    r.result.length ≤ 16 →
    let b := replyBytes r mark ns tail size
    b.length = 32 ∧ fieldAt b 0 2 = r.tag ∧ fieldAt b 2 2 = r.status ∧ fieldAt b 4 2 = r.ctx ∧ fieldAt b 6 2 = mark
      ∧ (fieldAt b 8 1).testBit 7 = decide (tail / size % 2 = 0) ∧ (fieldAt b 8 1).testBit 6 = r.final
      ∧ (fieldAt b 8 1).testBit 5 = r.origin ∧ fieldAt b 9 5 = ns % 2 ^ 40 ∧ fieldAt b 14 2 = r.step
      ∧ b.drop 16 = r.result ++ List.replicate (16 - r.result.length) 0

/-- A packet of a fixed-length opcode built from its fields, as Tables 2-2 and 2-3 lay it out: header, wait tokens, signal tokens,
parameters, padding to a multiple of 16 bytes ahead of the seal word. -/
def packetOf (op flags tag ctx : Nat) (waits signals : List Nat) (params : List Byte) (tail : List Byte) : List Byte :=
  leBytes 2 op ++ leBytes 1 0 ++ leBytes 1 flags ++ leBytes 2 0 ++ leBytes 2 tag ++ leBytes 2 ctx ++ leBytes 1 waits.length
    ++ leBytes 1 signals.length ++ leBytes 4 0 ++ waits.flatMap (leBytes 4) ++ signals.flatMap (leBytes 4) ++ params ++ tail

/-- The parser gives back every field of a packet: opcode, flags, tag, context, the wait tokens, the signal tokens and the parameters,
at every value they can take. -/
def Obligations.PacketFieldsReadBack : Prop :=
  ∀ (op flags tag ctx : Nat) (waits signals : List Nat) (params tail : List Byte) (e : Entry) (tenant : Nat),
    op < 2 ^ 16 → lenVaries op = false → flags < 2 ^ 8 → tag < 2 ^ 16 → ctx < 2 ^ 16 → waits.length < 2 ^ 8 → signals.length < 2 ^ 8 →
    (∀ k ∈ waits ++ signals, k < 2 ^ 32) → params.length = paramLen op e →
    let c := parseCmd (packetOf op flags tag ctx waits signals params tail) e tenant
    c.opcode = op ∧ c.flags = flags ∧ c.tag = tag ∧ c.ctx = ctx ∧ c.waits = waits ∧ c.signals = signals ∧ c.params = params
      ∧ c.entry = e ∧ c.tenant = tenant

/-! ### Ends of commands -/

/-- How a command ends: one of the windows keeps its end until its completion is posted; one of the management port is answered at once
with its record (accept mark 0) and, on success, what follows it, and is gone. A command that has ended does not end again, and
nothing else of the state changes. -/
def Obligations.CommandsEndOnce : Prop :=
  ∀ (s : State) (id status : Nat) (result : List Byte) (c : Cmd), s.cmd? id = some c →
    let d := { c with status := status, result := result, stage := Stage.done }
    (c.stage = .done → s.finish id status result = s)
      ∧ (c.stage ≠ .done → c.entry ≠ .mgmt → s.finish id status result = { s with cmds := s.cmds.map fun x => if x.id == d.id then d else x })
      ∧ (c.stage ≠ .done → c.entry = .mgmt → s.finish id status result =
          { s with cmds := s.cmds.filter (fun x => x.id != id)
                   mctp := (replyBytes (s.cmdReply d true) 0 s.nsTime 1 1 ++ (if status < 0x100 then c.trailer else [])) :: s.mctp })

/-- Where a record goes (R37, R54, R65): nowhere once the host is gone or for an unprovisioned function; into the ring when nothing is
held and there is room; else it is held, up to 256; beyond that a record of the device's own is dropped and counted, and a packet's record stays owed. -/
def Obligations.RecordsAreWrittenHeldOrDropped : Prop :=
  ∀ (s : State) (n : Nat) (r : Reply),
    (s.hostGone = true ∨ (s.tenant n).provisioned = false → s.reply n r = s)
      ∧ (s.hostGone = false → (s.tenant n).provisioned = true →
          ((s.fn n).held = [] → (s.fn n).ringBlocked = false → s.reply n r = s.writeRecord n r)
          ∧ (((s.fn n).held ≠ [] ∨ (s.fn n).ringBlocked = true) → (s.fn n).held.length < 256 →
              s.reply n r = s.setFn n { s.fn n with held := (s.fn n).held ++ [r] })
          ∧ ((s.fn n).held.length ≥ 256 → r.origin = true →
              s.reply n r = s.setFn n { s.fn n with noticeDrop := min 0xFFFF ((s.fn n).noticeDrop + 1) })
          ∧ ((s.fn n).held.length ≥ 256 → r.origin = false →
              s.reply n r = s.setFn n { s.fn n with owed := (s.fn n).owed ++ [r] }))

/-! ### Windows and rings (02, 03) -/

/-- HW_RING_CFG_ENABLE, HW_RING_HEAD_WRITE, HW_NOTICE_DROP_READ, HW_HEARTBEAT_WRITE, REPLY_TIME_THRESHOLD: what each leaves, every other
part of the state as it was. Enabling the ring zeroes TAIL and keeps the size field of a write that finds it enabled; a head that would
put more than the ring's size between it and TAIL is ignored; records held are written where there is room, and those owed then take
their turn.
Draining a ring with nothing held, or with no room, changes nothing; with both, the oldest held record is written next. -/
def Obligations.RingsAndHeldRecords : Prop :=
  (
  (∀ (n : Nat) (v : Word) (s : State), n < 16 → exec (.hwRingCfgEnable n v) s = .next ((s.setFn n { s.fn n with
        vector := if n = 0 ∨ v.toNat / 2 ^ 16 % 64 < 8 then v.toNat / 2 ^ 16 % 64 else (s.fn n).vector
        sizeLog2 := if (s.fn n).enable then (s.fn n).sizeLog2 else if 8 ≤ v.toNat % 32 ∧ v.toNat % 32 ≤ 16 then v.toNat % 32 else (s.fn n).sizeLog2
        enable := v.toNat.testBit 31
        tail := if v.toNat.testBit 31 && !(s.fn n).enable then 0 else (s.fn n).tail }).drainHeld 256 n |>.payOwed n))
    ∧ (∀ (n : Nat) (v : Word) (s : State), n < 16 →
        ((s.fn n).ringSize < ((s.fn n).tail + 2 ^ 17 - v.toNat % 2 ^ 17) % 2 ^ 17 → exec (.hwRingHeadWrite n v) s = .next s)
        ∧ (((s.fn n).tail + 2 ^ 17 - v.toNat % 2 ^ 17) % 2 ^ 17 ≤ (s.fn n).ringSize →
            exec (.hwRingHeadWrite n v) s = .next (((s.setFn n { s.fn n with head := v.toNat % 2 ^ 17 }).drainHeld 256 n).payOwed n)))
    ∧ (∀ (n : Nat) (s : State), n < 16 → exec (.hwNoticeDropRead n) s =
        .next { s.setFn n { s.fn n with noticeDrop := 0 } with readData := [BitVec.ofNat 32 (s.fn n).noticeDrop] })
    ∧ (∀ (n : Nat) (v : Word) (s : State), n < 16 → exec (.hwHeartbeatWrite n v) s =
        .next ((s.setFn n { s.fn n with hbExpired := false }).setTenant n { s.tenant n with hbStart := some s.now }))
    ∧ ∀ (n : Nat) (s : State), n < 16 → 0 < (s.fn n).sinceIrq → s.now ≥ (s.fn n).oldestAt + 4000 * (s.fn n).modTime →
        exec (.replyTimeThreshold n) s = .next (s.setFn n { s.fn n with msix := (s.fn n).msix + 1, sinceIrq := 0 }))
  ∧ (
  ∀ (k : Nat) (s : State) (n : Nat),
    ((s.fn n).held = [] → s.drainHeld k n = s)
      ∧ ((s.fn n).ringBlocked = true → s.drainHeld k n = s)
      ∧ ∀ r rest, (s.fn n).held = r :: rest → (s.fn n).ringBlocked = false →
          s.drainHeld (k + 1) n = ((s.setFn n { s.fn n with held := rest }).writeRecord n r).drainHeld k n)
  ∧ ∀ (s : State) (n : Nat), s.payOwed n = (s.fn n).owed.foldl (fun s r => s.reply n r) (s.setFn n { s.fn n with owed := [] })

/-- WINDOW_WRITE. A TLP to a window that does not take it (no such function, unprovisioned, halted, READY 0, links not ready, or out of
the window) changes nothing. One that touches a byte of a packet submitted and not accepted is dropped, halts the window with cause
0b01 and writes one WINDOW_OVERRUN record. Any other lands: its bytes are stored, and while the expected header is not whole nothing
else happens. A poisoned TLP is reported through AER whatever becomes of it. -/
def Obligations.WindowWriteLands : Prop :=
  ∀ (n off : Nat) (data : List Byte) (poisoned : Bool) (s0 : State), n < 16 →
    let s := if poisoned then { s0 with link := { s0.link with aer := s0.link.aer ||| 2 ^ 12 } } else s0
    let f := s.fn n
    let open_ := (s.tenant n).provisioned = true ∧ f.halted = false ∧ f.ready = true ∧ off + data.length ≤ 65536 ∧ data ≠ [] ∧ s.pw.ready = true
    let mark (m : NMap Bool) (v : Bool) : NMap Bool := (List.range data.length).foldl (fun m i => NMap.set false m (off + i) v) m
    let g := { f with window := Memory.writeN f.window off data, written := mark f.written true, touched := mark f.touched true,
                      poisoned := mark f.poisoned poisoned }
    (¬ open_ → exec (.windowWrite n off data poisoned) s0 = .next s)
      ∧ (open_ → (∃ i, i < data.length ∧ f.holds (off + i) = true) → exec (.windowWrite n off data poisoned) s0 =
          .next ((s.setFn n { f with halted := true, haltCause := 1, ready := false }).notice n stWindowOverrun (leBytes 4 off)))
      ∧ (open_ → (∀ i, i < data.length → f.holds (off + i) = false) → allIn g.written g.expect 16 = false →
          exec (.windowWrite n off data poisoned) s0 = .next (s.setFn n g))

/-- Evaluation at the expected header (R28, R29). A length field outside 2 to 256 writes BAD_LENGTH and halts the window with cause
0b10. Else, once the seal word is touched, a packet whose seal holds and that no poisoned TLP wrote is submitted, and the next header is
expected after it; with a bad seal it is discarded with BAD_SEAL, and the next header is expected after it too; the accept mark passes
a discarded packet at the head of the stream, but stands while 128 records are held. -/
def Obligations.PacketEvaluation : Prop :=
  ∀ (s : State) (n : Nat) (cur : NMap Bool),
    let f := s.fn n
    let hdr := f.stream f.expect 16
    let len := 16 * fieldAt hdr 4 2
    let bs := f.stream f.expect len
    let good := sealOk bs (f.expect + len - 8) = true ∧ anyIn f.poisoned f.expect len = false
    let g (bad : Bool) : Fn := { f with written := clearIn f.written f.expect len, touched := cur, expect := (f.expect + len) % 2 ^ 32,
                                        submitted := f.submitted ++ [{ bytes := bs, pos := f.expect, bad := bad }] }
    f.halted = false → allIn f.written f.expect 16 = true →
      ((len < 32 ∨ 4096 < len) → evalOne s n cur = some ((s.setFn n { f with halted := true, haltCause := 2, ready := false }).failRecord n
          (fieldAt hdr 6 2) stBadLength (s.headCtx n hdr).1 (s.headCtx n hdr).2 []))
      ∧ (32 ≤ len → len ≤ 4096 → anyIn f.touched (f.expect + len - 8) 8 = false → evalOne s n cur = none)
      ∧ (32 ≤ len → len ≤ 4096 → anyIn f.touched (f.expect + len - 8) 8 = true →
          (good → evalOne s n cur = some (s.setFn n (g false)))
          ∧ (¬ good → evalOne s n cur = some ((s.setFn n (if s.stalled n then g true else (g true).skipBad)).failRecord n (fieldAt hdr 6 2) stBadSeal
              (s.headCtx n hdr).1 (s.headCtx n hdr).2 [])))

/-- HW_WIN_CTL_RESYNC. With nothing to accept the window goes to the next lap at once: its mark and expected header at the lap's start,
nothing written, not halted, READY 1, one record that names the lap; with packets to accept READY reads 0 until the last is
accepted. -/
def Obligations.Resynchronisation : Prop :=
  ∀ (n : Nat) (s : State), n < 16 →
    let f := s.fn n
    let lap := (f.expect / 65536 + 1) % 65536
    (f.submitted = [] → exec (.hwWinCtlResync n) s = .next ((s.setFn n { f with
        expect := lap * 65536, mark := lap * 4096 % 65536, written := [], touched := [], poisoned := [], halted := false, haltCause := 0
        ready := true, resync := false }).notice n stOK (leBytes 2 lap)))
      ∧ (f.submitted ≠ [] → exec (.hwWinCtlResync n) s = .next (s.setFn n { f with ready := false, resync := true }))

/-- PACKET_ACCEPT. The next good packet of the stream leaves the window and the accept mark counts it in 16-byte units; its command, where
it passes every check, waits for its grant under the next command number, ordered after the previous packet of its context or window
when it is ORDERED; where it fails one, its record tells which, and no command comes to be. Nothing is accepted while the links are not
ready, from an unprovisioned function, or while its records stall it. -/
def Obligations.PacketAccept : Prop :=
  ∀ (n : Nat) (s : State), n < 16 →
    let f := (s.fn n).skipBad
    ((s.pw.ready = false ∨ (s.tenant n).provisioned = false ∨ s.stalled n = true) → exec (.packetAccept n) s = .next s)
      ∧ ∀ p rest, s.pw.ready = true → (s.tenant n).provisioned = true → s.stalled n = false → f.submitted = p :: rest → f.resync = false →
          let s0 := s.setFn n { f with submitted := rest, mark := (f.mark + p.bytes.length / 16) % 65536 }.skipBad
          let c := s0.stamp (parseCmd p.bytes (windowEntry n) n)
          let check := packetChecks s0 (s0.fn n).version p.bytes c opReserved (fun s c => replayBars s c <|> opCheck p.bytes s c)
          let hc := s0.headCtx n (p.bytes.take 16)
          (∀ e, check = some e → acceptPacket n p.bytes s0 = (s0.noteLast c none).failRecord n c.tag e.1 hc.1 hc.2 e.2)
            ∧ (check = none → acceptPacket n p.bytes s0 =
                let d := { c with prev := if c.ordered then s0.previous c else none }
                opAccepted p.bytes ((((s0.noteLast c (some c.id)).enqueue d).recordPacket d p.bytes)) d)
            ∧ exec (.packetAccept n) s = .next (
                let t := acceptPacket n p.bytes s0
                if (t.fn n).resync && (t.fn n).submitted.isEmpty then finishResync t n else t)

/-- The order of a packet's checks (Table 2-5): version (HELLO excepted), opcode, entry, length, reserved fields, absent unit, context
(not on the management port), then the opcode's own. The first that fails names the status. -/
def Obligations.CheckOrder : Prop :=
  ∀ (s : State) (version : Nat) (bs : List Byte) (c : Cmd) (resv : State → Cmd → Bool) (own : State → Cmd → Option Fail),
    let v := c.opcode = 0x0001 ∨ fieldAt bs 2 1 = version
    let d := opDefined c.opcode version = true
    let e := entryAllowed c.opcode c.entry = true
    let l := lengthOk bs c.entry = true
    let r := headerReserved bs c = true ∧ resv s c = true
    let check := packetChecks s version bs c resv own
    (¬ v → check = some (stVersion, []))
      ∧ (v → ¬ d → check = some (stBadOpcode, []))
      ∧ (v → d → ¬ e → check = some (stNotPermitted, []))
      ∧ (v → d → e → ¬ l → check = some (stBadLength, []))
      ∧ (v → d → e → l → ¬ r → check = some (stReserved, []))
      ∧ (v → d → e → l → r → unitAbsent s.variant c = true → check = some (stUnitAbsent, []))
      ∧ (v → d → e → l → r → unitAbsent s.variant c = false → c.entry ≠ .mgmt → ∀ f, s.contextCheck c.opcode c.tenant c.ctx = some f → check = some f)
      ∧ (v → d → e → l → r → unitAbsent s.variant c = false → (c.entry = .mgmt ∨ s.contextCheck c.opcode c.tenant c.ctx = none) → check = own s c)

/-- The other entries. MCTP_MESSAGE: before the input is valid nothing happens; before
start-up completes it is answered NO_RESOURCES 0x0E; once firmware runs a packet that passes its checks becomes a command, granted.
REMOTE_COMMAND: nothing while the module has no fabric or has not joined; a sender outside the partition is counted and dropped; a
module whose lease has lapsed answers FENCED; no region at the key is rejected; a packet that reaches its region is checked and
accepted like any other. REPLAY_ENTRY: nothing without a replay. -/
def Obligations.OtherEntries : Prop :=
  (∀ (bs : List Byte) (s : State),
    let c := { s.stamp (parseCmd bs .mgmt 0) with stage := Stage.granted }
    (s.pw.boot = .reset → exec (.mctpMessage bs) s = .next s)
      ∧ (s.pw.boot = .starting → exec (.mctpMessage bs) s = .next (s.respondFail bs (stNoResources, [0x0E])))
      ∧ (s.pw.boot = .running → bs.length % 16 = 0 → 32 ≤ bs.length → bs.length ≤ 4096 → sealOk bs 0 = true →
          packetChecks s s.mgmtVersion bs c opReserved (opCheck bs) = none →
          exec (.mctpMessage bs) s = .next (opAccepted bs ((s.enqueue c).recordPacket c bs) c)))
    ∧ (∀ (r : RemotePkt) (s : State),
        let p : FabPkt := { src := r.src, epoch := 0, seq := 0, offset := r.offset, key := r.key, size := 0, enable := 0, data := [],
                            poison := false, ownEpoch := 0, port := r.port }
        let t := s.freeIngress r.port 3 (1 + ceilDiv r.bytes.length 32)
        ((s.variant.fabric = false ∨ s.fabric.st = 0) → exec (.remoteCommand r) s = .next s)
          ∧ (s.variant.fabric = true → s.fabric.st ≠ 0 → NMap.get false t.fabric.members r.src = false →
              exec (.remoteCommand r) s = .next (t.bump (aWF 0x810) 1))
          ∧ (s.variant.fabric = true → s.fabric.st ≠ 0 → NMap.get false t.fabric.members r.src = true → fieldAt r.bytes 0 2 ≠ 0x4020 →
              (t.fabric.st = 3 → exec (.remoteCommand r) s = .next (t.answer p .fenced [] false))
              ∧ (t.fabric.st ≠ 3 → t.regionFor p 0 = none → exec (.remoteCommand r) s = .next (t.rejectKey p))
              ∧ ∀ num e, t.fabric.st ≠ 3 → t.regionFor p 0 = some (num, e) → e.complete = true → e.revoking = none → e.remoteCmd = true →
                  let c := t.stamp { parseCmd r.bytes .remote e.tenant with ctx := e.ctx }
                  packetChecks t 0x10 r.bytes c opReserved (opCheck r.bytes) = none → c.opcode ≠ 0x3001 →
                  exec (.remoteCommand r) s = .next (t.accept c r.bytes)))
    ∧ ∀ (t c : Nat) (s : State),
        ((s.ctx t c).replaying = none → exec (.replayEntry t c) s = .next s)
          ∧ ∀ r, (s.ctx t c).replaying = some r → r.total ≤ r.fed → exec (.replayEntry t c) s = .next s.settleContexts

/-! ### Registers (R10–R12, R87) -/

/-- CLEAR of each block (R87, R152, R209, R238, R305, R363, R377, R386): the block's counters go to zero and nothing else changes, but the
peaks of DP_ and PW_, which restart from their present values.
A block of a unit the variant lacks, or whose domain is off, ignores a CLEAR: the state stays. -/
def Obligations.ClearingCounters : Prop :=
  (
  (∀ k s, k < 64 → BlockUp s (.mc k) → exec (.mcCtlClear k) s = .next (s.clearCounters (aMC k 0) (aMC k 0x1000)))
    ∧ (∀ k s, k < 64 → BlockUp s (.ve k) → exec (.veCtlClear k) s = .next (s.clearCounters (aVE k 0) (aVE k 0x1000)))
    ∧ (∀ s, exec (.dpCtlClear 0) s = .next { s.clearCounters (aDP 0 0) (aDP 0 0x1000) with cqPeak := (s.cqUsed.1, s.cqPeak.2) })
    ∧ (∀ s, BlockUp s (.dp 1) →
        exec (.dpCtlClear 1) s = .next { s.clearCounters (aDP 1 0) (aDP 1 0x1000) with cqPeak := (s.cqPeak.1, s.cqUsed.2) })
    ∧ (∀ s, BlockUp s .wf → exec .wfCtlClear s = .next (s.clearCounters (aWF 0) (aWF 0x2000)))
    ∧ (∀ n s, n < 128 → s.clusterOn (n / 16) = true → exec (.scCtlClear n) s = .next (s.clearCounters (aSC n 0) (aSC n 0x1000)))
    ∧ (∀ k s, s.clusterOn k = true → exec (.scClCtlClear k) s = .next (s.clearCounters (aSCC k 0) (aSCC k 0x1000)))
    ∧ (∀ s, s.pw.on.testBit 14 = true → exec .weCtlClear s = .next (s.clearCounters (aWE 0x010) (aWE 0x1000)))
    ∧ (∀ n s, n < 16 → BlockUp s (.tm n) → exec (.tmCtlClear n) s = .next (s.clearCounters (aTM n 0) (aTM n 0x1000)))
    ∧ (∀ s, exec .sxCtlClear s = .next (s.clearCounters (aSX 0x010) (aSX 0x1000)))
    ∧ (∀ s, exec .pwCtlClear s = .next { s.clearCounters (aPW 0x018) (aPW 0x038) with pw := { s.pw with peak := max s.pw.east (max s.pw.west s.pw.hub) } })
    ∧ ∀ s, exec .evCtlClear s = .next (s.clearCounters (aEV 0) (aEV 0x1000)))
  ∧ (
  (∀ k s, k < 64 → ¬ BlockUp s (.mc k) → exec (.mcCtlClear k) s = .next s)
    ∧ (∀ k s, k < 64 → ¬ BlockUp s (.ve k) → exec (.veCtlClear k) s = .next s)
    ∧ (∀ s, ¬ BlockUp s (.dp 1) → exec (.dpCtlClear 1) s = .next s)
    ∧ (∀ s, ¬ BlockUp s .wf → exec .wfCtlClear s = .next s)
    ∧ (∀ n s, s.clusterOn (n / 16) = false → exec (.scCtlClear n) s = .next s)
    ∧ (∀ k s, s.clusterOn k = false → exec (.scClCtlClear k) s = .next s)
    ∧ (∀ s, s.pw.on.testBit 14 = false → exec .weCtlClear s = .next s)
    ∧ ∀ n s, n < 16 → ¬ BlockUp s (.tm n) → exec (.tmCtlClear n) s = .next s)

/-- COUNTER_LO_READ: reading a counter's _LO word answers its low half and captures the counter, so that the _HI word then reads the
high half of that capture whatever the counter has become meanwhile. A register of a block that is absent reads zero. -/
def Obligations.CounterCapture : Prop :=
  (∀ (a : Nat) (s : State), BlockUp s (blockOf a).1 → regWord a = .ctrLo →
      exec (.counterLoRead a) s =
        .next { s with cap := NMap.set 0 s.cap a (s.countAt a), readData := [BitVec.ofNat 32 (s.countAt a)] })
    ∧ (∀ (a : Nat) (s : State), BlockUp s (blockOf a).1 → regWord a = .ctrHi →
        s.regRead a = (BitVec.ofNat 32 (NMap.get 0 s.cap (a - 4) / 2 ^ 32), s))
    ∧ ∀ (a : Nat) (s : State), blockAbsent s.variant (blockOf a).1 = true → s.regRead a = (0, s)

/-- SC_CL_CTL_HALT, SC_PROGRAM_WINDOW_WRITE, SC_FAULT_READ. HALT of a powered cluster takes the value written, but cannot be set while a
command of the radio runs. A word of the program window reaches the 16 program memories of a halted cluster; into a running one it is
discarded and counted. SC_FAULT reads its cause and address and clears; it reads 0 in a cluster that is off. -/
def Obligations.SignalClusterRegisters : Prop :=
  (∀ k h s, s.clusterOn k = true → (h = true → s.anyStarted = false) →
      exec (.scClCtlHalt k h) s = .next (s.setCluster k { s.cluster k with halt := h }))
    ∧ (∀ k h s, (s.clusterOn k = false ∨ (h = true ∧ s.anyStarted = true)) → exec (.scClCtlHalt k h) s = .next s)
    ∧ (∀ k i v s, s.clusterOn k = true → i < 16384 → s.clusterHalted k = true → exec (.scProgramWindowWrite k i v) s =
        .next (s.setCluster k { s.cluster k with pm := NMap.put i v (s.cluster k).pm, loaded := true, replaced := true }))
    ∧ (∀ k i v s, s.clusterOn k = true → i < 16384 → s.clusterHalted k = false →
        exec (.scProgramWindowWrite k i v) s = .next (s.bump (aSCC k 0x010) 1))
    ∧ (∀ n s, n < 128 → s.clusterOn (n / 16) = true → exec (.scFaultRead n) s = .next { s.setSc n { s.sc n with fault := (0, 0) } with
        readData := [BitVec.ofNat 32 ((s.sc n).fault.1 * 2 ^ 28 + (s.sc n).fault.2)] })
    ∧ ∀ n s, (128 ≤ n ∨ s.clusterOn (n / 16) = false) → exec (.scFaultRead n) s = .next { s with readData := [0] }

/-- REGISTER_WRITE. HW_REPLY_MOD takes its rw bits; the ring's base registers are written only while the ring is disabled; reserved
offsets ignore the write; a poisoned TLP writes nothing and is reported through AER; an internal register takes its effect only in a block that is there and on.
REG_READ and REG_WRITE complete OK: REG_READ with the words it names, read in order; REG_WRITE after its write. -/
def Obligations.RegisterAccess : Prop :=
  (
  (∀ n v s, n < 16 → exec (.registerWrite (.bar n 0x10004) v) s = .next (s.setFn n { s.fn n with replyMod := v &&& 0x03FF01FF }))
    ∧ (∀ n v s, n < 16 → exec (.registerWrite (.bar n 0x10008) v) s =
        .next (if (s.fn n).enable then s else s.setFn n { s.fn n with baseLo := v &&& 0xFFFFF000 }))
    ∧ (∀ n v s, n < 16 → exec (.registerWrite (.bar n 0x1000C) v) s = .next (if (s.fn n).enable then s else s.setFn n { s.fn n with baseHi := v }))
    ∧ (∀ v s, exec (.registerWrite (.bar 0 0x10024) v) s =
        .next { s with link := { s.link with holdoverMs := v.toNat % 65536 } })
    ∧ (∀ n v s, exec (.registerWrite (.bar n 0x1002C) v) s = .next s)
    ∧ (∀ n o v s, n < 16 → exec (.registerWrite (.barPoisoned n o) v) s = .next (s.aerEvent 12))
    ∧ (∀ a v s, (a % 4 ≠ 0 ∨ ¬ BlockUp s (blockOf a).1) → exec (.registerWrite (.internal a) v) s = .next s)
    ∧ ∀ t v s, t < 12 → exec (.registerWrite (.internal (0x09002000 + 16 * t)) v) s =
        .next { s with ev := { s.ev with thresh := NMap.set 0 s.ev.thresh t (v.toNat % 16) } })
  ∧ (
  (∀ s id c, Ready s 0xE004 id c → checkRegRead s c = none → exec (.opRegRead id) s =
      .next ((readWords (rrWords c) (Begun s c)).2.finish c.id 0 (readWords (rrWords c) (Begun s c)).1))
    ∧ (∀ a as s, readWords (a :: as) s = (leBytes 4 (s.regRead a).1.toNat ++ (readWords as (s.regRead a).2).1, (readWords as (s.regRead a).2).2))
    ∧ ∀ s id c, Ready s 0xE005 id c → checkRegWrite s c = none → exec (.opRegWrite id) s =
        .next (((Begun s c).regWrite (fieldAt c.params 0 4) (BitVec.ofNat 32 (fieldAt c.params 4 4))).finish c.id 0 []))

/-! ### The event controller (18) -/

/-- What a claim answers: no offered source outranks the one it names, and among those of its priority it has the lowest number; it names 0
exactly when nothing is offered. -/
def Obligations.ClaimIsHighestPriority : Prop :=
  ∀ (s : State) (t : Nat), s.offered t 0 = false →
    ((∀ n, n < 256 → s.offered t n = false) → s.claimable t = 0)
      ∧ ∀ n, n < 256 → s.offered t n = true → s.offered t (s.claimable t) = true ∧ s.claimable t < 256 ∧ s.claimable t ≠ 0
          ∧ ((s.src n).prio < (s.src (s.claimable t)).prio ∨ (s.src n).prio = (s.src (s.claimable t)).prio ∧ s.claimable t ≤ n)

/-- EVENT_SOURCE_INPUT, EV_CLAIM, EV_COMPLETE, EV_CTL.DISABLE: an edge source becomes pending on a rising edge, a level source while it is
high and not active; a claim takes the offered source, which is no longer pending and now owned, or is counted as spurious; a completion
ends the ownership of its owner's source, any other is counted and a write of 0 is not; an edge that came while the source was active
is offered after its completion. -/
def Obligations.EventController : Prop :=
  (∀ n s, sourcePresent s.variant n = true → sourceLevel n = false → exec (.eventSourceInput n true) s =
      .next (s.setSrc n { s.src n with input := true, pending := (s.src n).pending || !(s.src n).input }))
    ∧ (∀ n high s, sourcePresent s.variant n = true → sourceLevel n = true → (s.src n).owner = none → exec (.eventSourceInput n high) s =
        .next (s.setSrc n { s.src n with input := high, pending := high || (s.src n).pending }))
    ∧ (∀ n high s, sourcePresent s.variant n = true → sourceLevel n = true → (s.src n).owner ≠ none → exec (.eventSourceInput n high) s =
        .next (s.setSrc n { s.src n with input := high }))
    ∧ (∀ n high s, sourcePresent s.variant n = false → exec (.eventSourceInput n high) s = .next s)
    ∧ (∀ t s, t < 12 → s.claimable t ≠ 0 → exec (.evClaim t) s = .next (({ s with readData := [BitVec.ofNat 32 (s.claimable t)] }).setSrc (s.claimable t)
        { s.src (s.claimable t) with pending := false, owner := some t }))
    ∧ (∀ t s, t < 12 → s.claimable t = 0 → exec (.evClaim t) s = .next ({ s with readData := [0] }.bump (aEV 0x10) 1))
    ∧ (∀ t v s, t < 12 → v.toNat % 256 ≠ 0 → (s.src (v.toNat % 256)).owner = some t → sourceLevel (v.toNat % 256) = false →
        exec (.evComplete t v) s = .next (s.setSrc (v.toNat % 256) { s.src (v.toNat % 256) with owner := none }))
    ∧ (∀ t v s, t < 12 → v.toNat % 256 ≠ 0 → (s.src (v.toNat % 256)).owner = some t → sourceLevel (v.toNat % 256) = true →
        exec (.evComplete t v) s = .next (s.setSrc (v.toNat % 256)
          { s.src (v.toNat % 256) with owner := none, pending := (s.src (v.toNat % 256)).pending || (s.src (v.toNat % 256)).input }))
    ∧ (∀ t v s, t < 12 → v.toNat % 256 ≠ 0 → (s.src (v.toNat % 256)).owner ≠ some t → exec (.evComplete t v) s = .next (s.bump (aEV 0x08) 1))
    ∧ (∀ t v (s : State), v.toNat % 256 = 0 → exec (.evComplete t v) s = .next s)
    ∧ (∀ t n (s : State), NMap.wf Source.init s.ev.src = true → (s.src n).owner ≠ none → (s.src n).pending = true → (s.src n).mask.testBit t = true →
        s.threshold t ≤ (s.src n).prio → s.ev.disable = false →
        s.offered t n = false ∧ (s.setSrc n { s.src n with owner := none }).offered t n = true)
    ∧ ∀ on s, exec (.evCtlDisable on) s = .next { s with ev := { s.ev with disable := on } }

/-! ### Session opcodes (02) -/

/-- HELLO completes with the agreement made at its acceptance; CREDIT_QUERY with the window's credit and accept mark; NOP with nothing;
CAPS writes its block to the host buffer, or sends it after the record on the management port, and answers its length and CRC. -/
def Obligations.SessionOpcodes : Prop :=
  (∀ s id c, Ready s 0x0001 id c → exec (.opHello id) s = .next ((Begun s c).finish c.id 0 c.result))
    ∧ (∀ s id c, Ready s 0x0003 id c → exec (.opCreditQuery id) s = .next ((Begun s c).finish c.id 0
        (leBytes 4 (65536 - (s.fn c.tenant).unaccepted) ++ leBytes 2 (s.fn c.tenant).mark)))
    ∧ (∀ s id c, Ready s 0x0004 id c → exec (.opNop id) s = .next ((Begun s c).finish c.id 0 []))
    ∧ (∀ s id c, Ready s 0x0002 id c → checkCaps s c = none → c.entry ≠ .mgmt → exec (.opCaps id) s =
        .next (((Begun s c).dmaWrite c.fn (fieldAt c.params 0 8) c.trailer false).finish c.id 0
          (leBytes 4 c.trailer.length ++ leBytes 4 (crc32c c.trailer))))
    ∧ (∀ s id c, Ready s 0x0002 id c → c.entry = .mgmt → exec (.opCaps id) s =
        .next (((Begun s c).setCmd (begun s c)).finish c.id 0 (leBytes 4 c.trailer.length ++ leBytes 4 (crc32c c.trailer))))
    ∧ ∀ offer s c, helloAccepted offer s c =
        let locked := c.entry ≠ .mgmt ∧ s.anyOpen c.tenant = true
        let v := if locked then s.agreed c.entry c.tenant else if offer = 0x10 then 0x10 else 0x11
        (if c.entry = .mgmt then { s with mgmtVersion := v } else s.setFn c.tenant { s.fn c.tenant with version := v }).setCmd
          { c with result := leBytes 1 v ++ leBytes 1 0x11 ++ leBytes 1 1 ++ leBytes 1 (if locked then 1 else 0) ++ leBytes 4 s.fwVersion }

/-! ### Tenants and contexts (03) -/

/-- CONTEXT_OPEN makes the named context, or for 0xFF the lowest closed one, live at the priority asked, with everything else of it at
its initial value (step counter and seed 0) and its tier counters at zero, and answers its number. -/
def Obligations.ContextOpen : Prop :=
  ∀ s id c, Ready s 0x0005 id c → checkContextOpen s c = none →
    let n := if fieldAt c.params 0 1 = 0xFF then ((List.range (s.tenant c.tenant).contexts).find? fun k => (s.ctx c.tenant k).st = .closed).getD 0
      else fieldAt c.params 0 1
    exec (.opContextOpen id) s =
      .next ((((Begun s c).clearTier c.tenant n).setCtx c.tenant n { Ctx.init with st := .live, prio := fieldAt c.params 1 1 }).finish c.id 0 (leBytes 1 n))

/-- CONTEXT_CLOSE and CONTEXT_RESET. Accepted, a close makes its context closing and ends its replay; started, it waits while a command of
the context accepted before it is left; then residency, recording, promotions and pins go, the context is closed and the command completes.
An object of the tenant loses the context's promotion and pins, and a lowering that this allows follows at once. A reset that
waits completes the same way, with the context live, step counter, seed and tier counters 0, and the count of ended commands as its result.
What killing a context does (Table 3-12): a live one that no CONTEXT_RESET holds dies and its unstarted commands end with
CONTEXT_DEAD, reason 0x00; a closing one stays closing and its unstarted commands end; a closed or dead one is as it was. -/
def Obligations.ContextEnds : Prop :=
  (
  (∀ s c, closeAccepted s c = (s.setCtx c.tenant c.ctx { s.ctx c.tenant c.ctx with st := .closing }).endReplay c.tenant c.ctx)
    ∧ (∀ s id c, Ready s 0x0006 id c →
        let w := (Begun s c).setCmd { begun s c with stage := .waiting }
        (w.earlier (begun s c) = true → exec (.opContextClose id) s = .next w)
        ∧ (w.earlier (begun s c) = false → exec (.opContextClose id) s = .next
            (((((w.dropResidency fun r => r.tenant = c.tenant && r.ctx = c.ctx).stopRecording c.tenant c.ctx).dropHolds c.tenant c.ctx).setCtx
              c.tenant c.ctx Ctx.init).finish c.id 0 [])))
    ∧ (∀ s id c, s.cmd? id = some c → c.opcode = 0x0007 → c.stage = .waiting →
        let s1 := ((s.dropResidency fun r => r.tenant = c.tenant && r.ctx = c.ctx).stopRecording c.tenant c.ctx).clearArrivals c.tenant c.ctx
        (s.earlier c = true → exec (.opContextReset id) s = .next s)
        ∧ (s.earlier c = false → exec (.opContextReset id) s = .next (((s1.clearTier c.tenant c.ctx).setCtx c.tenant c.ctx { s1.ctx c.tenant c.ctx with
            st := .live, step := 0, seed := 0, stepping := none, sampling := false, stepFailed := none }).finish c.id 0 c.result)))
    ∧ (∀ (s : State) (t c h : Nat) (o : Obj), (s.tenant t).objs.map (·.1) = [h] → s.obj t h = some o →
        (NMap.get 0 o.promos c = 0 → NMap.get 0 o.pins c = 0 → s.dropHolds t c = s)
        ∧ (NMap.get 0 o.promos c ≠ 0 ∨ NMap.get 0 o.pins c ≠ 0 → s.dropHolds t c =
            tierSettle (s.setObj t h (some { o with promos := NMap.del c o.promos, pins := NMap.del c o.pins })) t h))
    ∧ ∀ (s : State) (t c : Nat) (d : Cmd), d ∈ (s.endUnstarted t c).cmds → d.tenant = t → d.ctx = c → scopeC d.opcode = true →
        d.unstarted = true → d.opcode = 0x0006 ∨ d.opcode = 0x0007)
  ∧ (
  ∀ (s : State) (t c : Nat),
    let ended := s.cmds.map fun d => if d.tenant = t ∧ d.ctx = c ∧ scopeC d.opcode ∧ d.unstarted ∧ d.opcode ≠ 0x0006 ∧ d.opcode ≠ 0x0007
      then { d with stage := .done, status := 0x0108, result := [0], signals := [] } else d
    ((s.ctx t c).st = .live → (∀ d ∈ s.cmds, d.tenant = t → d.ctx = c → d.opcode = 0x0007 → d.stage = .done) →
        s.kill t c = { s.setCtx t c { s.ctx t c with st := .dead } with cmds := ended })
      ∧ ((s.ctx t c).st = .closing → s.kill t c = { s with cmds := ended })
      ∧ ((s.ctx t c).st = .closed ∨ (s.ctx t c).st = .dead → s.kill t c = s))

/-- TENANT_PROVISION. Provisioning gives the tenant the limits of its packet, a period of 1,000 ms where the watchdog field is 0, and
restarts its window; modifying changes the limits and ends granted commands that no core may take any more; withdrawing takes the tenant
through its function-level reset and leaves it unprovisioned, its handles going on where they were.
HEARTBEAT_EXPIRY: once a whole period has passed at a whole millisecond, every live context of the tenant dies, HB_EXPIRED is set, the
period is over, the expiry is logged and the physical function gets notice 0x01; before that, or with no period in progress, nothing happens. -/
def Obligations.TenantsAndHeartbeats : Prop :=
  (
  ∀ s id c, Ready s 0xE007 id c → checkTenantProvision s c = none →
    let n := fieldAt c.params 0 1 % 16
    let b := Begun s c
    let limits (x : Tenant) : Tenant := { x with
      provisioned := true, contexts := fieldAt c.params 2 1, ceiling := fieldAt c.params 3 1 % 8, quota := fieldAt c.params 4 4
      coreMask := fieldAt c.params 8 8, share := fieldAt c.params 16 2, exports := fieldAt c.params 18 1, imports := fieldAt c.params 19 1
      watchdog := if fieldAt c.params 20 4 = 0 then 1000 else fieldAt c.params 20 4, heartbeat := fieldAt c.params 24 4
      hbStart := if x.heartbeat = 0 then some s.now else x.hbStart }
    (fieldAt c.params 1 1 = 0 → exec (.opTenantProvision id) s = .next (((b.setTenant n (limits { Tenant.init with
        lastHandle := (s.tenant n).lastHandle })).setFn n { (s.fn n).restart with hostLost := false, noticeDrop := 0 }).finish c.id 0 []))
      ∧ (fieldAt c.params 1 1 = 1 → exec (.opTenantProvision id) s = .next (((b.setTenant n (limits (s.tenant n))).sweepPlacement).finish c.id 0 []))
      ∧ (fieldAt c.params 1 1 = 2 → exec (.opTenantProvision id) s = .next (((b.flr n).setTenant n
          { Tenant.init with lastHandle := ((b.flr n).tenant n).lastHandle }).finish c.id 0 [])))
  ∧ (
  ∀ (t : Nat) (s : State),
    let x := s.tenant t
    let due := x.provisioned = true ∧ 0 < x.heartbeat ∧ ∃ b, x.hbStart = some b ∧ b + msec x.heartbeat ≤ s.now / msec 1 * msec 1
    (due → exec (.heartbeatExpiry t) s = .next ((((List.range 64).foldl (fun s c => s.kill t c) ((s.setFn t { s.fn t with hbExpired := true }).setTenant t { x with hbStart := none })).addLog
        { LogRec.none_ with cls := 6, outcome := 5, tenant := t }).notice 0 stOK (leBytes 1 1 ++ leBytes 1 t)))
      ∧ (¬ due → exec (.heartbeatExpiry t) s = .next s))

/-! ### The host link (03, 21) -/

/-- Host loss (R65): once lost, the link is down from that moment, every live context of every provisioned tenant dies with HOST_LOST set, and
running cells go into holdover. Loss of a link already lost changes only that it is down. -/
def Obligations.HostLoss : Prop :=
  ∀ s : State,
    (s.link.lostAt.isSome = true → s.hostLoss = { s with link := { s.link with up := false } })
      ∧ (s.link.lostAt = none → s.hostLoss =
          (((List.range 16).filter fun t => (s.tenant t).provisioned).foldl (fun (s : State) t =>
            let r := (List.range 64).foldl (fun (s : State) c => s.kill t c) s
            r.setFn t { r.fn t with hostLost := true }) { s with link := { s.link with up := false, lostAt := some s.now } }).cellsHoldover)

/-- The resets of the host link (R64, Table 21-6). Each brings host loss to every tenant and then clears VF Enable; PERST# also clears the sticky AER bits and the
readiness of the windows, an FLR of the physical function its registers and its configuration space only; hot reset, link disable and that
FLR do nothing while the link is down, PERST# nothing while it is asserted. PERST# release starts the wait of 100 ms.
SURPRISE_DOWN, HOLDOVER_EXPIRY, LINK_RETURN. Losing the link by surprise is host loss, and is logged. HOLDOVER_MS after the loss the cells in holdover
are marked to mute at their next slot boundary, and no earlier. With PERST# released, the link's return unprovisions every virtual
function, closes tenant 0's contexts, leaves the link up and not lost, and tells the time away in notice 0x03. -/
def Obligations.HostLinkEvents : Prop :=
  (
  (∀ s, s.link.up = true → exec .hotReset s = .next ({ s with link := { s.link with config := [] } }.hostLoss.clearVfs))
    ∧ (∀ s, s.link.up = true → exec .linkDisable s = .next ({ s with link := { s.link with config := [] } }.hostLoss.clearVfs))
    ∧ (∀ s, s.link.up = false → exec .hotReset s = .next s ∧ exec .linkDisable s = .next s ∧ exec .physicalFunctionFlr s = .next s)
    ∧ (∀ s, s.pw.perst = false → ∃ t, exec .perstAssertion s = .next t ∧ t.pw.perst = true ∧ t.pw.ready = false
        ∧ t = { { s with link := { s.link with config := [], aer := 0 } }.hostLoss.clearVfs with pw := t.pw })
    ∧ (∀ s, s.pw.perst = true → exec .perstAssertion s = .next s
        ∧ exec .perstRelease s = .next { s with pw := { s.pw with perst := false, perstAt := s.now } })
    ∧ (∀ s, s.pw.perst = false → exec .perstRelease s = .next s)
    ∧ (∀ s, s.link.up = true → exec .physicalFunctionFlr s = .next ({ s.setFn 0 Fn.init with
        link := { s.link with config := NMap.drop (fun k => k < 2 ^ 32) s.link.config } }.hostLoss.clearVfs))
    ∧ (∀ n s, (s.vfExists n = true ∧ s.link.up = true) →
        exec (.virtualFunctionFlr n) s = .next ((s.flr n).notice 0 stOK (leBytes 1 2 ++ leBytes 1 n)))
    ∧ (∀ n s, ¬ (s.vfExists n = true ∧ s.link.up = true) → exec (.virtualFunctionFlr n) s = .next s)
    ∧ ∀ s : State, s.clearVfs.link = { s.link with vfEnable := false, numVfs := 0 } ∧ (s.clearVfs.tenant 0 = s.tenant 0)
        ∧ ∀ t, 1 ≤ t → t < 16 → s.clearVfs.tenant t = { s.tenant t with provisioned := false })
  ∧ (
  (∀ s, s.link.up = true → exec .surpriseDown s = .next (s.hostLoss.addLog { LogRec.none_ with cls := 7, outcome := 0, island := 212, domain := 17 }))
    ∧ (∀ s, s.link.up = false → exec .surpriseDown s = .next s)
    ∧ (∀ s t, s.link.lostAt = some t → t + msec (min 60000 s.link.holdoverMs) ≤ s.now → exec .holdoverExpiry s = .next { s with
        cells := s.cells.map fun e => (e.1, e.2.map fun x => if x.st = .holdover then { x with mutePending := true } else x) })
    ∧ (∀ s, (∀ t, s.link.lostAt = some t → s.now < t + msec (min 60000 s.link.holdoverMs)) → exec .holdoverExpiry s = .next s)
    ∧ (∀ s, s.link.lostAt = none ∨ s.pw.perst = true → exec .linkReturn s = .next s)
    ∧ ∀ s t, s.link.lostAt = some t → s.pw.perst = false →
        let s1 := ((List.range 16).filter (· ≠ 0)).foldl (fun (s : State) n => s.unprovision n) s
        let s2 := (s1.cmds.filter fun c => c.tenant = 0 && scopeC c.opcode && c.entry ≠ .mgmt).foldl
          (fun (s : State) c => ((s.releaseCore c).freeEntry c).dropCmd c.id) s1
        let s3 := (s2.abandonRounds (·.tenant = 0)).dropResidency (·.tenant = 0)
        let s4 := s3.setTenant 0 { s3.tenant 0 with ctxs := [] }
        let s5 := s4.setFn 0 (s4.fn 0).flr
        exec .linkReturn s = .next ({ s5 with link := { s5.link with up := true, lostAt := none } }.settle.notice 0 stOK
          (leBytes 1 3 ++ leBytes 3 0 ++ leBytes 4 ((s.now - t) / msec 1))))

/-- Configuration requests, the I3C address, device reads of host memory. Before the windows are ready a configuration request is answered
with retry status (no data). A dynamic address is taken whenever the target answers at all. Data that arrives for a device read lands in
host memory; poisoned data lands with its lines poisoned and is reported; a read answered Unsupported Request or Completer Abort, or not at
all, fails the command that needs it and is reported. The bits of the report are the model's choice (log 114). -/
def Obligations.HostRequestsAndReads : Prop :=
  (∀ q s, s.pw.ready = false → exec (.configurationRequest q) s = .next { s with readData := [] })
    ∧ (∀ fn reg s, s.pw.ready = true → ∃ w : Word, exec (.configurationRequest (.read fn reg)) s = .next { s with readData := [w] }
        ∧ (reg = 0 → w.toNat / 65536 = if fn = 0 then 0x0A11 else 0x0A12))
    ∧ (∀ n s, s.pw.ready = true → s.link.vfEnable = false → n ≤ 15 →
        exec (.configurationRequest (.writeVfs true n)) s = .next { s with link := { s.link with vfEnable := true, numVfs := n } })
    ∧ (∀ n s, s.pw.ready = true → s.link.vfEnable = true → exec (.configurationRequest (.writeVfs true n)) s = .next s)
    ∧ (∀ a b s, s.pw.boot ≠ .reset → a < 128 → exec (.dynamicAddressAssignment a b) s = .next { s with pw := { s.pw with i3c := some a } })
    ∧ (∀ a b s, s.pw.boot = .reset → exec (.dynamicAddressAssignment a b) s = .next s)
    ∧ (∀ id fn a b s, s.link.up = true → fn < 16 →
        let u (bad : Bool) : State := { s.setHostMem fn (Memory.write (s.hostMem fn) a b) with
          hostPoison := NMap.set false s.hostPoison (hostLine fn (64 * (a / 64))) bad }
        exec (.dmaReadCompletion id fn a (.data [b])) s = .next (u false)
        ∧ exec (.dmaReadCompletion id fn a (.poisoned [b])) s = .next { u true with link := { s.link with aer := s.link.aer ||| 2 ^ 12 } })
    ∧ (∀ id fn a s, s.link.up = true → fn < 16 → exec (.dmaReadCompletion id fn a .unsupported) s =
        .next { s.readFailed id with link := { (s.readFailed id).link with aer := (s.readFailed id).link.aer ||| 2 ^ 20 } })
    ∧ (∀ id fn a s, s.link.up = true → fn < 16 → exec (.dmaReadCompletion id fn a .aborted) s =
        .next { s.readFailed id with link := { (s.readFailed id).link with aer := (s.readFailed id).link.aer ||| 2 ^ 15 } })
    ∧ (∀ id s, s.link.up = true → exec (.completionTimeout id) s =
        .next { s.readFailed id with link := { (s.readFailed id).link with aer := (s.readFailed id).link.aer ||| 2 ^ 14 } })
    ∧ ∀ id fn a o s, s.link.up = false → exec (.dmaReadCompletion id fn a o) s = .next s ∧ exec (.completionTimeout id) s = .next s

/-! ### Power, start-up, resets (21) -/

/-- Module reset (R428, R435): what is in the flash stays (slots, active slot, SECURITY, SIG_INDEX), everything else of the module goes to
its reset value; the command queue, host memory, messages already sent, the PERST# pin and the model's own counts are not the module's. -/
def Obligations.ModuleResetKeepsTheFlash : Prop :=
  (∀ s : State, let t := s.resetModule
    t.st = { Steward.init with slots := s.st.slots, active := s.st.active, security := s.st.security, sigIndex := s.st.sigIndex }
      ∧ t.cmds = [] ∧ t.cores = [] ∧ t.cells = [] ∧ t.scs = [] ∧ t.clusters = [] ∧ t.ctr = [] ∧ t.fabric = Fabric.init ∧ t.ev = Ev.init
      ∧ t.rel = Rel.init ∧ t.sx = Sexton.init ∧ t.eth = [] ∧ t.fns = [] ∧ t.pw.boot = .reset ∧ t.pw.on = 0 ∧ t.now = 0
      ∧ t.pending = s.pending ∧ t.variant = s.variant ∧ t.host = s.host ∧ t.mctp = s.mctp ∧ t.pw.perst = s.pw.perst)
    ∧ (∀ s, s.pw.boot ≠ .reset → exec .resetTrip s = .next s.resetModule ∧ exec .overvoltageTrip s = .next s.resetModule
        ∧ exec (.thermalTrip 0) s = .next s.resetModule ∧ exec (.thermalTrip 2) s = .next s.resetModule
        ∧ (s.variant.west = true → exec (.thermalTrip 1) s = .next s.resetModule)
        ∧ (s.variant.west = false → exec (.thermalTrip 1) s = .next s))
    ∧ (∀ s, s.pw.boot = .reset → exec .resetTrip s = .next s ∧ exec .overvoltageTrip s = .next s ∧ exec (.thermalTrip 0) s = .next s)
    ∧ (∀ s t, s.pw.resetAt = some t → t ≤ s.now → exec .moduleReset s = .next s.resetModule)
    ∧ ∀ s, (∀ t, s.pw.resetAt = some t → s.now < t) → exec .moduleReset s = .next s

/-- Start-up (R429–R431, R450). At input valid the hub's domain comes up and the boot ROM starts the active slot if its image verifies and its
security version is permitted, else the other slot, falling back and logging it, else the recovery set. At completion every domain of
the variant is on, firmware runs, FAULT_N is released and SECURITY has risen to the image's. The windows become ready once both waits
have passed. -/
def Obligations.StartUp : Prop :=
  (∀ o s, s.pw.boot = .reset → s.bootable s.st.active = true → o.recordOk = true → ∃ t, exec (.inputValid o) s = .next t
      ∧ t.pw.boot = .starting ∧ t.pw.validAt = s.now ∧ t.pw.on = 2 ^ 18 ∧ t.st.run = s.st.active ∧ t.st.fallback = false ∧ t.rel.log = s.rel.log
      ∧ t.pw.slotStrap = o.slotStrap % 64 ∧ t.pw.maddr = o.maddr % 8 ∧ t.pw.faultReleased = false)
    ∧ (∀ o s, s.pw.boot = .reset → s.bootable s.st.active = false → s.bootable (1 - s.st.active) = true → o.recordOk = true → s.st.active < 2 →
        ∃ t, exec (.inputValid o) s = .next t ∧ t.pw.boot = .starting ∧ t.st.run = 1 - s.st.active ∧ t.st.fallback = true)
    ∧ (∀ o s, s.pw.boot = .reset → ((s.bootable s.st.active = false ∧ s.bootable (1 - s.st.active) = false) ∨ o.recordOk = false) →
        ∃ t, exec (.inputValid o) s = .next t ∧ t.pw.boot = .recovery)
    ∧ (∀ o s, s.pw.boot ≠ .reset → exec (.inputValid o) s = .next s)
    ∧ (∀ t s, s.pw.boot = .starting →
        let u := (startOrder.filter s.variant.domainPresent).foldl (fun (s : State) d => s.powerUp t d) s
        let x := if u.st.run = 0 then u.st.slots[0] else u.st.slots[1]
        exec (.startupComplete t) s = .next { u with
          pw := { u.pw with boot := .running, faultReleased := true }, st := { u.st with security := max u.st.security x.security } })
    ∧ (∀ t s, s.pw.boot ≠ .starting → exec (.startupComplete t) s = .next s)
    ∧ ∀ s : State,
        let due := s.pw.boot = .running ∧ s.pw.perst = false ∧ s.pw.validAt + msec 180 ≤ s.now ∧ s.pw.perstAt + msec 100 ≤ s.now
          ∧ s.pw.refLost.testBit 0 = false
        (due → exec .windowReady s = .next { s with pw := { s.pw with ready := true }, link := { s.link with up := s.link.up || s.link.lostAt.isNone } })
        ∧ (¬ due → exec .windowReady s = .next s)

/-- Brown-out and measurement (R425–R427, R434). A warning in a running module opens an episode, counts it once and tells it in notice 0x30;
within an episode it only notes a lower voltage; before firmware runs it stops start-up. VIN good for 2 ms closes the episode with its
length in notice 0x31. A measurement is taken into the registers and the peak; while a cap is exceeded the capped clock steps down one
sixteenth, never below four.
Reference clocks (R437): a loss is noted and counted once and the reference's users stop; a return is noted. -/
def Obligations.BrownoutMeasurementReferences : Prop :=
  (
  (∀ v s, s.pw.boot = .running → s.pw.brown = none → exec (.brownoutWarning v) s =
      .next (({ s with pw := { s.pw with brown := some (s.now, v) } }.bump (aPW 0x018) 1).notice 0 stOK (leBytes 1 0x30 ++ leBytes 3 0 ++ leBytes 4 v)))
    ∧ (∀ v s t l, s.pw.boot = .running → s.pw.brown = some (t, l) →
        exec (.brownoutWarning v) s = .next { s with pw := { s.pw with brown := some (t, min l v) } })
    ∧ (∀ v s, s.pw.boot = .starting → exec (.brownoutWarning v) s = .next s.resetModule)
    ∧ (∀ s t l, s.pw.brown = some (t, l) → t + msec 2 ≤ s.now → exec .brownoutClear s =
        .next ({ s with pw := { s.pw with brown := none } }.notice 0 stOK (leBytes 1 0x31 ++ leBytes 3 0 ++ leBytes 4 ((s.now - t) / 4000))))
    ∧ (∀ s, (∀ t l, s.pw.brown = some (t, l) → s.now < t + msec 2) → exec .brownoutClear s = .next s)
    ∧ (∀ o s, s.pw.boot = .running → ∃ t, exec (.powerMeasurement o) s = .next t
        ∧ t.pw.watts = o.power % 65536 ∧ t.pw.vin = o.vin % 65536 ∧ t.pw.east = o.east % 256 ∧ t.pw.hub = o.hub % 256
        ∧ t.pw.peak = max s.pw.peak (max t.pw.east (max t.pw.west t.pw.hub))
        ∧ (s.pw.cap ≠ 0 → s.pw.cap < o.power → t.pw.capClock = max 4 (s.pw.capClock - 1))
        ∧ (100 ≤ o.east → t.pw.hotEast = max 4 (s.pw.hotEast - 1)) ∧ t = { s with pw := t.pw })
    ∧ ∀ o s, s.pw.boot ≠ .running → exec (.powerMeasurement o) s = .next s)
  ∧ (
  (∀ r s, (3 ≤ r ∨ s.pw.refLost.testBit r = true) → exec (.referenceLoss r) s = .next s)
    ∧ (∀ s, s.pw.refLost.testBit 0 = false → s.link.up = true → exec (.referenceLoss 0) s =
        .next ({ s with pw := { s.pw with refLost := s.pw.refLost ||| 1 } }.bump (aPW 0x030) 1).hostLoss)
    ∧ (∀ s, s.pw.refLost.testBit 1 = false → exec (.referenceLoss 1) s =
        .next ({ s with pw := { s.pw with refLost := s.pw.refLost ||| 2 } }.bump (aPW 0x030) 1).ethReferenceLost)
    ∧ (∀ s, s.pw.refLost.testBit 2 = false → s.sx.out ≠ 1 → exec (.referenceLoss 2) s =
        .next ({ s with pw := { s.pw with refLost := s.pw.refLost ||| 4 } }.bump (aPW 0x030) 1))
    ∧ (∀ r s, r < 2 → s.pw.refLost.testBit r = true →
        exec (.referenceReturn r) s = .next { s with pw := { s.pw with refLost := s.pw.refLost - 2 ^ r } })
    ∧ (∀ s, s.pw.refLost.testBit 2 = true →
        exec (.referenceReturn 2) s = .next { s with pw := { s.pw with refLost := s.pw.refLost - 4 } }.relock)
    ∧ ∀ r s, (3 ≤ r ∨ s.pw.refLost.testBit r = false) → exec (.referenceReturn r) s = .next s)

/-- POWER_POLICY and DOMAIN_SWITCH_DONE. Each action completes as Table 21-5 gives: a switch waits with its target state, its leaving cores
taking no more commands; a read answers the registers; a cap answers what was set at acceptance; a module reset comes 10 ms after. While an
earlier POWER_POLICY has not completed, it waits. A switch is done once its leaving cores are idle and no started cell holds a domain that
leaves (log 115): domains off child first, on parent
first, and the command completes with the domains then on. -/
def Obligations.PowerPolicy : Prop :=
  (∀ s id c, Ready s 0xE006 id c → s.earlierOf [0xE006] id = false → checkPowerPolicy s c = none →
      let b := Begun s c
      (fieldAt c.params 0 1 = 0 →
        let u := (b.removeCores (ppTarget s c)).sweepPlacement
        exec (.opPowerPolicy id) s = .next ({ u with pw := { u.pw with switching := some (c.id, ppTarget s c) } }.await c.id))
      ∧ (fieldAt c.params 0 1 = 1 → exec (.opPowerPolicy id) s = .next (b.finish c.id 0 (powerRead s)))
      ∧ (fieldAt c.params 0 1 = 2 → exec (.opPowerPolicy id) s = .next (b.finish c.id 0 c.result))
      ∧ (fieldAt c.params 0 1 = 3 → exec (.opPowerPolicy id) s =
          .next ({ b with pw := { s.pw with resetAt := some (s.now + msec 10) } }.finish c.id 0 [])))
    ∧ (∀ s id, s.earlierOf [0xE006] id = true → exec (.opPowerPolicy id) s = .next s)
    ∧ (∀ t s, s.pw.switching = none → exec (.domainSwitchDone t) s = .next s)
    ∧ ∀ t s id target, s.pw.switching = some (id, target) →
        let leaving := startOrder.reverse.filter fun d => s.pw.on.testBit d && !target.testBit d
        let coming := startOrder.filter fun d => target.testBit d && !s.pw.on.testBit d
        (∀ k, k < 64 → (k / 8) ∈ leaving → (s.core k).running = none) → s.radioHolds leaving = false →
        let u := coming.foldl (fun (s : State) d => s.powerUp t d) (leaving.foldl (fun (s : State) d => s.powerOff d) s)
        exec (.domainSwitchDone t) s = .next ({ u with pw := { u.pw with switching := none } }.finish id 0 (leBytes 4 target))

/-! ### Steward's firmware (22) -/

/-- FW_STAGE writes its bytes at its offset of the inactive slot, from the host on the physical function's entry and from ST_STAGE on the
management port; FIRST starts from an erased slot; a packet that is not LAST completes OK and leaves the slot staged to its entry; LAST
completes OK with the image's version where the slot verifies at a permitted security version, and else with 0xD2 or 0xD3.
FW_ACTIVATE and hot restart. DEFER only makes the staged slot active; a hot restart completes the events the Steward cores own and waits;
any other activation resets the module 10 ms later. The new firmware's first answer within 200 ms completes FW_ACTIVATE with the versions
and raises SECURITY; after 200 ms the old slot runs on, the failure is logged and FW_ACTIVATE ends with 0x76. -/
def Obligations.Firmware : Prop :=
  (
  ∀ s id c, Ready s 0xE001 id c → s.earlierOf [0xE001, 0xE002] id = false → checkFwStage s c = none →
    let bs := if c.entry = .mgmt then Memory.readN s.st.stage 0 (fieldAt c.params 12 4) else Memory.readN (s.hostMem 0) (fieldAt c.params 0 8) (fieldAt c.params 12 4)
    let old := if (fieldAt c.params 16 1).testBit 0 then [] else (s.st.slot (1 - s.st.active)).bytes
    let y := slotOf (Memory.writeN old (fieldAt c.params 8 4) bs)
    let last := (fieldAt c.params 16 1).testBit 1
    let ok := y.sound = true ∧ s.st.security ≤ y.security
    let b := Begun s c
    (last = false → exec (.opFwStage id) s = .next ({ b with st := { s.st.putSpare y with owner := some c.entry, staged := 1 } }.finish c.id 0 []))
      ∧ (last = true → ok → exec (.opFwStage id) s =
          .next ({ b with st := { s.st.putSpare y with owner := none, staged := 2 } }.finish c.id 0 (leBytes 4 y.version)))
      ∧ (last = true → y.sound = false → exec (.opFwStage id) s =
          .next ({ b with st := { s.st.putSpare y with owner := none, staged := 1 } }.finish c.id 0x0204 [0xD2]))
      ∧ (last = true → y.sound = true → y.security < s.st.security → exec (.opFwStage id) s =
          .next ({ b with st := { s.st.putSpare y with owner := none, staged := 1 } }.finish c.id 0x0204 [0xD3])))
  ∧ (
  (∀ s id c, Ready s 0xE002 id c → s.earlierOf [0xE001, 0xE002] id = false → s.pw.switching = none → s.activating = false →
      checkFwActivate s c = none →
      let b := Begun s c
      let moved := { s.st with active := 1 - s.st.active, staged := 0, owner := none }
      ((fieldAt c.params 0 1).testBit 0 = true → exec (.opFwActivate id) s = .next ({ b with st := moved }.finish c.id 0 []))
      ∧ ((fieldAt c.params 0 1).testBit 0 = false → hotPath s c = true → exec (.opFwActivate id) s =
          .next ({ b.stewardRestart with st := { s.st with hot := some (c.id, s.now) } }.await c.id))
      ∧ ((fieldAt c.params 0 1).testBit 0 = false → hotPath s c = false → exec (.opFwActivate id) s =
          .next ({ b with st := moved, pw := { s.pw with resetAt := some (s.now + msec 10) } }.finish c.id 0 [])))
    ∧ (∀ s id t, s.st.hot = some (id, t) → s.now ≤ t + msec 200 →
        let a := 1 - s.st.active
        let x := if a = 0 then s.st.slots[0] else s.st.slots[1]
        exec .hotRestartResume s = .next ({ s with st := { s.st with
            active := a, staged := 0, owner := none, run := a, fallback := false, hot := none, security := max s.st.security x.security } }.finish
          id 0 (leBytes 4 0 ++ leBytes 4 x.version)))
    ∧ (∀ s id t, s.st.hot = some (id, t) → t + msec 200 ≤ s.now → exec .hotRestartTimeout s =
        .next (({ s.stewardRestart with st := { s.st with hot := none } }.logRecord
          { LogRec.none_ with cls := 9, outcome := 0, island := 221, domain := 18 }).finish id 0x0107 [0x76]))
    ∧ ∀ s, s.st.hot = none → exec .hotRestartResume s = .next s ∧ exec .hotRestartTimeout s = .next s)

/-- ATTEST spends the signature index it held and answers it with the number left; with KEY it signs nothing and answers the number left.
With SIG_INDEX at 2^20 it is refused with 0x74, before any index is spent. -/
def Obligations.Attestation : Prop :=
  (∀ s id c, Ready s 0xE003 id c → checkAttest s c = none → (fieldAt c.params 40 1).testBit 0 = false →
      let i := s.st.sigIndex
      let b := Begun s c
      let body := attestBody b (begun s c)
      let spent := { b with st := { s.st with
        sigIndex := i + 1, spent := s.spentDay ++ [s.now]
        vfSpent := if c.entry = Entry.vf then NMap.set none s.st.vfSpent c.tenant (some s.now) else s.st.vfSpent } }
      exec (.opAttest id) s = .next ((spent.writeBlock (begun s c) (fieldAt c.params 32 8)
        (body ++ fitBytes 2828 (Config.lmsSign i body) ++ leBytes 20 0)).finish c.id 0 (leBytes 4 i ++ leBytes 4 (2 ^ 20 - (i + 1)))))
    ∧ (∀ s id c, Ready s 0xE003 id c → checkAttest s c = none → (fieldAt c.params 40 1).testBit 0 = true → exec (.opAttest id) s =
        .next (((Begun s c).writeBlock (begun s c) (fieldAt c.params 32 8) ((List.range 4096).map Config.idKey)).finish c.id 0
          (leBytes 4 0 ++ leBytes 4 (2 ^ 20 - s.st.sigIndex))))
    ∧ ∀ s id c, Ready s 0xE003 id c → (c.entry = .mgmt ∨ fieldAt c.params 32 8 % 64 = 0) → (fieldAt c.params 40 1).testBit 0 = false →
        s.st.sigIndex = 2 ^ 20 → exec (.opAttest id) s = .next ((s.setCmd { c with signals := [] }).finish c.id 0x0107 [0x74])

/-! ### The tier manager (08) -/

/-- ALLOC, FREE, COPY, FILL. ALLOC gives the next handle an object of the size, home, level (the home), import and base asked for, with no
promotion and no pin, charges a T2 home, and answers its reference and charge; with ZERO the map of a host home is also written as zero
blocks, and that of a T3 home posted, which a fenced module cannot. FREE, once those accepted before it on its object are done, no earlier
command names the object, nothing moves it and no region of it remains, takes it away. COPY and FILL write their lines one after another,
and answer the count of poisoned lines copied; a line that must come from another module is asked for first, and a FREE's turn comes after
that of the tier commands accepted before it. -/
def Obligations.AllocFreeCopyFill : Prop :=
  (∀ s id c, Ready s 0x1001 id c → checkAlloc s c = none →
      let o := allocObj c
      let t := s.tenant c.tenant
      let h := nextHandle t 16385 t.lastHandle
      let b := (Begun s c).setTenant c.tenant { t with lastHandle := h }
      let u := b.setObj c.tenant h (some (s.placed o))
      (o.size = c.p 0 8 ∧ o.home = c.p 8 1 ∧ o.level = c.p 8 1 ∧ o.imp = c.p 12 4 ∧ o.base = c.p 16 8 ∧ o.compress = (c.p 9 1).testBit 0
          ∧ o.promos = [] ∧ o.pins = [] ∧ o.moving = 0 ∧ (o.home ≠ 2 → o.charged = 0) ∧ (o.home = 2 → o.charged = o.storage + o.mapArea)
          ∧ (s.variant.west = true → s.placed o = o) ∧ (s.variant.west = false → s.placed o = { o with die := 1 }))
        ∧ ((c.p 9 1).testBit 4 = false → exec (.opAlloc id) s = .next (u.ok c.id (leBytes 8 (mkRef h) ++ leBytes 8 o.charged)))
        ∧ ((c.p 9 1).testBit 4 = true → o.home = 4 → exec (.opAlloc id) s =
            .next ((u.dmaWrite c.fn (o.base + o.storage) (zeroMap (o.size / 4096)) false).ok c.id (leBytes 8 (mkRef h) ++ leBytes 8 o.charged)))
        ∧ (∀ i, (c.p 9 1).testBit 4 = true → o.home = 3 → s.fabric.fenced = false → NMap.get none s.fabric.imports o.imp = some i →
            exec (.opAlloc id) s = .next ((u.postLines i c.tenant c.ctx c.id (if i.mode = 2 then 1 else 0) i.epoch
              ((zeroMap (o.size / 4096)).length + 1) (i.base + o.base + o.storage) (zeroMap (o.size / 4096)) false).ok c.id
                (leBytes 8 (mkRef h) ++ leBytes 8 o.charged)))
        ∧ ((c.p 9 1).testBit 4 = true → o.home = 3 → s.fabric.fenced = true →
            exec (.opAlloc id) s = .next ((Begun s c).fail c.id stTierFailed [0x23])))
    ∧ (∀ s id c, Ready s 0x1002 id c → checkFree s c = none →
        let h := refHandle (c.p 0 8)
        let w := { begun s c with stage := Stage.waiting, since := s.now, fence := if freeBehind (Begun s c) (begun s c) then [(0, 0)] else [] }
        let b := (s.exportNums c.tenant h).foldl (fun (s : State) n => s.revokeRegion n c.id) ((Begun s c).setCmd w)
        (s.behind c = true → exec (.opFree id) s = .next s)
          ∧ (s.behind c = false → freeReady b w = true → exec (.opFree id) s = .next ((b.setObj c.tenant h none).ok c.id []))
          ∧ (s.behind c = false → freeReady b w = false → (freeBehind (Begun s c) (begun s c) = freeBehind b w) →
              exec (.opFree id) s = .next b))
    ∧ (∀ s id c, Ready s 0x1003 id c → checkCopy s c = none → Settled runCopy (Begun s c) (begun s c) →
        let b := Begun s c
        let n := c.p 16 8 / 64
        let src := takeLines b c.id c.tenant (c.p 0 8) n 0
        let put := putLines c.tenant c.ctx c.id (c.p 8 8) c.determinism 0 src.1 (b.bump (aTI c.tenant c.ctx 0x20) (src.1.countP (·.2)))
        (put.2 = none → src.2 = none → exec (.opCopy id) s = .next (put.1.ok c.id (leBytes 4 (src.1.countP (·.2)))))
          ∧ (∀ f, put.2 = some f → exec (.opCopy id) s = .next (put.1.fail c.id f.1 f.2))
          ∧ ∀ f, put.2 = none → src.2 = some f → exec (.opCopy id) s = .next ((put.1.poisonObj c.tenant (refHandle (c.p 8 8))
              (refOff (c.p 8 8) + 64 * src.1.length) (64 * n - 64 * src.1.length)).fail c.id f.1 f.2))
    ∧ (∀ s id c f, Ready s 0x1003 id c → checkCopy s c = none → (runCopy (Begun s c) (begun s c)).asks c.id = some f → fieldAt f.2 0 1 = 0 →
        exec (.opCopy id) s = .next ((Begun s c).seeTo c.tenant c.ctx c.id f))
    ∧ ∀ s id c, Ready s 0x1004 id c → checkFill s c = none → Settled runFill (Begun s c) (begun s c) →
        let line := (List.range 8).flatMap fun _ => (c.params.drop 16).take 8
        let put := putLines c.tenant c.ctx c.id (c.p 0 8) c.determinism 0 (List.replicate (c.p 8 8 / 64) (line, false)) (Begun s c)
        (put.2 = none → exec (.opFill id) s = .next (put.1.ok c.id []))
          ∧ ∀ f, put.2 = some f → exec (.opFill id) s = .next (put.1.fail c.id f.1 f.2)

/-- Levels (R159, R160). The commands on one object take their turns in the order of acceptance. A PROMOTE records its context's level and
waits for it; a promotion above the object's level starts a raise, the raise's
end brings the copy to its target and answers those who waited, and a raise that cannot read its home fails and leaves the level. An EVICT of
a context with no promotion completes at once; one that other
contexts or a pin still hold completes DEFERRED with the level and the numbers that hold it; else it waits for its lowering. A PIN completes
at once where nothing moves
and counts one more, or fails where it would pass a limit, as one that waited does when its turn comes; UNPIN counts one less, and answers 1 where there was none.
TIER_QUERY answers an object's home, level, move, its context's promotion and pins, the counts of each and its compressed blocks, or writes a
context's counters to memory; COMPRESS_HINT sets the alphabet of blocks written afterwards. A tracker retires after 100 µs without a touch,
one with a descriptor after its last element too. L2 may
write a line back whose home this module may write, and no line of a pinned T1 object. The patrol scrub counts and logs a single-bit error,
and poisons the line of a double-bit one. -/
def Obligations.LevelsAndTiers : Prop :=
  (
  (∀ s id c, Ready s 0x1010 id c → checkPromote s c = none → s.behind c = false →
      let o := refObj s c (c.p 0 8)
      let h := refHandle (c.p 0 8)
      let b := Begun s c
      (c.p 8 1 = 0x11 → exec (.opPromote id) s = .next ((armStream b c.tenant (c.p 16 8) 1 0 ((c.params.drop 16).take 32)).ok c.id []))
        ∧ (c.p 8 1 ≠ 0x11 → exec (.opPromote id) s = .next (tierSettle ((b.setObj c.tenant h (some { o with
            promos := NMap.set 0 o.promos c.ctx (c.p 8 1), waiting := o.waiting ++ [(c.id, NMap.get 0 o.promos c.ctx)] })).await c.id) c.tenant h)))
    ∧ (∀ s id c, s.cmd? id = some c → s.behind c = true → exec (.opPromote id) s = .next s ∧ exec (.opEvict id) s = .next s
        ∧ exec (.opPin id) s = .next s ∧ exec (.opUnpin id) s = .next s ∧ exec (.opCompressHint id) s = .next s)
    ∧ (∀ s t h o, s.obj t h = some o →
        let rd := moveReader t h
        let ls := s.snapshot rd t h o
        (o.moving ≠ 0 → tierSettle s t h = s)
          ∧ (o.moving = 0 → o.wanted < o.level → tierSettle s t h = s.setObj t h (some { o with
              moving := 1, target := o.wanted, charged := if o.wanted = 2 ∧ o.home > 2 then o.storage + o.mapArea else o.charged }))
          ∧ (o.moving = 0 → o.level < o.wanted → o.pins = [] → o.waiting = [] →
              tierSettle s t h = s.setObj t h (some { o with
                moving := 2, target := o.wanted, charged := if o.wanted = 2 ∧ o.home > 2 then o.storage + o.mapArea else o.charged }))
          ∧ (o.moving = 0 → o.wanted = o.level → tierSettle s t h = tierReplies s t h 1024)
          ∧ (o.moving ≠ 1 → exec (.raiseComplete t h) s = .next s)
          ∧ (o.moving ≠ 2 → exec (.loweringComplete t h) s = .next s)
          ∧ (o.moving = 1 → moveStop ls = none → moveAsks ls = [] → exec (.raiseComplete t h) s = .next (tierSettle (tierReplies
              ((s.dropReader rd).setObj t h (some { o with
                moving := 0, level := o.target, data := ls.foldl (fun m l => Memory.writeN m (64 * l.1) l.2.1) [], hole := []
                poison := ls.foldl (fun m l => NMap.set false m l.1 l.2.2.1) o.poison })) t h 1024) t h))
          ∧ (o.moving = 1 → moveStop ls = none → moveAsks ls ≠ [] → o.home ≠ 2 →
              exec (.raiseComplete t h) s = .next ((moveAsks ls).foldl (fun (s : State) f => s.seeTo t 0 rd f) s))
          ∧ (o.moving = 1 → ∀ f, moveStop ls = some f → exec (.raiseComplete t h) s = .next (tierSettle (tierFailAll
              ((s.dropReader rd).setObj t h (some { o with moving := 0, charged := if o.home = 2 ∨ o.level = 2 then o.charged else 0 }))
              t h f 0x1010 1024) t h))
          ∧ (o.moving = 2 → ∀ f, (if s.owns o then s.copyStop o <|> s.backStop o else none) = some f →
              exec (.loweringComplete t h) s = .next (lowerFail s t h f)
              ∧ (o.waiting = [] → o.level ≤ o.wanted → lowerFail s t h f =
                  s.setObj t h (some { o with moving := 0, charged := if o.home = 2 ∨ o.level = 2 then o.charged else 0 })))
          ∧ (o.moving = 2 → (if s.owns o then s.copyStop o <|> s.backStop o else none) = none →
              let s1 := if s.owns o ∧ o.target = o.home then s.writeBackAll t h else s
              ∀ o1, s1.obj t h = some o1 →
                let back := o1.target = o1.home
                exec (.loweringComplete t h) s = .next (tierSettle (tierReplies (s1.setObj t h (some { o1 with
                  moving := 0, level := o1.target, charged := if o1.home = 2 ∨ o1.target = 2 then o1.charged else 0
                  data := if back then [] else o1.data, dirty := if back then [] else o1.dirty
                  hole := if back then [] else o1.hole, epochs := if back then [] else o1.epochs
                  poison := if back ∧ o1.home ≠ 2 then [] else o1.poison })) t h 1024) t h)))
    ∧ (∀ s id c, Ready s 0x1011 id c → checkEvict s c = none → s.behind c = false →
        let o := refObj s c (c.p 0 8)
        let h := refHandle (c.p 0 8)
        let o1 := { o with promos := NMap.del c.ctx o.promos }
        let same := o1.promos.any fun e => e.2 == o.level
        let b := Begun s c
        (NMap.get 0 o.promos c.ctx = 0 → exec (.opEvict id) s = .next (b.ok c.id []))
          ∧ (NMap.get 0 o.promos c.ctx ≠ 0 → (same = true ∨ o.pins ≠ []) → exec (.opEvict id) s = .next ((b.setObj c.tenant h (some o1)).finish
              c.id stDeferred (leBytes 1 (b2n same + 2 * b2n (!o.pins.isEmpty)) ++ leBytes 1 o.level ++ leBytes 2 o1.promos.length
                ++ leBytes 2 o.pins.length)))
          ∧ (NMap.get 0 o.promos c.ctx ≠ 0 → same = false → o.pins = [] → exec (.opEvict id) s = .next
              (tierSettle ((b.setObj c.tenant h (some { o1 with waiting := o1.waiting ++ [(c.id, 0)] })).await c.id) c.tenant h)))
    ∧ (∀ s id c, Ready s 0x1012 id c → checkPin s c = none → s.behind c = false →
        let o := refObj s c (c.p 0 8)
        let h := refHandle (c.p 0 8)
        let u := ((Begun s c).setObj c.tenant h (some { o with waiting := o.waiting ++ [(c.id, 0)] })).await c.id
        (o.moving ≠ 0 → exec (.opPin id) s = .next u)
          ∧ (o.moving = 0 → exec (.opPin id) s = .next (tierSettle (tierReplies u c.tenant h 1024) c.tenant h)))
    ∧ (∀ s t h f o w, s.obj t h = some o → o.moving = 0 → o.waiting.find? (dueReply s o) = some w →
        tierReplies s t h (f + 1) = tierReplies (tierReply s t h { o with waiting := o.waiting.filter (· ≠ w) } w.1) t h f)
    ∧ (∀ s t h o id c, s.cmd? id = some c → c.opcode = 0x1012 →
        (s.pinStop t o c.ctx = none → tierReply s t h o id =
            (s.setObj t h (some { o with pins := NMap.set 0 o.pins c.ctx (NMap.get 0 o.pins c.ctx + 1) })).ok id [])
          ∧ ∀ f, s.pinStop t o c.ctx = some f → tierReply s t h o id = (s.setObj t h (some o)).fail id f.1 f.2)
    ∧ (∀ s id c, Ready s 0x1013 id c → checkUnpin s c = none → s.behind c = false →
        let o := refObj s c (c.p 0 8)
        let h := refHandle (c.p 0 8)
        let n := NMap.get 0 o.pins c.ctx
        (n = 0 → exec (.opUnpin id) s = .next ((Begun s c).ok c.id [1]))
          ∧ (n ≠ 0 → exec (.opUnpin id) s = .next (tierSettle
              (((Begun s c).setObj c.tenant h (some { o with pins := NMap.set 0 o.pins c.ctx (n - 1) })).ok c.id [0]) c.tenant h)))
    ∧ ∀ s t h, s.obj t h = none → exec (.raiseComplete t h) s = .next s ∧ exec (.loweringComplete t h) s = .next s)
  ∧ (
  (∀ s id c, Ready s 0x1014 id c → checkTierQuery s c = none → Settled runTierQuery (Begun s c) (begun s c) →
      let o := refObj s c (c.p 0 8)
      let b := Begun s c
      let entries := (List.range (o.size / 4096)).map fun i => b.mapEntry c.id c.tenant o i
      let answer (blocks : Nat) : List Byte :=
        leBytes 1 o.home ++ leBytes 1 o.level ++ leBytes 1 o.moving ++ leBytes 1 (NMap.get 0 o.promos c.ctx)
          ++ leBytes 2 (NMap.get 0 o.pins c.ctx) ++ leBytes 2 o.promos.length ++ leBytes 2 o.pins.length ++ leBytes 2 0 ++ leBytes 4 blocks
      (c.p 0 8 = 0 → exec (.opTierQuery id) s = .next ((b.dmaWrite c.fn (c.p 8 8) ((List.range 6).flatMap (fun i =>
          leBytes 8 (s.count (aTI c.tenant c.ctx (8 * i)))) ++ List.replicate 16 0) false).ok c.id []))
        ∧ (c.p 0 8 ≠ 0 → o.compress = false → exec (.opTierQuery id) s = .next (b.ok c.id (answer 0)))
        ∧ (c.p 0 8 ≠ 0 → o.compress = true → (entries.findSome? fun e => e.2.2) = none →
            exec (.opTierQuery id) s = .next (b.ok c.id (answer (entries.countP fun e => e.1.st == 1))))
        ∧ (c.p 0 8 ≠ 0 → o.compress = true → 4096 ≤ o.size → o.home = 4 → s.link.up = false →
            exec (.opTierQuery id) s = .next (b.fail c.id stTierFailed [4])))
    ∧ (∀ s id c, Ready s 0x1020 id c → checkHint s c = none → s.behind c = false → Settled runHint (Begun s c) (begun s c) →
        let o := refObj s c (c.p 0 8)
        let b := Begun s c
        let stop := (b.snapshot c.id c.tenant (refHandle (c.p 0 8)) o).findSome? fun l => l.2.2.2
        (c.p 8 1 ≠ 3 → exec (.opCompressHint id) s =
            .next ((b.setObj c.tenant (refHandle (c.p 0 8)) (some { o with alphabet := c.p 8 1 })).ok c.id []))
          ∧ (c.p 8 1 = 3 → stop = none → b.owns o = false → exec (.opCompressHint id) s = .next (b.fail c.id stPoison [0x10]))
          ∧ (c.p 8 1 = 3 → ∀ f, stop = some f → exec (.opCompressHint id) s = .next (b.fail c.id f.1 f.2))
          ∧ (c.p 8 1 = 3 → stop = none → b.owns o = true →
              let lines := List.range (o.size / 64)
              let epoch := match NMap.get none s.fabric.imports o.imp with | some i => i.epoch | none => 0
              let o1 := lines.foldl (fun o l => b.liftLine c.id c.tenant (refHandle (c.p 0 8)) o l) o
              let o2 := lines.foldl (fun o l => o.modify epoch (64 * l) 64 l) o1
              exec (.opCompressHint id) s = .next (((b.setObj c.tenant (refHandle (c.p 0 8)) (some o2)).writeBackAll
                c.tenant (refHandle (c.p 0 8))).ok c.id [])))
    ∧ (∀ slice k s x, NMap.get none s.trackers (16 * slice + k) = some x → k < 16 →
        ((x.touchedAt + usec 100 ≤ s.now ∨ x.kind = 1 ∧ x.count ≤ x.touchedEl) → exec (.trackerRetire slice k) s =
            .next { s with trackers := NMap.set none s.trackers (16 * slice + k) none })
          ∧ (s.now < x.touchedAt + usec 100 → (x.kind ≠ 1 ∨ x.touchedEl < x.count) → exec (.trackerRetire slice k) s = .next s))
    ∧ (∀ slice k s, NMap.get none s.trackers (16 * slice + k) = none → exec (.trackerRetire slice k) s = .next s)
    ∧ (∀ t h line s, s.obj t h = none → exec (.l2WriteBack t h line) s = .next s ∧ ∀ e, exec (.patrolScrub t h line e) s = .next s)
    ∧ (∀ t h line s o, s.obj t h = some o →
        (((s.backStop o).isSome = true ∨ s.owns o = false ∨ (o.level = 2 ∧ 2 < o.home) ∨ (o.level = 1 ∧ o.pins ≠ [])) →
            exec (.l2WriteBack t h line) s = .next s)
          ∧ (s.backStop o = none → s.owns o = true → (o.level ≠ 2 ∨ o.home ≤ 2) → (o.level ≠ 1 ∨ o.pins = []) →
              exec (.l2WriteBack t h line) s = .next (s.writeBackLine t h line)))
    ∧ ∀ t h line s o, s.obj t h = some o → (o.home = 2 ∨ o.level = 2) → 64 * line < o.storage → NMap.get false s.rel.channels (o.channel line) = false →
        let u := { s with rel := { s.rel with dram := NMap.set 0 s.rel.dram (dramKey t h line) 0 } }
        NMap.get 0 s.rel.dram (dramKey t h line) = 0 →
        exec (.patrolScrub t h line .clean) s = .next s
          ∧ exec (.patrolScrub t h line .single) s = .next ((u.bump (aTID (o.channel line / 64) 8) 1).addLog (dramLog 1 0 t h line o false))
          ∧ exec (.patrolScrub t h line .double) s = .next (((u.bump (aTID (o.channel line / 64) 16) 1).setObj t h
              (some { o with poison := NMap.set false o.poison line true })).addLog (dramLog 2 1 t h line o false))
          ∧ exec (.patrolScrub t h line .linkSingle) s = .next (s.bump (aTID (o.channel line / 64) 0x18) 1)
          ∧ exec (.patrolScrub t h line .linkDouble) s = .next (s.linkError t h line o))

/-! ### Cores and the vector engine (04–07) -/

/-- Core commands. VECTOR_LOAD reads its image, takes it under its handle and answers its length, or tells its first bad instruction.
VECTOR_RUN puts the start values of Table 7-1 on its core and waits. MATMUL_CHAIN, REDUCE, GATHER_ROWS and SAMPLE read and compute, and end on
their core: a failed read ends them by that failure, their outputs poisoned; a chain with no row to feed reads no operand. At the end of the
work the checks are judged first; where nothing disagrees the writes go out in order and the command completes OK with its result, and a
write that fails ends it. A line that must come from another module is asked for instead, and the work is done when it has come. A Cooper
round open for 50 µs is abandoned. -/
def Obligations.CoreCommands : Prop :=
  (∀ s id c, Ready s 0x2003 id c → checkVectorLoad s c = none → Settled runVectorLoad (Begun s c) (begun s c) →
      let b := Begun s c
      let t := b.tenant c.tenant
      (∀ bs, b.consume c.id c.tenant (c.p 0 8) 0 (c.p 8 4) = .ok bs → imageCheck (doubles bs) = none →
        exec (.opVectorLoad id) s = .next ((b.setTenant c.tenant { t with
          programs := NMap.set [] t.programs (c.p 12 1) (doubles bs)
          programCharge := t.programCharge - imageCharge (t.image (c.p 12 1)).length + imageCharge (doubles bs).length }).ok c.id
            (leBytes 4 (doubles bs).length)))
        ∧ (∀ bs f, b.consume c.id c.tenant (c.p 0 8) 0 (c.p 8 4) = .ok bs → imageCheck (doubles bs) = some f →
            exec (.opVectorLoad id) s = .next (b.finish c.id f.1 f.2))
        ∧ ∀ f, b.consume c.id c.tenant (c.p 0 8) 0 (c.p 8 4) = .error f → exec (.opVectorLoad id) s = .next (b.fail c.id f.1 f.2))
    ∧ (∀ s id c k, Running s 0x2002 id c → c.core = some k →
        let v := Ve.start c c.image
        exec (.opVectorRun id) s = .next ((s.setCore k { s.core k with ve := some v }).await c.id)
          ∧ v.pc = c.p 2 2 ∧ v.executed = 0 ∧ (∀ n, n < 32 → v.tile n = Tile.zero) ∧ (∀ n, n < 8 → v.pred n = BitVec.allOnes 256)
          ∧ (∀ n, n < 8 → v.scalar n = 0) ∧ ∀ n, 8 ≤ n → n < 16 → v.scalar n = BitVec.ofNat 64 (c.p (16 + 8 * (n - 8)) 8))
    ∧ (∀ s id c, Running s 0x2001 id c → Settled runChain s c →
        let outs := chainOutputs s c
        let k := c.core.getD 0
        (∀ f, chainFed s c = .error f → exec (.opMatmulChain id) s = .next (s.coreFail c f outs))
          ∧ ∀ fed, chainFed s c = .ok fed →
              let cycles := chainCycles c fed.length (cycleBound c fed.length)
              let whole (s : State) : State := s.countChain k c fed.length cycles (fed.length * c.chN * c.chK)
              (21 * c.limit < cycles.busy → exec (.opMatmulChain id) s = .next s)
              ∧ (cycles.busy ≤ 21 * c.limit → fed = [] → exec (.opMatmulChain id) s = .next (s.coreEnd c {} [] whole (fun s => s)))
              ∧ (cycles.busy ≤ 21 * c.limit → fed ≠ [] →
                (∀ f, chainRows s c fed = .error f → exec (.opMatmulChain id) s = .next ((s.countFailed c fed.length).coreFail c f outs))
                ∧ ∀ b rows, chainRows s c fed = .ok (b, rows) →
                  exec (.opMatmulChain id) s = .next ({ s with free := s.free + 1 }.coreEnd c
                    { verdict := if c.checked then chainVerdict c b rows else none, sampled := sampledCycles c fed.length
                      writes := chainWrites c (rows.map (freeRow c s.free (chainInputs c fed))) }
                    outs whole (fun s => s.countFailed c fed.length))))
    ∧ (∀ s id c, Running s 0x2004 id c → Settled runReduce s c →
        (21 * c.limit < reduceCycles c → exec (.opReduce id) s = .next s)
          ∧ (reduceCycles c ≤ 21 * c.limit →
            (∀ f, reduceLoop s c c.rdCount 0 = .error f → exec (.opReduce id) s = .next ((s.countReduceCut c).coreFail c f (reduceOutputs c)))
            ∧ (∀ ws, reduceLoop s c c.rdCount 0 = .ok (ws, []) → exec (.opReduce id) s = .next (s.coreEnd c
                { sampled := reduceCycles c - 64, writes := ws } (reduceOutputs c) (·.countReduce c) (·.countReduceCut c)))
            ∧ ∀ ws bad, reduceLoop s c c.rdCount 0 = .ok (ws, bad) → bad ≠ [] →
                let put := writeAll c.tenant c.ctx c.id c.determinism (reduceSound c bad ws) s
                (∀ f, put.2 = some f → exec (.opReduce id) s = .next ((put.1.countReduceCut c).coreFail c f (reduceOutputs c)))
                ∧ (put.2 = none → exec (.opReduce id) s = .next (((put.1.countReduce c).bump (aTI c.tenant c.ctx 0x20)
                    (s.poisonedLines c.id c.tenant (reduceSources c) - 1)).coreFail c (stPoison, [0]) bad))))
    ∧ (∀ s id c, Running s 0x2005 id c → Settled runGather s c →
        (∀ f, gatherRead s c = .error f → exec (.opGatherRows id) s = .next (s.coreFail c f (gatherOutputs c)))
          ∧ ∀ heads, gatherRead s c = .ok heads →
              let rows (k : Nat) := heads.filter fun h => h.slot = k
              let pair := listSize c.gaC + listSize c.gaO
              let ov := (List.range c.gaE).map fun k => (rows k).length - c.gaC
              exec (.opGatherRows id) s = .next (s.coreEnd c
                { result := leBytes 4 heads.length ++ leBytes 4 ov.sum ++ leBytes 2 (ov.countP (· > 0))
                  writes := (List.range c.gaE).flatMap fun k => listWrites (c.p 8 8) (k * pair) c.gaC ((rows k).take c.gaC)
                    ++ listWrites (c.p 8 8) (k * pair + listSize c.gaC) c.gaO ((rows k).drop c.gaC) } (gatherOutputs c) (fun s => s) (fun s => s)))
    ∧ (∀ s id c, Running s 0x2013 id c → Settled runSample s c →
        let outs := sampleOutputs s c
        (∀ f, s.openRows c.id c.tenant (c.p 48 8) c.smRows = .error f → exec (.opSample id) s = .next (s.coreFail c f outs))
          ∧ ∀ rows, s.openRows c.id c.tenant (c.p 48 8) c.smRows = .ok rows →
              (∀ f, sampleWrites s c rows = .error f → exec (.opSample id) s = .next (s.coreFail c f outs))
              ∧ ∀ ws, sampleWrites s c rows = .ok ws → exec (.opSample id) s =
                  .next ({ s with free := s.free + c.smRows }.coreEnd c { sampled := rows.length, writes := ws } outs (fun s => s) (fun s => s)))
    ∧ (∀ s id c f, Running s 0x2001 id c → (runChain s c).asks c.id = some f → fieldAt f.2 0 1 = 0 →
        exec (.opMatmulChain id) s = .next (s.seeTo c.tenant c.ctx c.id f))
    ∧ (∀ (s : State) (c : Cmd) (w : Work) (outs : Ranges) (whole cut : State → State),
        let k := c.core.getD 0
        let r := ((s.streams c).tierStalls c).scratchRead k
        (r.1 = true → s.coreEnd c w outs whole cut = (cut r.2).coreFail c (stPoison, [0]) outs)
        ∧ (r.1 = false →
          let j := r.2.judge c w.verdict w.sampled
          (j.1 ≠ 0 → s.coreEnd c w outs whole cut = (cut j.2).disagree c j.1 outs w.writes)
          ∧ (j.1 = 0 →
            let put := writeAll c.tenant c.ctx c.id c.determinism w.writes j.2
            (∀ f, put.2 = some f → s.coreEnd c w outs whole cut = (cut put.1).coreFail c f outs)
            ∧ (put.2 = none → s.coreEnd c w outs whole cut = ((whole put.1).releaseCore c).finish c.id 0 w.result))))
    ∧ (∀ (s : State) (c : Cmd) (verdict : Option Bool) (sampled : Nat), (s.core (c.core.getD 0)).inject = (0, 0, 0) →
        (c.checked = false ∨ verdict ≠ some false) → (s.judge c verdict sampled).1 = 0)
    ∧ (∀ q s r, NMap.get none s.coopers q = some r → q < 8 →
        (r.openedAt + usec 50 ≤ s.now → exec (.cooperRoundTimeout q) s = .next
          (({ s with coopers := NMap.set none s.coopers q none }.setCtx r.tenant r.ctx { s.ctx r.tenant r.ctx with cooperMark := true }).bump
            (aCoop q 0x10) 1))
        ∧ (s.now < r.openedAt + usec 50 → exec (.cooperRoundTimeout q) s = .next s))
    ∧ ∀ q s, NMap.get none s.coopers q = none → exec (.cooperRoundTimeout q) s = .next s

/-- Every instruction of a program that is the one at its program counter issues and has its effect (R131): the program counter moves on, it
counts once, its cycles and interlocked cycles are counted, and what its opcode's function says of the engine holds; the loads, stores,
the softmax macro and the Coopers' exchange may end the command instead, and what must come from another module is asked for first; a branch
taken goes to its immediate; END ends the command. On a
core with no program nothing happens. Where an armed mismatch makes the shadow unit differ the core stops. (Draws of free values, log 4, are counted and nothing is said of them.) -/
def Obligations.VectorInstructions : Prop :=
  ∀ (core : Nat) (w : Dbl) (s : State),
    let draws (n : Nat) (t : State) : State := { t with free := t.free + n }
    (s.program core = none → ∀ i ∈ [Instr.veAdd core w, Instr.veSub core w, Instr.veMul core w, Instr.veFma core w, Instr.veMin core w, Instr.veMax core w,
        Instr.veSel core w, Instr.veExp2 core w, Instr.veLog2 core w, Instr.veRcp core w, Instr.veRsq core w, Instr.veTanh core w,
        Instr.veRelu core w, Instr.veGelu core w, Instr.veSilu core w, Instr.veSwiglu core w, Instr.veCvtn core w, Instr.veCvtwl core
        w, Instr.veCvtwh core w, Instr.veCvtfi core w, Instr.veCvtif core w, Instr.veAnd core w, Instr.veOr core w, Instr.veXor core
        w, Instr.veShl core w, Instr.veShra core w, Instr.veMovs core w, Instr.veIotac core w, Instr.veIotar core w, Instr.veShc1
        core w, Instr.veTrn core w, Instr.vePand core w, Instr.vePor core w, Instr.vePnot core w, Instr.vePset core w, Instr.vePclr
        core w, Instr.veRsum core w, Instr.veRprod core w, Instr.veRmax core w, Instr.veRmin core w, Instr.veRcnt core w,
        Instr.veRmean core w, Instr.veScan core w, Instr.veSscan core w, Instr.veCspush core w, Instr.veCsfin core w, Instr.veCsclr
        core w, Instr.veTopk core w, Instr.veTopkclr core w, Instr.veNop core w, Instr.veAddi core w, Instr.veAddScalar core w,
        Instr.veSubScalar core w, Instr.veMuli core w, Instr.veAndi core w, Instr.veMvsv core w, Instr.veAbs core w, Instr.veNeg core
        w, Instr.veCmpeq core w, Instr.veCmplt core w, Instr.veCmple core w, Instr.veCmpun core w, Instr.veShli core w, Instr.veShri
        core w, Instr.veLdt core w, Instr.veLds core w, Instr.veStt core w, Instr.veSts core w, Instr.veBr core w, Instr.veBeqz core
        w, Instr.veBnez core w, Instr.veBlt core w, Instr.veSmx core w, Instr.veCput core w, Instr.veCget core w, Instr.veEnd core w,
        Instr.veLoop core w], exec i s = .next s)
    ∧ ∀ (v : Ve) (c : Cmd),
    let e := (v.advance w false).1
    let u := s.issued core v w false
    let y := (v.advance w true).1
    let x := s.issued core v w true
    let l := u.veWaits core e c 0x20 0
    let k := u.veWaits core e c 0x38 2
    e = { v with pc := v.pc + 1, executed := v.executed + 1, cycle := e.cycle, ready := e.ready }
      ∧ (Issues s core v c w 0 0x01 → exec (.veAdd core w) s = .next (u.setVe core (tAdd w e)))
      ∧ (Issues s core v c w 0 0x02 → exec (.veSub core w) s = .next (u.setVe core (tSub w e)))
      ∧ (Issues s core v c w 0 0x03 → exec (.veMul core w) s = .next (u.setVe core (tMul w e)))
      ∧ (Issues s core v c w 0 0x04 → exec (.veFma core w) s = .next (u.setVe core (tFma w e)))
      ∧ (Issues s core v c w 0 0x05 → exec (.veMin core w) s = .next (u.setVe core (tMin w e)))
      ∧ (Issues s core v c w 0 0x06 → exec (.veMax core w) s = .next (u.setVe core (tMax w e)))
      ∧ (Issues s core v c w 0 0x0E → exec (.veSel core w) s = .next (u.setVe core (tSel w e)))
      ∧ (Issues s core v c w 0 0x10 → exec (.veExp2 core w) s = .next (u.setVe core (tExp2 w e)))
      ∧ (Issues s core v c w 0 0x11 → exec (.veLog2 core w) s = .next (u.setVe core (tLog2 w e)))
      ∧ (Issues s core v c w 0 0x12 → exec (.veRcp core w) s = .next (u.setVe core (tRcp w e)))
      ∧ (Issues s core v c w 0 0x13 → exec (.veRsq core w) s = .next (u.setVe core (tRsq w e)))
      ∧ (Issues s core v c w 0 0x14 → exec (.veTanh core w) s = .next (u.setVe core (tTanh w e)))
      ∧ (Issues s core v c w 0 0x18 → exec (.veRelu core w) s = .next (u.setVe core (tRelu w e)))
      ∧ (Issues s core v c w 0 0x19 → exec (.veGelu core w) s = .next (u.setVe core (tGelu w e)))
      ∧ (Issues s core v c w 0 0x1A → exec (.veSilu core w) s = .next (u.setVe core (tSilu w e)))
      ∧ (Issues s core v c w 0 0x1B → exec (.veSwiglu core w) s = .next (u.setVe core (tSwiglu w e)))
      ∧ (Issues s core v c w 0 0x20 → exec (.veCvtn core w) s = .next (u.setVe core (tCvtn w e)))
      ∧ (Issues s core v c w 0 0x21 → exec (.veCvtwl core w) s = .next (u.setVe core (tCvtwl w e)))
      ∧ (Issues s core v c w 0 0x22 → exec (.veCvtwh core w) s = .next (u.setVe core (tCvtwh w e)))
      ∧ (Issues s core v c w 0 0x23 → exec (.veCvtfi core w) s = .next (u.setVe core (tCvtfi w e)))
      ∧ (Issues s core v c w 0 0x24 → exec (.veCvtif core w) s = .next (u.setVe core (tCvtif w e)))
      ∧ (Issues s core v c w 0 0x28 → exec (.veAnd core w) s = .next (u.setVe core (tAnd w e)))
      ∧ (Issues s core v c w 0 0x29 → exec (.veOr core w) s = .next (u.setVe core (tOr w e)))
      ∧ (Issues s core v c w 0 0x2A → exec (.veXor core w) s = .next (u.setVe core (tXor w e)))
      ∧ (Issues s core v c w 0 0x2B → exec (.veShl core w) s = .next (u.setVe core (tShl w e)))
      ∧ (Issues s core v c w 0 0x2C → exec (.veShra core w) s = .next (u.setVe core (tShra w e)))
      ∧ (Issues s core v c w 0 0x30 → exec (.veMovs core w) s = .next (u.setVe core (tMovs w e)))
      ∧ (Issues s core v c w 0 0x31 → exec (.veIotac core w) s = .next (u.setVe core (tIotac w e)))
      ∧ (Issues s core v c w 0 0x32 → exec (.veIotar core w) s = .next (u.setVe core (tIotar w e)))
      ∧ (Issues s core v c w 0 0x33 → exec (.veShc1 core w) s = .next (u.setVe core (tShc1 w e)))
      ∧ (Issues s core v c w 0 0x34 → exec (.veTrn core w) s = .next (u.setVe core (tTrn w e)))
      ∧ (Issues s core v c w 0 0x38 → exec (.vePand core w) s = .next (u.setVe core (tPand w e)))
      ∧ (Issues s core v c w 0 0x39 → exec (.vePor core w) s = .next (u.setVe core (tPor w e)))
      ∧ (Issues s core v c w 0 0x3A → exec (.vePnot core w) s = .next (u.setVe core (tPnot w e)))
      ∧ (Issues s core v c w 0 0x3B → exec (.vePset core w) s = .next (u.setVe core (tPset w e)))
      ∧ (Issues s core v c w 0 0x3C → exec (.vePclr core w) s = .next (u.setVe core (tPclr w e)))
      ∧ (Issues s core v c w 1 0x00 → exec (.veRsum core w) s = .next (u.setVe core (xRsum w e)))
      ∧ (Issues s core v c w 1 0x01 → exec (.veRprod core w) s = .next (u.setVe core (xRprod w e)))
      ∧ (Issues s core v c w 1 0x02 → exec (.veRmax core w) s = .next (u.setVe core (xRmax w e)))
      ∧ (Issues s core v c w 1 0x03 → exec (.veRmin core w) s = .next (u.setVe core (xRmin w e)))
      ∧ (Issues s core v c w 1 0x04 → exec (.veRcnt core w) s = .next (u.setVe core (xRcnt w e)))
      ∧ (Issues s core v c w 1 0x05 → exec (.veRmean core w) s = .next (u.setVe core (xRmean w e)))
      ∧ (Issues s core v c w 1 0x08 → exec (.veScan core w) s = .next (u.setVe core (xScan w e)))
      ∧ (Issues s core v c w 1 0x09 → exec (.veSscan core w) s = .next (u.setVe core (xSscan w e)))
      ∧ (Issues s core v c w 1 0x10 → exec (.veCspush core w) s = .next (u.setVe core (xCspush w e)))
      ∧ (Issues s core v c w 1 0x11 → exec (.veCsfin core w) s = .next (u.setVe core (xCsfin w e)))
      ∧ (Issues s core v c w 1 0x12 → exec (.veCsclr core w) s = .next (u.setVe core (xCsclr w e)))
      ∧ (Issues s core v c w 1 0x18 → exec (.veTopk core w) s = .next (u.setVe core (xTopk w e)))
      ∧ (Issues s core v c w 1 0x19 → exec (.veTopkclr core w) s = .next (u.setVe core (xTopkclr w e)))
      ∧ (Issues s core v c w 3 0x01 → exec (.veNop core w) s = .next (u.setVe core e))
      ∧ (Issues s core v c w 3 0x02 → exec (.veAddi core w) s = .next (u.setVe core (sAddi w e)))
      ∧ (Issues s core v c w 3 0x03 → exec (.veAddScalar core w) s = .next (u.setVe core (sAdd w e)))
      ∧ (Issues s core v c w 3 0x04 → exec (.veSubScalar core w) s = .next (u.setVe core (sSub w e)))
      ∧ (Issues s core v c w 3 0x05 → exec (.veMuli core w) s = .next (u.setVe core (sMuli w e)))
      ∧ (Issues s core v c w 3 0x08 → exec (.veAndi core w) s = .next (u.setVe core (sAndi w e)))
      ∧ (Issues s core v c w 3 0x18 → exec (.veMvsv core w) s = .next (u.setVe core (sMvsv w e)))
      ∧ (Issues s core v c w 0 0x08 → exec (.veAbs core w) s = .next (draws 256 (u.setVe core (tAbs s.free w e))))
      ∧ (Issues s core v c w 0 0x09 → exec (.veNeg core w) s = .next (draws 256 (u.setVe core (tNeg s.free w e))))
      ∧ (Issues s core v c w 0 0x0A → exec (.veCmpeq core w) s = .next (draws 256 (u.setVe core (tCmpeq s.free w e))))
      ∧ (Issues s core v c w 0 0x0B → exec (.veCmplt core w) s = .next (draws 256 (u.setVe core (tCmplt s.free w e))))
      ∧ (Issues s core v c w 0 0x0C → exec (.veCmple core w) s = .next (draws 256 (u.setVe core (tCmple s.free w e))))
      ∧ (Issues s core v c w 0 0x0D → exec (.veCmpun core w) s = .next (draws 256 (u.setVe core (tCmpun s.free w e))))
      ∧ (Issues s core v c w 3 0x06 → exec (.veShli core w) s = .next (draws 2 (u.setVe core (sShli s.free w e))))
      ∧ (Issues s core v c w 3 0x07 → exec (.veShri core w) s = .next (draws 2 (u.setVe core (sShri s.free w e))))
      ∧ (Issues s core v c w 2 0x00 → (∀ x, doLdt l.2 c w l.1 = .ok x → (l.2.setVe core x).asks c.id = none →
            exec (.veLdt core w) s = .next (l.2.setVe core x))
          ∧ (∀ f, doLdt l.2 c w l.1 = .error f → (veFail l.1 c f l.2).asks c.id = none → exec (.veLdt core w) s = .next (veFail l.1 c f l.2))
          ∧ ∀ f g, doLdt l.2 c w l.1 = .error f → (veFail l.1 c f l.2).asks c.id = some g → fieldAt g.2 0 1 = 0 →
            exec (.veLdt core w) s = .next (s.seeTo c.tenant c.ctx c.id g))
      ∧ (Issues s core v c w 2 0x02 → (∀ x, doLds l.2 c w l.1 = .ok x → (l.2.setVe core x).asks c.id = none →
            exec (.veLds core w) s = .next (l.2.setVe core x))
          ∧ ∀ f, doLds l.2 c w l.1 = .error f → (veFail l.1 c f l.2).asks c.id = none → exec (.veLds core w) s = .next (veFail l.1 c f l.2))
      ∧ (Issues s core v c w 2 0x01 → (∀ t, doStt c w e u = (t, none) → t.asks c.id = none → exec (.veStt core w) s = .next t)
          ∧ ∀ t f, doStt c w e u = (t, some f) → (veFail e c f t).asks c.id = none → exec (.veStt core w) s = .next (veFail e c f t))
      ∧ (Issues s core v c w 2 0x03 → (∀ t, doSts c w e u = (t, none) → t.asks c.id = none → exec (.veSts core w) s = .next t)
          ∧ ∀ t f, doSts c w e u = (t, some f) → (veFail e c f t).asks c.id = none → exec (.veSts core w) s = .next (veFail e c f t))
      ∧ (Issues s core v c w 3 0x10 → exec (.veBr core w) s = .next (x.setVe core { y with pc := fImm w % 8192 }))
      ∧ (Issues s core v c w 3 0x11 → (v.scalar (fSA w) = 0 → exec (.veBeqz core w) s = .next (x.setVe core { y with pc := fImm w % 8192 }))
          ∧ (¬ (v.scalar (fSA w) = 0) → exec (.veBeqz core w) s = .next (u.setVe core e)))
      ∧ (Issues s core v c w 3 0x12 → (v.scalar (fSA w) ≠ 0 → exec (.veBnez core w) s = .next (x.setVe core { y with pc := fImm w % 8192 }))
          ∧ (¬ (v.scalar (fSA w) ≠ 0) → exec (.veBnez core w) s = .next (u.setVe core e)))
      ∧ (Issues s core v c w 3 0x13 → ((v.scalar (fSA w)).toInt < (v.scalar (fSB w)).toInt → exec (.veBlt core w) s = .next (x.setVe core { y with pc := fImm w % 8192 }))
          ∧ (¬ ((v.scalar (fSA w)).toInt < (v.scalar (fSB w)).toInt) → exec (.veBlt core w) s = .next (u.setVe core e)))
      ∧ (Issues s core v c w 2 0x08 →
          let z := doSmx c w l.1 l.2
          (z.2.1 = none → (z.1.setVe core z.2.2).asks c.id = none → exec (.veSmx core w) s = .next (z.1.setVe core z.2.2))
          ∧ ∀ f, z.2.1 = some f → (veFail l.1 c f z.1).asks c.id = none → exec (.veSmx core w) s = .next (veFail l.1 c f z.1))
      ∧ (Issues s core v c w 2 0x10 → c.tenant = 0 → exec (.veCput core w) s = .next (veFail e c boundFault u))
      ∧ (Issues s core v c w 2 0x10 → c.tenant ≠ 0 → otherRound s (core / 8) c (coopTag w v) = true → exec (.veCput core w) s = .next s)
      ∧ (Issues s core v c w 2 0x10 → c.tenant ≠ 0 → otherRound s (core / 8) c (coopTag w v) = false →
          exec (.veCput core w) s = .next (doCput (core / 8) c w k.1 (k.2.setVe core k.1)))
      ∧ (Issues s core v c w 2 0x11 → c.tenant = 0 → exec (.veCget core w) s = .next (veFail e c boundFault u))
      ∧ (Issues s core v c w 2 0x11 → c.tenant ≠ 0 → (s.ctx c.tenant c.ctx).cooperMark = true → exec (.veCget core w) s =
          .next (veFail k.1 c (stPoison, [0x11]) (k.2.setCtx c.tenant c.ctx { s.ctx c.tenant c.ctx with cooperMark := false })))
      ∧ (Issues s core v c w 2 0x11 → c.tenant ≠ 0 → (s.ctx c.tenant c.ctx).cooperMark = false → cgetRoot s (core / 8) c w v = none →
          exec (.veCget core w) s = .next s)
      ∧ (Issues s core v c w 2 0x11 → c.tenant ≠ 0 → (s.ctx c.tenant c.ctx).cooperMark = false → ∀ t, cgetRoot s (core / 8) c w v = some t →
          exec (.veCget core w) s = .next (({ k.2 with coopers := NMap.set none s.coopers (core / 8) none }.bump (aCoop (core / 8) 0x08) 1).setVe core
            (k.1.setTile (mVD w) (writeActive (v.tile (mVD w)) (v.pred (mQP w)) false fun i => t.el i))))
      ∧ (Issues s core v c w 3 0x00 → v.pc < v.image.length → (veFinish e c u).asks c.id = none → exec (.veEnd core w) s = .next (veFinish e c u))
      ∧ (s.program core = some (v, c) → v.image.length ≤ v.pc → (veFinish v c s).asks c.id = none → exec (.veEnd core w) s = .next (veFinish v c s))
      ∧ (∀ fmt op taken body, Issuing s core v c w fmt op → (s.core core).inject.2.2 > 0 → veSampled w = true → veIssue v w false ≠ 0 →
          veStep fmt op taken body core w s = (s.shadowed core v w (taken v)).2.disagree c 7 (v.outputs (s.shadowed core v w (taken v)).2 c.tenant) [])
      ∧ (Issues s core v c w 3 0x14 → v.scalar (fSA w) ≠ 1 → exec (.veLoop core w) s =
          .next (x.setVe core { y.setScalar (fSA w) (v.scalar (fSA w) - 1) with pc := fImm w % 8192 }))
      ∧ (Issues s core v c w 3 0x14 → v.scalar (fSA w) = 1 → exec (.veLoop core w) s = .next (u.setVe core (e.setScalar (fSA w) 0)))

/-- What the vector engine computes (R129–R142), element by element. `a` and `b` are the sources of element `i`. FP32 results are rounded once from
the exact one; INT32 wraps, or saturates with SAT; pairs act on each half. An inactive element keeps its value, or becomes +0 with ZERO.
Bits, shifts, moves, transposes, predicate logic, compares, counts and integer sums are what their names say. Nothing else of the engine
changes; Q0 reads ones, S0 reads 0, and writes to them are discarded. -/
def Obligations.VectorElements : Prop :=
  ∀ (v : Ve) (w : Dbl) (i : Nat), i < 256 →
    let a := (v.tile (tVA w)).el i
    let b := bOperand v w i
    let c := (v.tile (tVC w)).el i
    let old := (v.tile (tVD w)).el i
    let active := on (v.pred (tQP w)) i
    let r (f : Dbl → Ve → Ve) := ((f w v).tile (tVD w)).el i
    let q (f : Dbl → Ve → Ve) (n : Nat) := on ((f w v).pred n) i
    let halves (f : Fl → Fl → Fl) (p : Fmt) : Word := BitVec.ofNat 32 (p.enc false (f (p.dec (a.toNat % 65536)) (p.dec (b.toNat % 65536)))
      + 65536 * p.enc false (f (p.dec (a.toNat / 65536)) (p.dec (b.toNat / 65536))))
    (∀ f ∈ [tAdd, tSub, tMul, tMin, tMax, tFma, tSel, tExp2, tLog2, tRcp, tRsq, tTanh, tRelu, tGelu, tSilu, tSwiglu, tCvtn, tCvtwl, tCvtwh, tCvtfi,
        tCvtif, tAnd, tOr, tXor, tShl, tShra, tMovs, tIotac, tIotar, tShc1, tTrn],
      (active = false → r f = if tZero w then 0 else old)
        ∧ (∀ n, n ≠ tVD w → (f w v).tile n = v.tile n) ∧ f w v = { v with tiles := (f w v).tiles })
    ∧ (active = true → veType w = 0 →
        r tAdd = enc32 ((dec32 a).add (dec32 b)) ∧ r tSub = enc32 ((dec32 a).sub (dec32 b)) ∧ r tMul = enc32 ((dec32 a).mul (dec32 b))
          ∧ r tFma = enc32 (((dec32 a).mul (dec32 b)).add (dec32 c)) ∧ r tMin = enc32 (minFl (dec32 a) (dec32 b))
          ∧ r tMax = enc32 (maxFl (dec32 a) (dec32 b)) ∧ r tRelu = enc32 (reluFl (dec32 a)))
    ∧ (active = true → veType w = 0 →
        (((dec32 a).isNan = true ∨ (dec32 b).isNan = true) → r tMin = nan32 ∧ r tMax = nan32
          ∧ ∀ n, tQD w ≠ 0 → q (tCmplt n) (tQD w) = false ∧ q (tCmple n) (tQD w) = false)
        ∧ ((dec32 a).isNan = false → (dec32 b).isNan = false → r tMin = enc32 (if Fl.lt0 (dec32 b) (dec32 a) then dec32 b else dec32 a)
          ∧ r tMax = enc32 (if Fl.lt0 (dec32 a) (dec32 b) then dec32 b else dec32 a))
        ∧ (((a = 0x80000000 ∧ b = 0) ∨ (a = 0 ∧ b = 0x80000000)) → r tMin = 0x80000000 ∧ r tMax = 0 ∧ ∀ n, tQD w ≠ 0 → q (tCmpeq n) (tQD w) = true)
        ∧ (a = 0xFF800000 → (dec32 b).isNan = false → r tMin = 0xFF800000) ∧ (a = 0x7F800000 → (dec32 b).isNan = false → r tMax = 0x7F800000))
    ∧ (∀ s m e t n f, Fl.lt0 (.fin s m e) (.fin t n f) =
        (decide ((if s then -1 else 1 : ℚ) * m * 2 ^ e < (if t then -1 else 1 : ℚ) * n * 2 ^ f) || (decide (m = 0 ∧ n = 0) && s && !t)))
    ∧ (active = true → veType w = 1 → tSat w = false → r tAdd = a + b ∧ r tSub = a - b ∧ r tMul = a * b)
    ∧ (active = true → veType w = 1 → tSat w = true →
        (r tAdd).toInt = max (-(2 ^ 31)) (min (2 ^ 31 - 1) (a.toInt + b.toInt)) ∧ (r tSub).toInt = max (-(2 ^ 31)) (min (2 ^ 31 - 1) (a.toInt - b.toInt))
          ∧ (r tMul).toInt = max (-(2 ^ 31)) (min (2 ^ 31 - 1) (a.toInt * b.toInt)))
    ∧ (active = true → veType w = 1 → (r tMin).toInt = min a.toInt b.toInt ∧ (r tMax).toInt = max a.toInt b.toInt)
    ∧ (active = true → veType w = 2 → r tAdd = halves Fl.add bf16 ∧ r tSub = halves Fl.sub bf16 ∧ r tMul = halves Fl.mul bf16)
    ∧ (active = true → veType w = 3 → r tAdd = halves Fl.add fp16 ∧ r tSub = halves Fl.sub fp16 ∧ r tMul = halves Fl.mul fp16)
    ∧ (active = true → r tExp2 = exp2u a ∧ r tLog2 = log2u a ∧ r tRcp = rcpu a ∧ r tRsq = rsqu a ∧ r tTanh = tanhu a ∧ r tGelu = gelu32 a
        ∧ r tSilu = silu32 a ∧ r tSwiglu = swiglu32 a b ∧ r tAnd = a &&& b ∧ r tOr = a ||| b ∧ r tXor = a ^^^ b
        ∧ r tShl = a <<< (b.toNat % 32) ∧ r tShra = a.sshiftRight (b.toNat % 32) ∧ r tSel = (if on (v.pred (tQD w)) i then a else b)
        ∧ r tMovs = (v.scalar (tVB w % 16)).setWidth 32 ∧ r tIotac = (v.scalar (tVB w % 16)).setWidth 32 + BitVec.ofNat 32 (i % 16)
        ∧ r tIotar = (v.scalar (tVB w % 16)).setWidth 32 + BitVec.ofNat 32 (i / 16)
        ∧ r tTrn = (v.tile (tVA w)).el (16 * (i % 16) + i / 16)
        ∧ r tShc1 = if i % 16 = 0 then bOperand v w (i + 15) else (v.tile (tVA w)).el (i - 1))
    ∧ (tVD w % 8 ≠ 0 → active = true → q tPset (tVD w % 8) = true ∧ q tPclr (tVD w % 8) = false
        ∧ q tPand (tVD w % 8) = (on (v.pred (tVA w % 8)) i && on (v.pred (tVB w % 8)) i)
        ∧ q tPor (tVD w % 8) = (on (v.pred (tVA w % 8)) i || on (v.pred (tVB w % 8)) i) ∧ q tPnot (tVD w % 8) = !on (v.pred (tVA w % 8)) i)
    ∧ (tVD w % 8 = 0 → tPand w v = v ∧ tPor w v = v ∧ tPnot w v = v ∧ tPset w v = v ∧ tPclr w v = v)
    ∧ (∀ n, tQD w ≠ 0 → active = true → veType w = 1 → q (tCmpeq n) (tQD w) = (a == b) ∧ q (tCmplt n) (tQD w) = decide (a.toInt < b.toInt)
        ∧ q (tCmple n) (tQD w) = decide (a.toInt ≤ b.toInt) ∧ q (tCmpun n) (tQD w) = false)
    ∧ (∀ n, active = true → veType w = 1 → tSat w = true → (r (tNeg n)).toInt = min (2 ^ 31 - 1) (-a.toInt) ∧ (r (tAbs n)).toInt = min (2 ^ 31 - 1) (a.toInt.natAbs : Int))
    ∧ (∀ l, l < 16 → i = (if xDir w then 16 * xPos w + l else 16 * l + xPos w) →
        r xRcnt = BitVec.ofNat 32 (present (leaves v w l)).length ∧ (veType w = 1 → r xRsum = (present (leaves v w l)).foldl (· + ·) 0)
          ∧ (veType w = 0 → r xRsum = ((canonFold add32 4 (leaves v w l)).getD 0))
          ∧ (xQD w ≠ 0 → q xRcnt (xQD w) = (present (leaves v w l)).isEmpty))
    ∧ (∀ x : Dbl, v.scalar 0 = 0 ∧ v.pred 0 = BitVec.allOnes 256 ∧ v.setScalar 0 x = v ∧ ∀ p, v.setPred 0 p = v)
    ∧ (fSD w ≠ 0 → ∀ n, (sAddi w v).scalar (fSD w) = v.scalar (fSA w) + fImm64 w ∧ (sAdd w v).scalar (fSD w) = v.scalar (fSA w) + v.scalar (fSB w)
        ∧ (sSub w v).scalar (fSD w) = v.scalar (fSA w) - v.scalar (fSB w) ∧ (sMuli w v).scalar (fSD w) = v.scalar (fSA w) * fImm64 w
        ∧ (sAndi w v).scalar (fSD w) = v.scalar (fSA w) &&& fImm64 w ∧ (fImm w < 64 → (sShli n w v).scalar (fSD w) = v.scalar (fSA w) <<< fImm w
        ∧ (sShri n w v).scalar (fSD w) = v.scalar (fSA w) >>> fImm w)
        ∧ (sMvsv w v).scalar (fSD w) = ((v.tile (bits (fImm w) 12 8)).el (16 * bits (fImm w) 7 4 + bits (fImm w) 3 0)).setWidth 64)

/-! ### Serving and tokens (09) -/

/-- The serving loop (R197–R206). STEP_COMPOSE, once its program has been read and judged, sets the context's configuration; one that fails a check, at once or when the last line of its program has come, ends with that check's status and sets nothing. SEQ_SUBMIT puts its sequence at the end of the queue and waits.
SEQ_CANCEL takes a queued sequence away at once (0), marks a running one of a step in progress (1) and answers 2 where there is none. A step of the
composer does nothing before the packets of the step in progress have completed; then it samples its rows in order, the step counter
one higher; with none in progress it admits in submission order and begins the next step. A packet of the step that fails ends step and context
at once. A sequence that was cancelled, meets a stop token or
reaches its length ends with its token's record; the watchdog, measured from the start of the step's first packet, ends the context.
Tokens (R178–R184). A signal adds to its token's count, which stays at 65,535 and counts the excess. TOKEN_SIGNAL adds its increment to each of
its signal tokens in place of one; TOKEN_WAIT answers the nanoseconds from acceptance to grant; past its limit and not granted it
ends WAIT_TIMEOUT, signals nothing and takes no count. A granted command has taken its need of every token. -/
def Obligations.ServingAndTokens : Prop :=
  (
  (∀ s id c, Ready s 0x2010 id c → checkStepCompose s c = none → checkStepCompose (Begun s c) (begun s c) = none →
      Settled runStepCompose (Begun s c) (begun s c) →
      (∀ bs, (Begun s c).consume c.id c.tenant (c.p 0 8) 0 (c.p 8 4) = .ok bs → exec (.opStepCompose id) s =
        .next (((Begun s c).setCtx c.tenant c.ctx { s.ctx c.tenant c.ctx with serving := some {
          program := c.p 0 8, programBytes := c.p 8 4, budget := c.scBudget, chunk := c.scChunk, batch := c.p 16 8, rowMask := c.p 24 8,
          kvRows := c.p 32 8, logits := c.p 40 8, vocab := c.p 48 4, maxLen := c.p 52 4, pages := c.p 56 4, maxSeqs := c.p 60 2,
          watchdog := c.p 62 2 } }).ok c.id [])))
    ∧ (∀ s id c f, Ready s 0x2010 id c → checkStepCompose s c = some f → exec (.opStepCompose id) s =
        .next ((s.setCmd { c with signals := [] }).finish id f.1 f.2))
    ∧ (∀ s id c f, s.cmd? id = some c → c.opcode = 0x2010 → c.stage = .started → Settled runStepCompose s c → checkStepCompose s c = some f →
        exec (.opStepCompose id) s = .next ((s.setCmd { c with signals := [] }).finish id f.1 f.2))
    ∧ (∀ s id c, Ready s 0x2011 id c → checkSeqSubmit s c = none →
        let x := s.ctx c.tenant c.ctx
        ∃ q : Sequence, q.tag = c.id ∧ q.prompt = c.p 0 8 ∧ q.promptLen = c.p 8 4 ∧ q.maxNew = c.p 12 4 ∧ q.ident = c.p 52 4
          ∧ q.seed = BitVec.ofNat 64 (c.p 16 8) ∧ q.topK = (if c.p 32 1 = 0 then 64 else c.p 32 1) ∧ q.cancelled = false ∧ q.decoding = false
          ∧ exec (.opSeqSubmit id) s = .next (((Begun s c).setCtx c.tenant c.ctx { x with queue := x.queue ++ [q] }).await c.id))
    ∧ (∀ s id c, Ready s 0x2012 id c →
        let x := s.ctx c.tenant c.ctx
        let mine (q : Sequence) : Bool := q.ident = c.p 0 4 && !q.cancelled
        let b := Begun s c
        (∀ q, x.queue.find? mine = some q → exec (.opSeqCancel id) s = .next ((b.endSequence c.tenant c.ctx q stOK 3 0).ok c.id [0]))
          ∧ (x.queue.find? mine = none → x.running.find? mine = none → exec (.opSeqCancel id) s = .next (b.ok c.id [2]))
          ∧ (∀ q, x.queue.find? mine = none → x.running.find? mine = some q → x.stepping.isSome = true → exec (.opSeqCancel id) s =
              .next ((b.setCtx c.tenant c.ctx { x with
                running := x.running.map fun r => if mine r then { r with cancelled := true } else r }).ok c.id [1]))
          ∧ ∀ q, x.queue.find? mine = none → x.running.find? mine = some q → x.stepping = none → exec (.opSeqCancel id) s =
              .next ((b.endSequence c.tenant c.ctx q stOK 3 0).ok c.id [1]))
    ∧ (∀ (t c : Nat) (s : State),
        let x := s.ctx t c
        let left := s.cmds.any fun d => d.program && d.tenant = t && d.ctx = c
        (x.serving = none → exec (.servingStep t c) s = .next s ∧ exec (.stepWatchdog t c) s = .next s)
          ∧ (x.stepping.isSome = true → left = true → exec (.servingStep t c) s = .next s)
          ∧ (s.stepStart t c = none → exec (.stepWatchdog t c) s = .next s)
          ∧ ∀ cfg, x.serving = some cfg →
              (∀ rows first, x.stepping = some (rows, first) → left = false → exec (.servingStep t c) s =
                .next (sampleStep t c cfg rows (if x.sampling then s else s.setCtx t c { x with step := x.step + 1, sampling := true })))
              ∧ (x.stepping = none → x.st = .dead → exec (.servingStep t c) s = .next (s.endSequences t c stContextDead 5 0))
              ∧ (x.stepping = none → x.st ≠ .dead → (s.stalled t = true ∨ x.st = .closed ∨ left = true) → exec (.servingStep t c) s = .next s)
              ∧ (x.stepping = none → x.st ≠ .dead → s.stalled t = false → x.st ≠ .closed → left = false →
                  let s1 := admitAll t c cfg (x.queue.length + 1) s
                  exec (.servingStep t c) s = .next (if (s1.ctx t c).running.isEmpty then s1 else beginStep s1 t c cfg))
              ∧ ∀ start, s.stepStart t c = some start →
                  let ms := if cfg.watchdog = 0 then (s.tenant t).watchdog else cfg.watchdog
                  let late := 16 * (start + msec ms) + x.stepSlow ≤ 16 * s.now
                  (late → exec (.stepWatchdog t c) s = .next (failStep (s.addLog { LogRec.none_ with
                      cls := 6, outcome := 5, tenant := t, ctx := c, status := stOverrun }) t c stOverrun 3))
                  ∧ (¬ late → exec (.stepWatchdog t c) s = .next s))
    ∧ (∀ (s : State) (c : Cmd), c.program = true → c.failsStep = true → c.status ≠ stContextDead → c.status ≠ stOverrun →
        (s.ctx c.tenant c.ctx).stepping.isSome = true → s.programDone c = failStep s c.tenant c.ctx c.status 0)
    ∧ (∀ (s : State) (t c : Nat) (cfg : Serving),
        ((s.ctx t c).queue = [] → admitHead s t c cfg = (s, false))
          ∧ (cfg.maxSeqs ≤ (s.ctx t c).running.length → admitHead s t c cfg = (s, false)))
    ∧ ∀ (s : State) (t c : Nat) (q : Sequence) (token : Nat),
        let res (e : Nat) := seqResult token q.len q.ident e 0
        (q.cancelled = true → giveToken s t c q token = (s.removeSequence t c q).finish q.tag 0 (res 3))
          ∧ (q.cancelled = false → token ∈ q.stops → giveToken s t c q token = (s.removeSequence t c q).finish q.tag 0 (res 2))
          ∧ (q.cancelled = false → token ∉ q.stops → q.len + 1 = q.promptLen + q.maxNew →
              giveToken s t c q token = (s.removeSequence t c q).finish q.tag 0 (res 1)))
  ∧ (
  (∀ (s : State) (t k n : Nat),
    (s.token t k + n ≤ 65535 → s.signalToken t k n = s.setToken t k (s.token t k + n))
      ∧ (65535 < s.token t k + n → s.signalToken t k n = (s.setToken t k 65535).bump (aDP 0 0x30) (s.token t k + n - 65535)))
    ∧ (∀ s id c, Ready s 0x3001 id c → c.p 0 1 ≠ 0 → exec (.opTokenSignal id) s =
        .next (((c.signals.foldl (fun (s : State) k => s.signalToken c.tenant k (c.p 0 1)) (Begun s c)).setCmd { begun s c with signals := [] }).ok c.id []))
    ∧ (∀ s id c, Ready s 0x3001 id c → c.p 0 1 = 0 → exec (.opTokenSignal id) s =
        .next ((s.setCmd { c with signals := [] }).finish c.id stShape [0x40]))
    ∧ (∀ s id c, Ready s 0x3002 id c → c.p 0 4 ≤ 10000000 → exec (.opTokenWait id) s =
        .next ((Begun s c).ok c.id (leBytes 8 ((c.since - c.acceptedAt) / 4))))
    ∧ (∀ s id c, s.cmd? id = some c →
        let late := c.stage = .accepted ∧ c.opcode = 0x3002 ∧ c.p 0 4 ≠ 0 ∧ c.acceptedAt + usec (c.p 0 4) ≤ s.now
        (late → exec (.tokenWaitTimeout id) s = .next ((s.setCmd { c with signals := [] }).finish id stWaitTimeout []))
        ∧ (¬ late → exec (.tokenWaitTimeout id) s = .next s))
    ∧ (∀ s id, s.cmd? id = none → exec (.tokenWaitTimeout id) s = .next s)
    ∧ ∀ (s : State) (c : Cmd), c.waits = [] → s.takeTokens c = s ∧ s.tokensReady c = true)

/-! ### The fabric (10–12) -/

/-- Regions, ownership, fences and token travel at the module that commands them. REGION_EXPORT takes the lowest free number and range and answers
both; REGION_IMPORT, once there is room for the answer and the import, sends its probe and waits, its answer makes the import; load data reach
their reader; REGION_REVOKE of an import releases it and tells the home, unless an object still lies in it or the lease has lapsed. FENCE notes what its context has outstanding and ends once all of it is acknowledged, or after 10 ms UNREACHABLE.
FORCE, or the exporter that owns the region, records the new owner under a higher epoch; an import's owner writes back and then asks its home;
where it cannot know that the new owner may own the region it asks first. A hand-over that is not acknowledged leaves the region where it was.
ROWS_SEND and ROWS_COMBINE, when their router's turn comes, send or combine their rows and answer, or fail with what they met, their outputs
poisoned. -/
def Obligations.FabricCommands : Prop :=
  (∀ s id c, Ready s 0x3003 id c →
      let w := { begun s c with stage := Stage.waiting, fence := fenceMarks s c, since := s.now }
      let b := (Begun s c).setCmd w
      (s.fabric.fenced = true → exec (.opFence id) s = .next (b.endFence w stFenced 0))
        ∧ (s.fabric.fenced = false → w.fence.all s.covered = false → exec (.opFence id) s = .next b)
        ∧ (s.fabric.fenced = false → w.fence.all s.covered = true →
            let r := (s.ctx c.tenant c.ctx).refused
            exec (.opFence id) s = .next (b.endFence w
              (if 0 < r.1 then stKeyRejected else if 0 < r.2.1 then stNotOwner else if 0 < r.2.2 then stFenced else stOK) 0)))
    ∧ (∀ s id c, s.cmd? id = some c →
        let late := c.opcode = 0x3003 ∧ c.stage = .waiting ∧ c.since + msec 10 ≤ s.now
        (late → exec (.fenceTimeout id) s = .next ((s.bump (aWF 0x028) 1).endFence c stUnreachable
          (((c.fence.filter fun e => !s.covered e).map Prod.fst).foldl min 0xFFFF)))
        ∧ (¬ late → exec (.fenceTimeout id) s = .next s))
    ∧ (∀ s id c, Ready s 0x4001 id c → checkRegionExport s c = none →
        let num := freeNumber s.fabric.exports
        let base := (s.freeSpace (c.p 8 8)).getD 0
        ∃ e : Export, e.base = base ∧ e.length = c.p 8 8 ∧ e.key = BitVec.ofNat 64 (c.p 16 8) ∧ e.tenant = c.tenant ∧ e.handle = refHandle (c.p 0 8)
          ∧ e.mode = c.p 24 1 ∧ e.owner = s.fabric.node ∧ e.epoch = 0 ∧ e.writers = [] ∧ e.complete = !(c.p 26 1).testBit 1
          ∧ ((c.p 26 1).testBit 1 = false → exec (.opRegionExport id) s =
              .next (((Begun s c).setExport num (some e)).ok c.id (leBytes 8 base ++ leBytes 2 num)))
          ∧ ∀ o, (c.p 26 1).testBit 1 = true → s.obj c.tenant (refHandle (c.p 0 8)) = some o → exec (.opRegionExport id) s =
              .next ((((Begun s c).setExport num (some e)).setObj c.tenant (refHandle (c.p 0 8)) (some { o with incomplete := true })).ok c.id
                (leBytes 8 base ++ leBytes 2 num)))
    ∧ (∀ s id c, Ready s 0x4002 id c → checkRegionImport s c = none → checkRegionImport (Begun s c) (begun s c) = none →
        let b := Begun s c
        let room := b.answerRoom = true ∧ b.importCount c.tenant + b.probing c.tenant < (b.tenant c.tenant).imports
          ∧ b.fabric.imports.length + (b.cmds.countP fun d => d.opcode = 0x4002 && d.stage = .waiting) < 4096
        (room → exec (.opRegionImport id) s =
          .next ((b.setCmd { begun s c with stage := .waiting, since := s.now }).post (c.p 0 2) c.tenant c.ctx c.id 4
            (request (c.p 8 8) (BitVec.ofNat 64 (c.p 16 8)) [BitVec.ofNat 8 (c.p 24 1)] 0)))
        ∧ (¬ room → exec (.opRegionImport id) s = .next b))
    ∧ (∀ (s : State) (c : Cmd) (r : FabAnswer),
        let num := freeNumber s.fabric.imports
        (r.kind = .probed → s.importCount c.tenant < (s.tenant c.tenant).imports → num < 4096 → probeAnswer s c r =
          (s.setImport num (some {
            tenant := c.tenant, node := c.p 0 2, base := c.p 8 8, key := BitVec.ofNat 64 (c.p 16 8), length := r.length, mode := r.mode,
            operation := r.operation, write := c.p 24 1 ≠ 0, copyWriter := (c.p 24 1).testBit 1, readOnly := r.readOnly, owner := r.owner
            epoch := r.epoch, dead := false })).ok c.id (leBytes 4 num ++ leBytes 1 r.mode ++ leBytes 1 r.operation ++ leBytes 2 r.owner
              ++ leBytes 8 r.length))
        ∧ (r.kind = .badRights → probeAnswer s c r = s.finish c.id stShape [0x44])
        ∧ (r.kind = .incomplete → probeAnswer s c r = s.finish c.id stIncomplete [])
        ∧ (r.kind = .tooManyWriters → probeAnswer s c r = s.finish c.id stNoResources [3])
        ∧ (r.kind = .secondCopyWriter → probeAnswer s c r = s.finish c.id stNoResources [4])
        ∧ (r.kind = .keyRejected → probeAnswer s c r = s.finish c.id stKeyRejected [])
        ∧ (r.kind = .fenced → probeAnswer s c r = s.finish c.id stFenced []))
    ∧ (∀ (s : State) (r : FabAnswer), (s.variant.fabric = false ∨ s.fabric.st = 0) → exec (.loadResponse r) s = .next s)
    ∧ (∀ (s : State) (r : FabAnswer), s.variant.fabric = true → s.fabric.st ≠ 0 → NMap.get false s.fabric.members r.node = false →
        exec (.loadResponse r) s = .next (s.bump (aWF 0x810) 1))
    ∧ (∀ (s : State) (r : FabAnswer) st o, s.variant.fabric = true → s.fabric.st ≠ 0 → NMap.get false s.fabric.members r.node = true →
        r.kind ≠ .status → NMap.get none s.fabric.out r.node = some st → st.epoch = r.stream →
        (st.pending.find? fun o => o.seq = r.seq && (o.kind = 4 || o.kind = 9)) = some o →
        let u := s.setOut r.node (some { st with pending := st.pending.erase o, lastAck := s.now })
        (∀ c, o.kind = 4 → s.cmd? o.cmd = some c → c.opcode = 0x4002 → c.stage = .waiting → exec (.loadResponse r) s = .next (probeAnswer u c r))
        ∧ (o.kind = 9 → r.kind = .data → exec (.loadResponse r) s = .next (u.lineArrives o r.data r.poison r.node))
        ∧ (o.kind = 9 → r.kind = .fenced → exec (.loadResponse r) s = .next (u.readFails o 0x23))
        ∧ (o.kind = 9 → r.kind = .keyRejected → exec (.loadResponse r) s = .next (u.readFails o 0x13)))
    ∧ (∀ (s : State) (r : FabAnswer) c, s.variant.fabric = true → s.fabric.st ≠ 0 → NMap.get false s.fabric.members r.node = true →
        r.kind = .status → s.cmd? r.id = some c → c.opcode = 0x4020 → c.stage = .waiting →
        exec (.loadResponse r) s = .next (s.finish c.id r.status r.data))
    ∧ (∀ (s : State) (o : Outstanding) (data : List Byte) (poison : Bool) (node : Nat), o.cmd < 2 ^ 64 → data.length = 64 →
        (s.lineArrives o data poison node).fabric.lines = { reader := o.cmd, node := node, line := o.offset / 64, bytes := data, poison := poison }
            :: s.fabric.lines.filter (fun x => s.readerRuns x.reader)
          ∧ (NMap.wf 0 s.ctr = true → (s.lineArrives o data poison node).count (aTI o.tenant o.ctx 8) =
              min (2 ^ 64 - 1) (s.count (aTI o.tenant o.ctx 8) + (s.now - o.issuedAt) / 4)))
    ∧ (∀ s id c, s.cmd? id = some c →
        let late := c.opcode = 0x4002 ∧ c.stage = .waiting ∧ c.since + msec 10 ≤ s.now
        (late → exec (.importProbeTimeout id) s = .next (s.finish id stUnreachable [])) ∧ (¬ late → exec (.importProbeTimeout id) s = .next s))
    ∧ (∀ s id c, Ready s 0x4003 id c → c.p 0 1 = 0 →
        let b := (Begun s c).await c.id
        (b.revoking c.id = true → exec (.opRegionRevoke id) s = .next b)
          ∧ (b.revoking c.id = false → exec (.opRegionRevoke id) s = .next (b.ok c.id c.result)))
    ∧ (∀ s id c i, Ready s 0x4003 id c → c.p 0 1 ≠ 0 → checkRegionRevoke s c = none → NMap.get none s.fabric.imports (c.p 2 2) = some i →
        (s.fabric.st = 3 → exec (.opRegionRevoke id) s = .next ((s.setCmd { c with signals := [] }).finish id stFenced []))
          ∧ (s.fabric.st ≠ 3 → s.regionHandles c.tenant 0 (c.p 2 2) ≠ [] →
              exec (.opRegionRevoke id) s = .next ((Begun s c).finish c.id stNoResources [5]))
          ∧ (s.fabric.st ≠ 3 → s.regionHandles c.tenant 0 (c.p 2 2) = [] → s.fabric.fenced = true → exec (.opRegionRevoke id) s =
              .next (((Begun s c).setImport (c.p 2 2) none).ok c.id []))
          ∧ (s.fabric.st ≠ 3 → s.regionHandles c.tenant 0 (c.p 2 2) = [] → s.fabric.fenced = false → exec (.opRegionRevoke id) s =
              .next ((((Begun s c).setImport (c.p 2 2) none).post i.node c.tenant c.ctx c.id 5 (request i.base i.key [] 0)).ok c.id [])))
    ∧ (∀ s id,
        let nums := s.fabric.exports.filterMap fun e => match e.2 with
          | some x => if x.revoking = some id ∧ x.since + msec 10 ≤ s.now then some e.1 else none
          | none => none
        (nums = [] → exec (.revokeWriteBackTimeout id) s = .next s)
        ∧ (∀ c, nums ≠ [] → s.cmd? id = some c → exec (.revokeWriteBackTimeout id) s = .next (nums.foldl (fun (s : State) n => s.dropExport n)
            (s.setCmd { c with result := if c.opcode = 0x4003 then [1] else c.result })).settle)
        ∧ (nums ≠ [] → s.cmd? id = none → exec (.revokeWriteBackTimeout id) s = .next (nums.foldl (fun (s : State) n => s.dropExport n) s).settle))
    ∧ (∀ s id c, Ready s 0x4004 id c → checkTransfer s c = none →
        let w := (begun s c).mayTransfer
        let b := (Begun s c).setCmd w
        let num := c.p 2 2
        (∀ e, c.p 0 1 = 1 → (c.p 1 1).testBit 0 = true → NMap.get none s.fabric.exports num = some e → e.owner ≠ s.fabric.node →
            exec (.opOwnershipTransfer id) s = .next (transferHome (Begun s c) (begun s c) num e))
          ∧ (∀ e, c.p 0 1 = 1 → ((c.p 1 1).testBit 0 = false ∨ e.owner = s.fabric.node) → NMap.get none s.fabric.exports num = some e →
              exec (.opOwnershipTransfer id) s = .next (if transferReady b w then transferHome (b.writeBackAll c.tenant e.handle) w num e else b))
          ∧ (∀ i, c.p 0 1 = 0 → NMap.get none s.fabric.imports num = some i → i.knows s.fabric.node (c.p 4 2) = true →
              exec (.opOwnershipTransfer id) s = .next (if transferReady b w then transferImport b w num i else b))
          ∧ (∀ i, c.p 0 1 = 0 → NMap.get none s.fabric.imports num = some i → i.knows s.fabric.node (c.p 4 2) = false →
              exec (.opOwnershipTransfer id) s = .next (transferAsk (Begun s c) (begun s c) i)))
    ∧ (∀ (s : State) (c : Cmd) num (e : Export), c.p 4 2 = s.fabric.node → transferHome s c num e =
        (s.setExport num (some { e with owner := s.fabric.node, epoch := (e.epoch + 1) % 2 ^ 32 })).ok c.id
          (transferResult s.fabric.node ((e.epoch + 1) % 2 ^ 32)))
    ∧ (∀ s id c, s.cmd? id = some c →
        let late := c.opcode = 0x4004 ∧ c.stage = .waiting ∧ c.fence ≠ [] ∧ c.since + msec 10 ≤ s.now
        (¬ late → exec (.transferTimeout id) s = .next s)
        ∧ (late → c.p 0 1 ≠ 1 → c.result ≠ [] → exec (.transferTimeout id) s = .next (s.finish id stUnreachable []))
        ∧ (late → c.p 0 1 = 1 → c.result ≠ [] → exec (.transferTimeout id) s = .next ((s.undoHanding (c.p 2 2)).finish id stUnreachable [])))
    ∧ (∀ (s : State) num e, NMap.get none s.fabric.exports num = some e →
        (e.handing = none → s.undoHanding num = s)
        ∧ ∀ a old, e.handing = some (a, old) → s.undoHanding num = s.setExport num (some { e with owner := a, epoch := old, handing := none }))
    ∧ (∀ s id c, s.cmd? id = some c → s.routerBusy c = true → exec (.opRowsSend id) s = .next s ∧ exec (.opRowsCombine id) s = .next s)
    ∧ (∀ s id c, Ready s 0x4010 id c → checkRowsSend s c = none → s.routerBusy c = false → Settled runRowsSend (Begun s c) (begun s c) →
        let b := Begun s c
        (∀ f, sendPlan b (begun s c) = .error f → exec (.opRowsSend id) s =
            .next ((sendNothing b (begun s c) (f.1 = stPoison)).fail c.id f.1 f.2))
          ∧ ∀ is ts, sendPlan b (begun s c) = .ok (is, ts) →
              let peer (p : Nat) : Import := is.getD p default
              let row (t : Travel) := t.row * c.rsK + t.rank
              let r : Sending := if c.rsBack then
                  ts.foldl (fun a t => match a with
                    | (s1, n, bad, some f) => (sendPoisoned (begun s c) (peer t.peer) (row t) s1, n, bad, some f)
                    | a => match sendRow b (begun s c) (peer t.peer) t.src (row t) a with
                      | (s1, n, bad, some f) => (sendPoisoned (begun s c) (peer t.peer) (row t) s1, n, bad, some f)
                      | x => x) (b, 0, 0, none)
                else (List.range c.rsP).foldl (fun a p => sendPeer b (begun s c) ts p (peer p) a) (b, 0, 0, none)
              (r.2.2.2 = none → exec (.opRowsSend id) s = .next ((signalAll (begun s c) is r.1).ok c.id
                  (leBytes 4 r.2.1 ++ leBytes 4 r.2.2.1 ++ leBytes 2 c.rsP)))
              ∧ ∀ f, r.2.2.2 = some f → exec (.opRowsSend id) s = .next ((signalAll (begun s c) is r.1).fail c.id f.1 f.2))
    ∧ ∀ s id c, Ready s 0x4011 id c → checkRowsCombine s c = none → s.routerBusy c = false → Settled runRowsCombine (Begun s c) (begun s c) →
        let b := Begun s c
        let outs := rowsCombineOutputs b (begun s c)
        (∀ f, b.openRows c.id c.tenant (c.p 32 8) c.rcT = .error f → exec (.opRowsCombine id) s =
            .next ((b.poisonRanges c.tenant outs).fail c.id f.1 f.2))
        ∧ ∀ rows, b.openRows c.id c.tenant (c.p 32 8) c.rcT = .ok rows →
            let r := combineRows b (begun s c) rows b []
            (r.2.1 = none → r.2.2 = [] → exec (.opRowsCombine id) s = .next (r.1.ok c.id []))
            ∧ (r.2.1 = none → r.2.2 ≠ [] → exec (.opRowsCombine id) s = .next (((r.1.bump (aTI c.tenant c.ctx 0x20)
                (b.poisonedLines c.id c.tenant (combineSources b (begun s c) rows) - 1)).poisonRanges c.tenant r.2.2).fail c.id stPoison [0]))
            ∧ ∀ f, r.2.1 = some f → exec (.opRowsCombine id) s = .next ((r.1.poisonRanges c.tenant outs).fail c.id f.1 f.2)

/-- An operation at its home and its answers (R214, R220–R223, R227, R233, R235). A packet from outside the partition is counted and dropped;
one already applied is counted and acknowledged again; one ahead of its stream waits in the reorder store, or is counted and dropped where that
is full. The next of its stream takes effect once its unit has an entry for its line, and the stream goes on with what waited; a packet
leaves its port's ingress buffer but while it waits there for an entry. A load of a
region that takes its key answers its bytes; a store by the owner under its epoch is applied and acknowledged; any other is refused, and
counted. A module whose lease has lapsed answers FENCED. At the requester an acknowledgement ends what it covers but loads and probes, a refusal
ends the one it names, what is late is sent again on its own channel, and a stream unanswered for 10 ms restarts under a new epoch, its loads
ending their readers. A home's notice sets owner and epoch of the region's imports; its request writes back what this module holds of it. -/
def Obligations.FabricOperations : Prop :=
  (∀ (p r : FabPkt) (n base epoch : Nat) (s : State) (kind : HomeKind) (i : Instr) (arg : Nat),
    ((i = .fabricLoad p ∧ kind = .load ∧ arg = 0) ∨ (i = .fabricStore p ∧ kind = .store ∧ arg = 0) ∨ (i = .fabricAtomic p ∧ kind = .atomic ∧ arg = 0)
      ∨ (i = .writeBack p ∧ kind = .writeBack ∧ arg = 0) ∨ (i = .ownerChange p n ∧ kind = .ownerChange ∧ arg = n)
      ∨ (i = .probe p n ∧ kind = .probe ∧ arg = n) ∨ (i = .importReleaseNotice p ∧ kind = .release ∧ arg = 0)
      ∨ (i = .ownerNotice r base epoch n ∧ p = { r with offset := base, ownEpoch := epoch } ∧ kind = .notice ∧ arg = n)
      ∨ (i = .writeBackRequest r base ∧ p = { r with offset := base } ∧ kind = .writeBackAsk ∧ arg = 0)) →
    let s0 := s.openStream p
    let x := s0.intoOf p.src p.epoch
    let d := seqDist x.next p.seq
    let q : HomeOp := { kind := kind, pkt := p, arg := arg, at_ := s.now }
    let out (s : State) : State := s.freeIngress p.port kind.channel (ceilDiv (pktBytes p) 32)
    let joined := s.variant.fabric = true ∧ s.fabric.st ≠ 0
    (¬ joined → exec i s = .next s)
      ∧ (joined → NMap.get false s.fabric.members p.src = false → exec i s = .next ((out s).bump (aWF 0x810) 1))
      ∧ (joined → NMap.get false s.fabric.members p.src = true →
          (x.epoch ≠ p.epoch → exec i s = .next (out s))
          ∧ (x.epoch = p.epoch → 2 ^ 31 ≤ d → exec i s = .next (((out s0).bump (aWF 0x018) 1).send
              { node := p.src, kind := .ack, number := (x.next + 2 ^ 32 - 1) % 2 ^ 32, epoch := x.epoch, data := [], poison := false }))
          ∧ (x.epoch = p.epoch → d = 0 → s0.heldAtUnit p = true → exec i s = .next (out s0))
          ∧ (x.epoch = p.epoch → d = 0 → s0.heldAtUnit p = false → exec i s = .next
              (if (takeHome s0 q).2 then drainReorder (x.reorder.length + 1) p.src (takeHome s0 q).1 else (takeHome s0 q).1))
          ∧ (x.epoch = p.epoch → 0 < d → d < 2 ^ 31 → (∃ r ∈ x.reorder, r.pkt.seq = p.seq) → exec i s = .next (out s0))
          ∧ (x.epoch = p.epoch → 0 < d → d < 2 ^ 31 → (∀ r ∈ x.reorder, r.pkt.seq ≠ p.seq) → s0.reorderBytes + pktBytes p ≤ 65536 →
              exec i s = .next ((out s0).setInto p.src { x with reorder := x.reorder ++ [{ q with pkt := { p with port := 8 } }] }))
          ∧ (x.epoch = p.epoch → 0 < d → d < 2 ^ 31 → (∀ r ∈ x.reorder, r.pkt.seq ≠ p.seq) → 65536 < s0.reorderBytes + pktBytes p →
              exec i s = .next ((out s0).bump (aWF 0x830) 1))))
    ∧ (∀ (s : State) (b : Bool) (q : HomeOp), s.fabric.st = 3 → homeEffect s b q = s.answer q.pkt .fenced [] false)
    ∧ (∀ (s : State) (b : Bool) (q : HomeOp), s.fabric.st ≠ 3 →
        (q.kind = .load → homeEffect s b q = homeLoad s q.pkt)
        ∧ ((q.kind = .store ∨ q.kind = .atomic ∨ q.kind = .writeBack) → homeEffect s b q = homeWrite s b q.pkt)
        ∧ (q.kind = .ownerChange → homeEffect s b q = homeOwner s q.pkt q.arg) ∧ (q.kind = .probe → homeEffect s b q = homeProbe s q.pkt q.arg)
        ∧ (q.kind = .release → homeEffect s b q = homeRelease s q.pkt) ∧ (q.kind = .notice → homeEffect s b q = takeNotice s q.pkt q.arg)
        ∧ (q.kind = .writeBackAsk → homeEffect s b q = takeWriteBackAsk s q.pkt))
    ∧ (∀ (s : State) (p : FabPkt) (a : Nat), s.regionFor p 0 = none →
        homeOwner s p a = s.rejectKey p ∧ homeProbe s p a = s.rejectKey p ∧ homeRelease s p = s.rejectKey p)
    ∧ (∀ (s : State) (p : FabPkt) (b : Bool), s.regionFor p p.size = none → homeLoad s p = s.rejectKey p ∧ homeWrite s b p = s.rejectKey p)
    ∧ (∀ (s : State) (p : FabPkt) (b : Bool) n e, s.regionFor p p.size = some (n, e) → e.complete = false →
        homeLoad s p = s.rejectKey p ∧ (e.copyWriter ≠ some p.src → homeWrite s b p = s.rejectKey p))
    ∧ (∀ (s : State) (p : FabPkt) (b : Bool) n e, s.regionFor p p.size = some (n, e) → e.complete = true → e.revoking = none →
        homeLoad s p = s.answer p .data (s.regionRead e p.offset p.size).1 (s.regionRead e p.offset p.size).2
          ∧ (e.mode = 0 → e.owner = p.src → p.ownEpoch = e.epoch → homeWrite s b p = ((s.regionWrite e p).inbound e p).acknowledge p)
          ∧ (e.mode = 0 → (e.owner ≠ p.src ∨ p.ownEpoch ≠ e.epoch) → homeWrite s b p = s.rejectOwner p)
          ∧ (e.mode ≠ 0 → p.src ∉ e.writers → homeWrite s b p = s.rejectKey p)
          ∧ (e.mode = 1 → p.src ∈ e.writers → homeWrite s b p = ((s.regionWrite e p).inbound e p).acknowledge p)
          ∧ (e.mode = 2 → p.src ∈ e.writers → homeWrite s b p =
              (((s.regionAtomic e p).countAtomic e.operation b).inbound e p).acknowledge p))
    ∧ (∀ (s : State) (p : FabPkt) b n e, s.regionFor p 0 = some (n, e) → e.mode = 0 → e.complete = true → e.revoking = none →
        e.mayOwn s.fabric.node b = true →
        let f := { e with owner := b, epoch := (e.epoch + 1) % 2 ^ 32 }
        (p.size = 0 → homeOwner s p b = s.acknowledge p)
        ∧ (p.size ≠ 0 → (e.owner ≠ p.src ∨ p.ownEpoch ≠ e.epoch) → homeOwner s p b = s.rejectOwner p)
        ∧ (p.size ≠ 0 → e.owner = p.src → p.ownEpoch = e.epoch → b = s.fabric.node → homeOwner s p b = (s.setExport n (some f)).acknowledge p)
        ∧ (p.size ≠ 0 → e.owner = p.src → p.ownEpoch = e.epoch → b ≠ s.fabric.node → homeOwner s p b =
            (s.setExport n (some { f with handing := some (e.owner, e.epoch), since := s.now })).post b e.tenant e.ctx 0 8
              { p with data := leBytes 4 f.epoch ++ leBytes 2 p.src ++ leBytes 4 p.epoch ++ leBytes 4 p.seq, port := 8 }))
    ∧ (∀ (s : State) (p : FabPkt) n e, s.regionFor p 0 = some (n, e) → p.offset = e.base → e.revoking = none → e.complete = true →
        let described (f : Export) : State := (s.setExport n (some f)).answer p .probed
          (leBytes 1 e.mode ++ leBytes 1 e.operation ++ leBytes 2 e.owner ++ leBytes 4 e.epoch ++ leBytes 8 e.length
            ++ leBytes 1 (b2n e.readOnly)) false
        homeProbe s p 0 = described e
        ∧ (e.readOnly = true → homeProbe s p 1 = s.answer p .importRefused [0x44] false)
        ∧ (e.readOnly = false → p.src ∈ e.writers → homeProbe s p 1 = described e)
        ∧ (e.readOnly = false → p.src ∉ e.writers → e.writers.length < 64 → homeProbe s p 1 = described { e with writers := e.writers ++ [p.src] })
        ∧ (e.readOnly = false → p.src ∉ e.writers → 64 ≤ e.writers.length → homeProbe s p 1 = s.answer p .importRefused [3] false))
    ∧ (∀ (s : State) (p : FabPkt) n e, s.regionFor p 0 = some (n, e) → homeRelease s p = (s.setExport n (some { e with
        writers := e.writers.filter (· ≠ p.src), copyWriter := if e.copyWriter = some p.src then none else e.copyWriter })).acknowledge p)
    ∧ (∀ (s : State) (p : FabPkt) (owner : Nat),
        (s.importsOf p.src p.offset = [] → takeNotice s p owner = s.answer p .keyRejected [] false)
        ∧ (s.importsOf p.src p.offset ≠ [] → takeNotice s p owner = ((s.importsOf p.src p.offset).foldl (fun (s : State) n =>
            match NMap.get none s.fabric.imports n with
            | some i => s.setImport n (some { i with owner := owner, epoch := p.ownEpoch, copyWriter := false })
            | none => s) s).acknowledge p))
    ∧ (∀ (s : State) (p : FabPkt),
        (s.fabric.fenced = true → takeWriteBackAsk s p = s.answer p .fenced [] false)
        ∧ (s.fabric.fenced = false → takeWriteBackAsk s p = ((s.importsOf p.src p.offset).foldl (fun (s : State) n =>
            match NMap.get none s.fabric.imports n with
            | some i => (s.regionHandles i.tenant 0 n).foldl (fun (s : State) h => s.writeBackAll i.tenant h) s
            | none => s) s).acknowledge p))
    ∧ (∀ (s : State) (q : HomeOp),
        let follow (t : State) : State := t.setInto q.pkt.src { t.intoOf q.pkt.src q.pkt.epoch with next := (q.pkt.seq + 1) % 2 ^ 32 }
        let out (s : State) : State := s.freeIngress q.pkt.port q.kind.channel (ceilDiv (pktBytes q.pkt) 32)
        let u := homeUnitOf q.pkt.offset
        let line := q.pkt.offset / 64
        let free := s.lineBusy q.pkt.offset = true ∨ ((s.entries u).length < 64 ∧ NMap.get [] s.fabric.waiting u = [])
        applyHome s q = follow (if q.onLine then homeEffect ((out s).absorb u line) ((out s).lineBusy q.pkt.offset) q else homeEffect (out s) false q)
        ∧ (q.onLine = false → takeHome s q = (applyHome s q, true))
        ∧ (q.onLine = true → free → takeHome s q = (applyHome s q, true))
        ∧ (q.onLine = true → ¬ free → takeHome s q = ({ s with fabric := { s.fabric with
            waiting := NMap.set [] s.fabric.waiting u (NMap.get [] s.fabric.waiting u ++ [q]) } }, false)))
    ∧ (∀ u s, NMap.get [] s.fabric.waiting u = [] → exec (.homeEntryAdmit u) s = .next s)
    ∧ (∀ u s q rest, NMap.get [] s.fabric.waiting u = q :: rest →
        let free := s.lineBusy q.pkt.offset = true ∨ (s.entries u).length < 64
        let s1 := { s with fabric := { s.fabric with waiting := NMap.set [] s.fabric.waiting u rest } }
        let s2 := applyHome (s1.bump (aWF 0x040) ((s.now - q.at_) / 4)) q
        (free → exec (.homeEntryAdmit u) s = .next (drainReorder ((s2.intoOf q.pkt.src q.pkt.epoch).reorder.length + 1) q.pkt.src s2))
        ∧ (¬ free → exec (.homeEntryAdmit u) s = .next s))
    ∧ (∀ node s, (s.variant.fabric = false ∨ s.fabric.st = 0) → (∀ e q, exec (.acknowledgement node e q) s = .next s)
        ∧ ∀ e q k, exec (.refusal node e q k) s = .next s)
    ∧ (∀ node s, s.variant.fabric = true → s.fabric.st ≠ 0 → NMap.get false s.fabric.members node = false →
        (∀ e q, exec (.acknowledgement node e q) s = .next (s.bump (aWF 0x810) 1))
        ∧ ∀ e q k, exec (.refusal node e q k) s = .next (s.bump (aWF 0x810) 1))
    ∧ (∀ node s, NMap.get none s.fabric.out node = none → exec (.resend node) s = .next s ∧ exec (.streamBreak node) s = .next s)
    ∧ (∀ node s st, s.variant.fabric = true → s.fabric.st ≠ 0 → NMap.get false s.fabric.members node = true →
        NMap.get none s.fabric.out node = some st →
        let gone (q : Nat) (o : Outstanding) : Bool := o.kind ≠ 4 && o.kind ≠ 9 && seqCovered q o.seq
        (∀ q, exec (.acknowledgement node st.epoch q) s = .next (((st.pending.filter (gone q)).foldl answered
            (s.setOut node (some { st with pending := st.pending.filter (fun o => !gone q o), acked := q, lastAck := s.now }))).settle))
        ∧ (∀ q k, exec (.refusal node st.epoch q k) s = .next (((st.pending.filter fun o => o.seq = q).foldl (fun s o => refused s o k)
            (s.setOut node (some { st with pending := st.pending.filter (fun o => o.seq ≠ q), lastAck := s.now }))).settle))
        ∧ (∀ e q k, e ≠ st.epoch → exec (.acknowledgement node e q) s = .next s ∧ exec (.refusal node e q k) s = .next s))
    ∧ (∀ node s st, NMap.get none s.fabric.out node = some st →
        let late (o : Outstanding) : Bool := s.now ≥ o.sentAt + usec 200
        let old (o : Outstanding) : Bool := o.kind = 9 && s.now ≥ o.issuedAt + msec 10
        ((st.pending.countP late = 0 ∨ s.fabric.st = 3) → exec (.resend node) s = .next s)
        ∧ (st.pending.countP late ≠ 0 → s.fabric.st ≠ 3 → exec (.resend node) s = .next ((st.pending.filter late).foldl
            (fun (s : State) o => s.sendAgain node o)
            ((s.setOut node (some { st with pending := st.pending.map fun o => if late o then { o with sentAt := s.now } else o })).bump
              (aWF 0x020) (st.pending.countP late))))
        ∧ ((st.pending = [] ∨ s.now < st.lastAck + msec 10) → st.pending.any old = false → exec (.streamBreak node) s = .next s)
        ∧ ((st.pending = [] ∨ s.now < st.lastAck + msec 10) → st.pending.any old = true → exec (.streamBreak node) s = .next
            ((st.pending.filter old).foldl (fun (s : State) o => s.readFails o 3)
              (s.setOut node (some { st with pending := st.pending.filter fun o => !old o }))))
        ∧ (st.pending ≠ [] → st.lastAck + msec 10 ≤ s.now → exec (.streamBreak node) s = .next
            ((st.pending.filter fun o => o.kind = 9).foldl (fun (s : State) o => s.readFails o 3)
              (((st.pending.filter fun o => o.kind ≤ 1 ∨ o.kind = 6).foldl (fun (s : State) o => s.loseNode o.tenant o.ctx node) (s.breakWaits node)).setOut
                node (some { epoch := (st.epoch + 1) % 2 ^ 32, next := 0, acked := 0, pending := [], lastAck := s.now })))))

/-! ### Partitions, ports, barriers (11, 20) -/

/-- Leases, partitions and ports (R240–R256). A lease that passes fences the module. LEASE_SET for another module is sent on and waits at most 10 ms; for
this one it sets the time the lease ends, opens the module and answers 0, or answers 1 for a number not above the last. A join takes the identity of
its parameters, closed where it is leased, its ports training; new routes replace the old; a detach ends with its last export. Training brings a
port up on four or two lanes, drops one that is up to two where it lost a lane, fences it electrically where its neighbour is not the image's, or
leaves it down. A port that goes down hands its packets on and is logged; it trains again after 10 ms, a fenced one after 1 s. A frame not
corrected or failing its check is dropped and its replay asked for, one out of sequence is dropped; a good one returns credit, acknowledges, and
enters its packets where the buffer has room, and the fourth failed replay in a row brings the port down. A frame to be replayed leaves first;
else one frame leaves with the packet that wins arbitration, or with none. -/
def Obligations.Links : Prop :=
  (∀ s t, s.fabric.expiry = some t → s.fabric.st = 1 → s.fabric.fenced = false → t ≤ s.now → exec .leaseExpiry s = .next
      (({ s with fabric := { s.fabric with st := 3 } }.fenceSelf).holdOpen.keepPending fun _ => false))
    ∧ (∀ s, (s.fabric.expiry = none ∨ s.fabric.st ≠ 1 ∨ s.fabric.fenced = true ∨ ∀ t, s.fabric.expiry = some t → s.now < t) → exec .leaseExpiry s = .next s)
    ∧ (∀ s id c, Ready s 0x4020 id c → checkLeaseSet s c = none →
        let b := Begun s c
        let stale := (s.fabric.leaseSeq.map fun n => decide (c.p 0 8 ≤ n)).getD false
        (lsForwards s c = true → exec (.opLeaseSet id) s = .next (countLease id s ((b.setCmd { begun s c with stage := .waiting, since := s.now }).send
            { node := c.p 24 2, kind := .lease, number := c.id, epoch := 0, data := forwardedLease s c, poison := false })))
        ∧ (lsForwards s c = false → stale = true → exec (.opLeaseSet id) s = .next (countLease id s (b.ok c.id [1])))
        ∧ (lsForwards s c = false → stale = false → exec (.opLeaseSet id) s = .next (countLease id s ({ b with fabric := { s.fabric with
            expiry := some (c.acceptedAt + usec (c.p 8 4)), leaseSeq := some (c.p 0 8), fenced := false, st := 1 } }.ok c.id [0]))))
    ∧ (∀ s id c, Ready s 0x4020 id c → c.entry = .remote → checkLeaseSet s c = some (stKeyRejected, []) →
        exec (.opLeaseSet id) s = .next (((s.setCmd { c with signals := [] }).finish id stKeyRejected []).bump (aWF 0x820) 1))
    ∧ (∀ s id c, s.cmd? id = some c →
        let late := c.opcode = 0x4020 ∧ c.stage = .waiting ∧ c.since + msec 10 ≤ s.now
        (late → exec (.leaseForwardTimeout id) s = .next (s.finish id stUnreachable [])) ∧ (¬ late → exec (.leaseForwardTimeout id) s = .next s))
    ∧ (∀ s id c, Ready s 0x4021 id c → (c.p 0 1 = 2 ∨ checkPartitionSet s c = none) →
        let b := Begun s c
        let a := (b.imageBytes (begun s c)).toArray
        (c.p 0 1 = 0 → ∃ u : State, exec (.opPartitionSet id) s = .next (u.ok c.id (leBytes 1 ((List.range 8).filter fun p => imgNode a p ≠ 0xFFFF).length))
            ∧ u.fabric.node = c.p 2 2 ∧ u.fabric.partition = c.p 4 2 ∧ u.fabric.rank = c.p 6 2 ∧ u.fabric.epoch = c.p 8 4
            ∧ u.fabric.leased = psLeased c ∧ u.fabric.fenced = psLeased c ∧ u.fabric.st = (if psLeased c then 2 else 1)
            ∧ u.fabric.leaseKey = BitVec.ofNat 64 (c.p 24 8) ∧ u.fabric.out = [] ∧ u.fabric.into = [] ∧ u.fabric.exports = s.fabric.exports
            ∧ u.cmds = b.cmds ∧ ∀ p, p < 8 → imgNode a p ≠ 0xFFFF → (u.wfPort p).st = 1)
        ∧ (c.p 0 1 = 1 → exec (.opPartitionSet id) s = .next ({ b with fabric := { s.fabric with routes := imgRoutes a } }.ok c.id []))
        ∧ (c.p 0 1 = 2 → s.fabric.exports = [] → exec (.opPartitionSet id) s = .next ((if s.fabric.st = 0 then b else b.leavePartition).ok c.id []))
        ∧ (c.p 0 1 = 2 → s.fabric.exports ≠ [] → exec (.opPartitionSet id) s = .next (b.await c.id)))
    ∧ (∀ p n s, (8 ≤ p ∨ s.pw.refLost.testBit 1 = true ∨ ((s.wfPort p).st ≠ 1 ∧ ((s.wfPort p).st ≠ 2 ∨ n.trained = false ∨ n.fourLanes = true))) →
        exec (.portTraining p n) s = .next s)
    ∧ (∀ p (n : Neighbour) s, p < 8 → s.pw.refLost.testBit 1 = false → (s.wfPort p).st = 2 → n.trained = true → n.fourLanes = false →
        let x := s.wfPort p
        let y := { x with nNode := n.node, nRank := n.rank, cause := fencingCause s p n, since := s.now, los := false }
        (fencingCause s p n = 0 → exec (.portTraining p n) s = .next (s.movePort p { y with st := 3, width := 1, delay := n.delay % 2 ^ 24 }))
        ∧ (fencingCause s p n ≠ 0 → exec (.portTraining p n) s = .next (s.dropPort p { y with st := 4 })))
    ∧ (∀ p (n : Neighbour) s, p < 8 → s.pw.refLost.testBit 1 = false → (s.wfPort p).st = 1 →
        let x := s.wfPort p
        let cause := fencingCause s p n
        (n.trained = false → exec (.portTraining p n) s = .next (s.movePort p { x with st := 0, since := s.now }))
        ∧ (n.trained = true → cause ≠ 0 → exec (.portTraining p n) s = .next (s.dropPort p { x with
            nNode := n.node, nRank := n.rank, cause := cause, since := s.now, los := false, st := 4 }))
        ∧ (n.trained = true → cause = 0 → exec (.portTraining p n) s = .next (s.movePort p { x.emptied with
            nNode := n.node, nRank := n.rank, cause := 0, since := s.now, los := false, st := if n.fourLanes then 2 else 3
            width := if n.fourLanes then 2 else 1, delay := n.delay % 2 ^ 24, credit := [(0, 768), (1, 768), (2, 768), (3, 768)]
            shared := 5120 })))
    ∧ (∀ p cause s, p < 8 → ((s.wfPort p).live = true ∨ ((s.wfPort p).st = 1 ∧ cause = DownCause.mismatch)) →
        let x := s.wfPort p
        let y := { x.emptied with st := if cause = DownCause.mismatch then 4 else 0, width := 0, los := x.los || cause = DownCause.lossOfSignal
                                  since := s.now }
        exec (.portDown p cause) s = .next (x.out.foldl
          (fun (s : State) e => e.2.foldl (fun (s : State) q => s.forward e.1 (s.classOf q) { q with losses := 0 }) s)
          (((s.movePort p y).bump (aWP p 0x28) 1).addLog { LogRec.none_ with cls := 7, outcome := 6, island := 200 + p, domain := 15, detail := p })))
    ∧ (∀ p s, (8 ≤ p ∨ (s.wfPort p).live = false) → (∀ cause, ((s.wfPort p).st ≠ 1 ∨ cause ≠ DownCause.mismatch) → exec (.portDown p cause) s = .next s)
        ∧ (∀ f, exec (.linkFrameReceive p f) s = .next s) ∧ exec (.linkFrameTransmit p) s = .next s)
    ∧ (∀ p s, let due := p < 8 ∧ s.portUsed p = true ∧ (s.wfPort p).st = 0 ∧ (s.wfPort p).since + msec 10 ≤ s.now
        (due → exec (.portRetrain p) s = .next ((s.movePort p { s.wfPort p with st := 1, since := s.now }).present p)) ∧ (¬ due → exec (.portRetrain p) s = .next s))
    ∧ (∀ p s, let due := p < 8 ∧ (s.wfPort p).st = 4 ∧ (s.wfPort p).since + msec 1000 ≤ s.now
        (due → exec (.fencedPortRetry p) s = .next ((s.movePort p { s.wfPort p with st := 1, since := s.now }).present p))
        ∧ (¬ due → exec (.fencedPortRetry p) s = .next s))
    ∧ (∀ p (f : LinkFrame) s, p < 8 → (s.wfPort p).live = true →
        let x := s.wfPort p
        let s1 := (s.bump (aWP p 0x10) f.corrected).bump (aWP p 0x18) f.uncorrectable
        let bad := 0 < f.uncorrectable ∨ f.crcOk = false
        (bad → exec (.linkFrameReceive p f) s = .next (s1.setWfPort p { x with again := true }))
        ∧ (¬ bad → f.seq ≠ x.rxSeq → exec (.linkFrameReceive p f) s = .next s1)
        ∧ (¬ bad → f.seq = x.rxSeq → (x.enter f.packets).fits = false → exec (.linkFrameReceive p f) s = .next s)
        ∧ (¬ bad → f.seq = x.rxSeq → (x.enter f.packets).fits = true →
            let z := ((f.credits.foldl (fun (x : WfPort) c => x.returnCredit c.1 c.2) { x with rxSeq := (x.rxSeq + 1) % 2 ^ 32 }).acknowledge f.ack).enter
              f.packets
            (f.again = false → z.tries ≤ 4 → exec (.linkFrameReceive p f) s = .next
              (f.packets.foldl (fun (s : State) q => s.transit p q) (s1.setWfPort p z)))
            ∧ (f.again = true → z.tries < 4 → exec (.linkFrameReceive p f) s = .next
              (f.packets.foldl (fun (s : State) q => s.transit p q) (s1.setWfPort p { z with replayed := 0, tries := z.tries + 1 })))
            ∧ (f.again = true → 4 ≤ z.tries → exec (.linkFrameReceive p f) s = exec (.portDown p .replaysFailed)
              (f.packets.foldl (fun (s : State) q => s.transit p q) (s1.setWfPort p { z with replayed := 0, tries := z.tries + 1 })))))
    ∧ ∀ p s, p < 8 → (s.wfPort p).live = true →
        let x := s.wfPort p
        let waits := (List.range 4).any fun v => !(NMap.get [] x.out v).isEmpty && !x.ready v
        let s1 := if waits then s.bump (aWP p 0x30) (2 + s.now / 10 % 2) else s
        (x.replayed < x.frames.length → exec (.linkFrameTransmit p) s = .next ((s.setWfPort p { x with replayed := x.replayed + 1 }).bump (aWP p 0x20) 1))
        ∧ (x.frames.length ≤ x.replayed → 234 ≤ x.frames.length → exec (.linkFrameTransmit p) s = .next s)
        ∧ (x.frames.length ≤ x.replayed → x.frames.length < 234 →
          (x.winner s.now = none → exec (.linkFrameTransmit p) s = .next (s1.setWfPort p (x.sendFrame [])))
          ∧ ∀ v turn q, x.winner s.now = some (v, turn) → channelHead (NMap.get [] x.out v) = some q →
            let y := { x.spend v (units32 q.bytes) with
              out := x.out.map fun (e : Nat × List OutPkt) => (e.1, (if e.1 = v then e.2.erase q else e.2).map fun r =>
                if x.candidate e.1 r then { r with losses := r.losses + 1 } else r)
              turn := turn
              control := if v = 3 then ((if x.control.2 / 4000 = s.now / 4000 then x.control.1 else 0) + q.bytes, s.now) else x.control }
            exec (.linkFrameTransmit p) s = .next (((if 8 ≤ q.losses then s1.bump (aWF 0x828) 1 else s1).setWfPort p
              (y.sendFrame [(v, q.src, q.dst, q.bytes)])).freeIngress q.from_ v (units32 q.bytes)))

/-- Receive signals (R265–R272) and barriers (R419–R422). A receive signal waits for the operations before it, and is refused where no region takes its key or
the region takes no remote commands; otherwise it counts in its region, or signals its token where the region has no receive header. BARRIER_ARM arms
its barrier, holds the commands that qualify and passes the arm on; a child's arm is noted; a release from the parent leaves with the link's
delay and the time held here taken off; when what remained has run out the barrier fires: its command completes, tells whether it was late, and the
held commands start. A command past its limit before it fires ends WAIT_TIMEOUT. -/
def Obligations.SignalsAndBarriers : Prop :=
  (∀ (p : FabPkt) (token after : Nat) (s : State),
    let joined := s.variant.fabric = true ∧ s.fabric.st ≠ 0
    let member := NMap.get false s.fabric.members p.src = true
    let i := Instr.receiveSignal p token after
    let t := s.freeIngress p.port 3 (ceilDiv (pktBytes p) 32)
    (¬ joined → exec i s = .next s)
      ∧ (joined → ¬ member → exec i s = .next (t.bump (aWF 0x810) 1))
      ∧ (joined → member → s.fabric.st = 3 → exec i s = .next (t.answer p .fenced [] false))
      ∧ (joined → member → s.fabric.st ≠ 3 → s.signalDue p after = false → exec i s = .next s)
      ∧ (joined → member → s.fabric.st ≠ 3 → s.signalDue p after = true →
          (s.regionFor p 0 = none → exec i s = .next (t.rejectKey p))
          ∧ (∀ n e, s.regionFor p 0 = some (n, e) → (e.complete = false ∨ e.revoking.isSome = true) → exec i s = .next (t.rejectKey p))
          ∧ ∀ n e, s.regionFor p 0 = some (n, e) → e.complete = true → e.revoking = none →
              (e.remoteCmd = false → exec i s = .next ((t.rejectKey p).remoteFail e.tenant e.ctx 0x3001 (stKeyRejected, [])))
              ∧ (∀ f, e.remoteCmd = true → s.contextCheck 0x3001 e.tenant e.ctx = some f → exec i s = .next (t.remoteFail e.tenant e.ctx 0x3001 f))
              ∧ (e.remoteCmd = true → s.contextCheck 0x3001 e.tenant e.ctx = none →
                  (rxMagic s e = false → exec i s = .next (t.signalToken e.tenant token 1))
                  ∧ (rxMagic s e = true → ∀ f, (receiveArrival t n e token).2 = some f →
                      exec i s = .next ((receiveArrival t n e token).1.remoteFail e.tenant e.ctx 0x3001 f))
                  ∧ (rxMagic s e = true → (receiveArrival t n e token).2 = none →
                      exec i s = .next ((receiveArrival t n e token).1.recordSignal e p.src p.offset token)))))
    ∧ (∀ (p : FabPkt) (after : Nat) (s : State), s.signalDue p after =
        seqCovered (((s.intoOf p.src p.epoch).next + 2 ^ 32 - 1) % 2 ^ 32) after)
    ∧ (∀ s id c, Ready s 0x3004 id c → checkBarrierArm s c = none →
        let b := c.p 0 1
        let s1 := ((Begun s c).setCmd { begun s c with stage := .waiting, since := s.now }).setBarrier b { s.barrier b with armed := some c.id, sent := false }
        exec (.opBarrierArm id) s = .next ((s1.holdCommands b (begun s c)).passArm b))
    ∧ (∀ b p s, let heard := s.sidebandIn p = true ∧ s.barrierChildren.contains p = true
        let x := s.barrier b
        (heard → exec (.barrierArmSignal b p) s = .next
          ((s.setBarrier b { x with arms := if x.arms.contains p then x.arms else x.arms ++ [p] }).passArm b))
        ∧ (¬ heard → exec (.barrierArmSignal b p) s = .next s))
    ∧ (∀ b p left held s, let heard := s.sidebandIn p = true ∧ p = s.fabric.parent
        let x := s.barrier b
        let l : Int := left - (s.wfPort p).delay
        (heard → exec (.barrierRelease b p left held) s = .next ((s.setBarrier b { x with
          arms := [], sent := x.armed.isSome, release := if x.armed.isSome then some (l, s.now) else none }).sendRelease b (l - held)))
        ∧ (¬ heard → exec (.barrierRelease b p left held) s = .next s))
    ∧ (∀ b s, ((s.barrier b).release = none ∨ (s.barrier b).armed = none) → exec (.barrierFire b) s = .next s)
    ∧ (∀ b s (left : Int) (at_ : Nat) id c, (s.barrier b).release = some (left, at_) → (s.barrier b).armed = some id → s.cmd? id = some c →
        let late : Nat := if left < 0 then 1 else 0
        ((at_ : Int) + max left 0 ≤ (s.now : Int) → exec (.barrierFire b) s = .next ((s.barrier b).heldCores.foldl (fun (s : State) h => s.startHeld h)
          ((((s.setBarrier b (s.barrier b).disarmed).setCmd { c with signals := [] }).ok c.id (leBytes 1 late)).giveSignals c)))
        ∧ ((s.now : Int) < (at_ : Int) + max left 0 → exec (.barrierFire b) s = .next s))
    ∧ ∀ s id c, s.cmd? id = some c →
        let b := c.p 0 1
        let x := s.barrier b
        let stop : Nat := c.since + usec (c.p 8 4)
        let late := c.opcode = 0x3004 ∧ c.stage = .waiting ∧ c.p 8 4 ≠ 0 ∧ stop ≤ s.now
        (late → x.release = none → exec (.barrierTimeout id) s = .next
          ((((s.setBarrier b x.disarmed).setCmd { c with signals := [] }).finish id stWaitTimeout []).letGo x.heldCores))
        ∧ (late → ∀ (l : Int) (a : Nat), x.release = some (l, a) → (stop : Int) < (a : Int) + max l 0 → exec (.barrierTimeout id) s = .next
          ((((s.setBarrier b x.disarmed).setCmd { c with signals := [] }).finish id stWaitTimeout []).letGo x.heldCores))
        ∧ (∀ (l : Int) (a : Nat), x.release = some (l, a) → (a : Int) + max l 0 ≤ (stop : Int) → exec (.barrierTimeout id) s = .next s)
        ∧ (¬ late → exec (.barrierTimeout id) s = .next s)

/-! ### Dispatch, recording and replay (09, 19, 20) -/

/-- The Dispatchers (R179–R196). COMMAND_GRANT takes a command's need of every token and counts it, where no older one of its tenant may be granted
first; one that no core may run ends instead. COMMAND_START: a core takes a waiting radio command first; else what is placed on it goes on; else its
first choice is placed there, which starts at once, or after a fill or a spill. SPILL_END and FILL_END count the bytes moved. COMPLETION_POST posts
an ended radio command first, then the next command. SLOT_GUARD_LIMIT and CONTEXT_WATCHDOG end a command OVERRUN with 1 and 2.
RADIO_COMMAND_ISSUE makes a radio command of a started cell. RADIO_RESERVE sets the radio set and the guard, cuts regions back to what the
carve-out leaves, and answers both. -/
def Obligations.Dispatchers : Prop :=
  (∀ s id c, s.cmd? id = some c →
      let first := s.mayGrant c = true ∧ ∀ d ∈ s.cmds, d.tenant = c.tenant → d.id < id → s.mayGrant d = false
      (first → coreOp c.opcode = true → (∃ k, k < 64 ∧ s.eligible c k = true) → exec (.commandGrant id) s =
          .next (((s.takeTokens c).setCmd { c with stage := .granted, since := s.now }).bump (aDP (s.grantDie c) 0x010) 1))
      ∧ (first → coreOp c.opcode = true → (∀ k, k < 64 → s.eligible c k = false) → exec (.commandGrant id) s = .next (s.noCore c))
      ∧ (first → coreOp c.opcode = false →
          let u := (s.takeTokens c).setCmd { c with stage := .granted, since := s.now, queue := some 0 }
          exec (.commandGrant id) s = .next ((u.setCq 0 (u.cq 0 + 1)).bump (aDP (s.grantDie c) 0x010) 1))
      ∧ (¬ first → exec (.commandGrant id) s = .next s))
    ∧ (∀ s id, s.cmd? id = none → exec (.commandGrant id) s = .next s ∧ exec (.contextWatchdog id) s = .next s)
    ∧ (∀ k s r, s.nextRadio k = some r →
        let u := { s with radioCmds := s.radioCmds.map fun (q : RadioCmd) => if q.id = r.id then { q with run := some (k, s.now) } else q }
        let v := u.setCore k { u.core k with running := some r.id }
        exec (.commandStart k) s = .next ((v.setCq (dieOf k) (u.cq (dieOf k) + 1)).bumpMax (aDP (dieOf k) 0x038) ((s.now - r.issuedAt) / 4)))
    ∧ (∀ k s, s.nextRadio k = none → ((s.core k).running.isSome = true ∨ s.heldCore k = true) → exec (.commandStart k) s = .next s)
    ∧ (∀ k s, s.nextRadio k = none → (s.core k).running = none → s.heldCore k = false →
        (∀ c, s.placedOn k = some c → exec (.commandStart k) s = .next (s.settleOn k c))
        ∧ (s.placedOn k = none → (s.coreIdle k = false ∨ s.choices k = []) → exec (.commandStart k) s = .next s)
        ∧ ∀ c cs, s.coreIdle k = true → s.choices k = c :: cs →
          (s.entering k c ≠ .full → exec (.commandStart k) s = .next (s.place k c))
          ∧ (∀ d, s.entering k c = .full → (c :: cs).find? (s.core k).hosts = some d → exec (.commandStart k) s = .next (s.place k d))
          ∧ (s.entering k c = .full → (c :: cs).find? (s.core k).hosts = none → exec (.commandStart k) s = .next s))
    ∧ (∀ (k : Nat) (s : State) (c : Cmd),
        s.place k c = (s.seat k c).settleOn k { c with core := some k, queue := some (dieOf k) }
        ∧ (s.eligible c k = false → s.settleOn k c = s.unseat c)
        ∧ (s.eligible c k = true → (s.stalled c.tenant = true ∨ s.heldBack c = true ∨ s.entering k c = .wait ∨ s.entering k c = .full) → s.settleOn k c = s)
        ∧ (s.eligible c k = true → s.stalled c.tenant = false → s.heldBack c = false →
          (s.entering k c = .fill → s.settleOn k c = s.bringIn k c.tenant c.ctx)
          ∧ (s.entering k c = .ready → ∀ f, (s.contextAtStart c <|> coreOpCheck s c) = some f →
              s.settleOn k c = (s.setCmd { s.atStart k c with signals := [] }).finish c.id f.1 f.2)
          ∧ (s.entering k c = .ready → (s.contextAtStart c <|> coreOpCheck s c) = none →
              s.settleOn k c = ((s.setCmd { s.atStart k c with stage := .started }).setCore k ((s.core k).runs c s.now)).stage c (operandRefs c))
          ∧ ∀ v, s.entering k c = .spill v → ∃ n, n ≤ s.scratch k ∧ s.settleOn k c = ({ s with free := s.free + 1 }.setCore k { s.core k with
              residents := (s.core k).residents.filter (!·.is v.tenant v.ctx)
              spilling := some (some { v with bytes := n }, some { tenant := c.tenant, ctx := c.ctx, bytes := 0, guarded := true, lastUse := s.now })
              }).bump (aDP (dieOf k) 0x018) 1))
    ∧ (∀ k s, (s.core k).spilling = none → exec (.spillEnd k) s = .next s)
    ∧ (∀ k s v n, (s.core k).spilling = some (v, n) →
        let x := s.core k
        let die := dieOf k
        let s1 := s.setCore k { x with spilling := none }
        let s2 := match v with
          | some r => { s1 with spilled := s.spilled.filter (fun (e : Nat × Resident) => !(e.1 = die && e.2.is r.tenant r.ctx)) ++ [(die, r)] }.bump
              (aDP die 0x020) r.bytes
          | none => s1
        ((n = none ∨ 4 ≤ x.residents.length ∨ x.filling.isSome = true) → exec (.spillEnd k) s = .next s2)
        ∧ ∀ r, n = some r → x.residents.length < 4 → x.filling = none → exec (.spillEnd k) s = .next (s2.bringIn k r.tenant r.ctx))
    ∧ (∀ k s, (s.core k).filling = none → exec (.fillEnd k) s = .next s)
    ∧ (∀ k s r, (s.core k).filling = some r → exec (.fillEnd k) s =
        .next ((s.setCore k { s.core k with filling := none }).bump (aDP (dieOf k) 0x020) r.bytes))
    ∧ (∀ die s r, (s.radioCmds.find? fun r => (r.run.map fun x => decide (dieOf x.1 = die ∧ s.now ≥ x.2 + r.time)).getD false) = some r →
        exec (.completionPost die) s = .next (s.postRadio die r ((r.run.map Prod.fst).getD 0)))
    ∧ (∀ die s c, (s.radioCmds.find? fun r => (r.run.map fun x => decide (dieOf x.1 = die ∧ s.now ≥ x.2 + r.time)).getD false) = none →
        s.nextPost die = some c → exec (.completionPost die) s = .next (s.postCmd c))
    ∧ (∀ die s, (s.radioCmds.find? fun r => (r.run.map fun x => decide (dieOf x.1 = die ∧ s.now ≥ x.2 + r.time)).getD false) = none →
        s.nextPost die = none → exec (.completionPost die) s = .next s)
    ∧ (∀ (s : State) (c : Cmd),
        let s1 := if c.signalled then s else s.giveSignals c
        (s1.recordWaits c = true → s.postCmd c = s1.setCmd { c with signalled := true })
        ∧ (s1.recordWaits c = false → s.postCmd c = ((((((if c.records then s1.reply c.tenant (s1.cmdReply c true) else s1).answerLease c).freeEntry c).dropCmd
            c.id).programDone c).settle.settleContexts)))
    ∧ (∀ k s c, (s.core k).running.bind s.cmd? = some c →
        let over_ := c.stage ≠ .done ∧ s.limitReached c = true
        (over_ → exec (.slotGuardLimit k) s = .next ((s.bump (aDP (dieOf k) 0x028) 1).failRunning c (stOverrun, [1])))
        ∧ (¬ over_ → exec (.slotGuardLimit k) s = .next s))
    ∧ (∀ k s, (s.core k).running.bind s.cmd? = none → exec (.slotGuardLimit k) s = .next s)
    ∧ (∀ s id c, s.cmd? id = some c →
        let due (t : Nat) := 16 * (t + msec (s.tenant c.tenant).watchdog) + c.slowed ≤ 16 * s.now
        let watched := (c.stage = .started ∨ c.stage = .waiting) ∧ scopeC c.opcode = true ∧ c.entry ≠ .mgmt ∧ unwatched c.opcode = false
        (∀ t, watched → s.watchedSince c = some t → due t → exec (.contextWatchdog id) s =
            .next ((s.addLog { cmdLog 6 5 c with status := stOverrun }).failRunning c (stOverrun, [2])))
        ∧ (∀ t, s.watchedSince c = some t → ¬ due t → exec (.contextWatchdog id) s = .next s)
        ∧ (s.watchedSince c = none → exec (.contextWatchdog id) s = .next s)
        ∧ (¬ watched → exec (.contextWatchdog id) s = .next s))
    ∧ (∀ cell ns d s x, s.variant.radio = true → s.cell cell = some x → x.st.started = true → exec (.radioCommandIssue cell ns d) s = .next { s with
        radioCmds := s.radioCmds ++ [{ id := s.nextId + 1, cell := cell, time := 4 * ns, disagree := d, issuedAt := s.now, run := none }]
        nextId := s.nextId + 1 })
    ∧ (∀ cell ns d s, (s.variant.radio = false ∨ s.cell cell = none ∨ ∃ x, s.cell cell = some x ∧ x.st.started = false) → exec (.radioCommandIssue cell ns d) s = .next s)
    ∧ ∀ s id c, Ready s 0x5020 id c → checkRadioReserve s c = none →
        let cut (k : Nat) (r : Resident) : Resident := if (rrSet s c).testBit k then { r with bytes := min r.bytes 0x180000 } else r
        exec (.opRadioReserve id) s = .next (({ Begun s c with
          radioSet := rrSet s c
          guard := rrGuard c
          cores := s.cores.map fun (e : Nat × Core) => (e.1, { e.2 with residents := e.2.residents.map (cut e.1), filling := e.2.filling.map (cut e.1) })
          }.sweepPlacement).ok c.id (leBytes 8 (rrSet s c) ++ leBytes 4 (rrGuard c)))

/-- Recording and replay (R411–R418), and the replay of a command whose check disagreed (R393, R394). RECORD_START writes the ring's header and records
from then on; RECORD_STOP writes the last header and answers the entries; SEED_SET writes the fields it selects, STEP_READ answers both;
REPLAY_START takes step and seed from the ring's header and waits; a header that is none ends it before it starts, one that cannot be read ends it as
a failed read. A disputed command that another core can rerun runs again there; as its replay ends, it is resolved in favour of the side that
agrees, its checker suspect or its core withdrawn; else it stays unresolved, its outputs poisoned. -/
def Obligations.RecordingAndReplay : Prop :=
  (∀ s id c, Ready s 0x9001 id c → checkRecordStart s c = none →
      let x := s.ctx c.tenant c.ctx
      let r : Recording := { ring := c.p 0 8, bytes := c.p 8 8, sources := c.p 16 1, cell := c.p 17 1, end_ := 64, entries := 0,
                             step := x.step, seed := x.seed, version := (s.fn c.tenant).version }
      exec (.opRecordStart id) s = .next ((((Begun s c).putHeader c.tenant c.ctx r 0).setRecording c.tenant c.ctx (some r)).ok c.id []))
    ∧ (∀ s id c r, Ready s 0x9002 id c → (s.ctx c.tenant c.ctx).recording = some r → exec (.opRecordStop id) s =
        .next ((((Begun s c).putHeader c.tenant c.ctx r 1).setRecording c.tenant c.ctx none).ok c.id (leBytes 8 r.entries)))
    ∧ (∀ s id c, Ready s 0x9002 id c → (s.ctx c.tenant c.ctx).recording = none → exec (.opRecordStop id) s =
        .next ((s.setCmd { c with signals := [] }).finish id stNoResources [0x51]))
    ∧ (∀ s id c, Ready s 0x9004 id c → checkSeedSet s c = none →
        let x := s.ctx c.tenant c.ctx
        exec (.opSeedSet id) s = .next (((Begun s c).setCtx c.tenant c.ctx { x with
          step := if (c.p 16 1).testBit 0 then BitVec.ofNat 64 (c.p 0 8) else x.step
          seed := if (c.p 16 1).testBit 1 then BitVec.ofNat 64 (c.p 8 8) else x.seed }).ok c.id []))
    ∧ (∀ s id c, Ready s 0x9003 id c → checkReplayStart s c = none → Settled runReplayStart (Begun s c) (begun s c) →
        let x := s.ctx c.tenant c.ctx
        (∀ h, ringHead (Begun s c) (begun s c) = .ok h → exec (.opReplayStart id) s = .next (((Begun s c).setCtx c.tenant c.ctx { x with
          step := BitVec.ofNat 64 (fieldAt h 24 8), seed := BitVec.ofNat 64 (fieldAt h 32 8), last := none
          replaying := some { ring := c.p 0 8, sendRemote := (c.p 8 1).testBit 0, id := c.id, next := 64, fed := 0,
                              total := fieldAt h 8 8 } }).await c.id))
        ∧ ∀ f, ringHead (Begun s c) (begun s c) = .error f → f.1 ≠ stShape →
            exec (.opReplayStart id) s = .next ((Begun s c).fail c.id f.1 f.2))
    ∧ (∀ s id c f, Ready s 0x9003 id c → ringHead s c = .error f → f.1 = stShape →
        exec (.opReplayStart id) s = .next ((s.setCmd { c with signals := [] }).finish id f.1 f.2))
    ∧ (∀ (s : State) t c kind payload poison, (s.ctx t c).recording = none → s.record t c kind payload poison = s)
    ∧ (∀ s id (o : ReplayObs), s.cmd? id = none → exec (.replay id o) s = .next s)
    ∧ (∀ s id c (o : ReplayObs), s.cmd? id = some c → c.core = none → exec (.replay id o) s = .next s)
    ∧ (∀ s id c k (o : ReplayObs), s.cmd? id = some c → c.core = some k →
        let open_ := coreOp c.opcode = true ∧ c.stage = .done ∧ c.signalled = false
        let others := (List.range 64).filter fun j => j ≠ k && s.eligible c j
        (¬ open_ → exec (.replay id o) s = .next s)
        ∧ (open_ → ∀ k0 kind, c.replay = some (k0, kind) →
            let passed := c.status = stOK ∧ c.disputed = 0 ∧ o.passes = true
            let first := passed ∧ (kind = 5 ∨ (kind ≠ 6 ∧ o.same = true))
            let second := passed ∧ (kind = 6 ∨ (o.same = false ∧ o.agrees = true))
            (first → exec (.replay id o) s = .next ((s.resolved c 2 k0 k kind).suspectCore k0))
            ∧ (¬ first → second → exec (.replay id o) s = .next ((s.resolved c 3 k0 k kind).quarantineCore k0 (kind ≠ 6)))
            ∧ (¬ first → ¬ second → exec (.replay id o) s = .next (s.unresolved c k0 k kind)))
        ∧ (open_ → c.replay = none → c.status ≠ stOK → exec (.replay id o) s = .next s)
        ∧ (open_ → c.replay = none → c.status = stOK → (others = [] ∨ readsWrites c = true ∨ c.checked = false) →
            exec (.replay id o) s = .next (s.unresolved c k 0xFF c.disputed))
        ∧ (open_ → c.replay = none → c.status = stOK → others ≠ [] → readsWrites c = false → c.checked = true →
            (others.find? s.coreIdle = none → exec (.replay id o) s = .next s)
            ∧ ∀ j, others.find? s.coreIdle = some j → exec (.replay id o) s = .next (s.startReplay c k j)))
    ∧ (∀ (s : State) (c : Cmd) (k j : Nat), s.startReplay c k j =
        (s.setCmd { s.atStart j c with stage := .started, forced := true, status := 0, result := [], disputed := 0, replay := some (k, c.disputed) }).setCore j
          ((s.core j).runs c s.now))
    ∧ ∀ (s : State) (k : Nat),
        ((s.core k).suspect = true → s.suspectCore k = s.quarantineCore k true)
        ∧ ((s.core k).suspect = false → s.suspectCore k = s.setCore k { s.core k with suspect := true })

/-! ### The radio (13, 15) -/

/-- Cells (R280–R292). CELL_CONFIG admits a cell with its cost, or releases it, and answers cost, total and capacity. CELL_START of a running cell answers 1; of
any other it waits for the boundary its state gives, a cell's manual gains leaving for it; from that boundary on the cell runs, in holdover while the
host is lost, its slot's fills judged, and every start that waited is answered. CELL_STOP of a running cell waits for its slot's end, of one in holdover or muted stops it at once, of any other answers 1. FAPI packets
act message by message and give one batch of answers; a message for a cell not running, or past its slot's deadline, is not held. -/
def Obligations.Cells : Prop :=
  (∀ s id c, Ready s 0x5001 id c → checkCellConfig s c = none →
      let n := c.p 0 1
      let b := Begun s c
      (c.p 1 1 = 0 →
        let u := b.setCell n (some (Cell.init c.params))
        exec (.opCellConfig id) s = .next (u.ok c.id (leBytes 2 (cluCost c.params) ++ leBytes 2 u.admittedTotal ++ leBytes 2 u.effectiveCapacity)))
      ∧ ∀ x, c.p 1 1 ≠ 0 → s.cell n = some x →
        let u := b.setCell n none
        exec (.opCellConfig id) s = .next (u.ok c.id (leBytes 2 x.cost ++ leBytes 2 u.admittedTotal ++ leBytes 2 u.effectiveCapacity)))
    ∧ (∀ s id c x, Ready s 0x5002 id c → checkCellStart s c = none → s.cell (c.p 0 1) = some x →
        let b := Begun s c
        let at_ := if x.st = .configured then roundUp (s.sx.time + msec 20) (msec 10) else (s.sx.time / x.slotTime + 1) * x.slotTime
        let st := match x.starting with | some (ids, t) => (ids ++ [c.id], t) | none => ([c.id], at_)
        let n := c.p 0 1
        let s0 := b.setCell n (some { x with starting := some st })
        let u := (if x.starting.isNone then s0.sendManual n ((x.head.map (·.manual)).getD []) else s0).await c.id
        (x.st = .running → exec (.opCellStart id) s = .next (b.ok c.id [1]))
        ∧ (x.st ≠ .running → (c.p 1 1).testBit 0 = false → exec (.opCellStart id) s = .next u)
        ∧ (x.st ≠ .running → (c.p 1 1).testBit 0 = true → exec (.opCellStart id) s = .next u.holdoverStart))
    ∧ (∀ s id c x, Ready s 0x5003 id c → s.cell (c.p 0 1) = some x →
        let b := Begun s c
        ((x.st = .admitted ∨ x.st = .configured) → exec (.opCellStop id) s = .next (b.ok c.id [1]))
        ∧ (x.st = .running → exec (.opCellStop id) s =
            .next ((b.setCell (c.p 0 1) (some { x with stopping := x.stopping ++ [c.id] })).await c.id))
        ∧ ((x.st = .holdover ∨ x.st = .muted) → exec (.opCellStop id) s =
            .next (b.stopCell (c.p 0 1) { x with stopping := x.stopping ++ [c.id] })))
    ∧ (∀ s id c, Ready s 0x5003 id c → s.cell (c.p 0 1) = none → exec (.opCellStop id) s =
        .next ((s.setCmd { c with signals := [] }).finish id stShape [0x76]))
    ∧ (∀ n s, (∀ x, s.cell n = some x → x.starting = none) → exec (.cellBecomesRunning n) s = .next s)
    ∧ (∀ n s x ids t, s.cell n = some x → x.starting = some (ids, t) →
        let r := s.powerRadio
        let u := r.slotNow x
        let y := { x with st := if r.link.lostAt.isSome then .holdover else .running, starting := none, sfn := u.1, slot := u.2, fill := !x.holds u.1 u.2 4
                          noUplink := !x.holds u.1 u.2 5, mutePending := false }
        (s.sx.time < t → exec (.cellBecomesRunning n) s = .next s)
        ∧ (t ≤ s.sx.time → exec (.cellBecomesRunning n) s = .next
            (ids.foldl (fun (s : State) id => s.ok id [0]) (((r.setCell n (some y)).radioFlags).headBoundary n u.1 u.2))))
    ∧ (∀ s id c, Ready s 0x5011 id c → checkFapi s c = none →
        let b := Begun s c
        (∀ f, fapiMessages b (begun s c) = .error f → exec (.opFapiP5 id) s = .next (b.fapiFails (begun s c) f))
        ∧ ∀ ms, fapiMessages b (begun s c) = .ok ms →
            let r := ms.foldl (State.fapiP5 (c.p 0 1)) (b, [])
            let x := r.1.cell (c.p 0 1)
            exec (.opFapiP5 id) s = .next ((r.1.batch (c.p 0 1) ((x.map (·.sfn)).getD 0) ((x.map (·.slot)).getD 0) false r.2).ok c.id []))
    ∧ (∀ s id c, Ready s 0x5010 id c → checkFapi s c = none →
        let b := Begun s c
        (∀ f, fapiMessages b (begun s c) = .error f → exec (.opFapiP7 id) s = .next (b.fapiFails (begun s c) f))
        ∧ ∀ ms, fapiMessages b (begun s c) = .ok ms →
            let r := ms.foldl (State.fapiP7 (c.p 0 1)) (ms.foldl (fun (s : State) m => s.recordFronthaul (c.p 0 1) m) b, [])
            let x := r.1.cell (c.p 0 1)
            exec (.opFapiP7 id) s = .next ((r.1.batch (c.p 0 1) ((x.map (·.sfn)).getD 0) ((x.map (·.slot)).getD 0) false r.2).ok c.id []))
    ∧ (∀ (s : State) (c : Cmd) (f : Fail), (f.1 = stShape → s.fapiFails c f = (s.setCmd { c with signals := [] }).finish c.id f.1 f.2)
        ∧ (f.1 ≠ stShape → s.fapiFails c f = s.finish c.id f.1 f.2))
    ∧ ∀ n (s : State) out m x, s.cell n = some x →
        let t := Config.fapiSlot m
        let k := Config.fapiKind m
        let err (e : Nat) := (s, out ++ [errorIndication n t.1 t.2 k e])
        ((k < 4 ∨ 7 < k) → State.fapiP7 n (s, out) m = err 3)
        ∧ (4 ≤ k → k ≤ 7 → x.st ≠ .running → State.fapiP7 n (s, out) m = err 1)
        ∧ (4 ≤ k → k ≤ 7 → x.st = .running → s.deadlinePassed x t.1 t.2 = true → State.fapiP7 n (s, out) m = err 2)
        ∧ (4 ≤ k → k ≤ 7 → x.st = .running → s.deadlinePassed x t.1 t.2 = false → Config.fapiOutside m = false →
            State.fapiP7 n (s, out) m = (s.setCell n (some { x with held := x.held ++ [(t.1, t.2, m)] }), out))
        ∧ (4 ≤ k → k ≤ 7 → x.st = .running → s.deadlinePassed x t.1 t.2 = false → Config.fapiOutside m = true →
            State.fapiP7 n (s, out) m = (s.setCell n (some { x with held := x.held ++ [(t.1, t.2, m)] }), (err 4).2))

/-- The slot pipeline and the companion head (R293–R299, R340–R345). At a new slot a stop takes effect, a holdover that expired mutes, and any other running
cell takes its requests, tells the slot ahead and settles its loops. At its deadline what is not held in full is reported and leaves. A fronthaul window opens or
closes, U-plane missing at its close is counted. A step past its deadline is reported SLOT_LATE and its results are marked. Power too high cuts the gain,
but not within a slot that a burst or a PRACH occasion froze; a frequency estimate moves the word by no more than its step; HEAD_CONTROL's settings wait for the slot
boundary, and its read answers gains, freeze and word. -/
def Obligations.SlotsAndHead : Prop :=
  (∀ n s, s.cell n = none → exec (.slotBoundary n) s = .next s ∧ exec (.requestDeadline n) s = .next s
      ∧ (∀ d, exec (.slotDeadline n d) s = .next s) ∧ (∀ y u o r, exec (.fronthaulWindow n y u o r) s = .next s)
      ∧ (∀ a (p : Int) h, exec (.agcMeasurement n a p h) s = .next s) ∧ ∀ o q, exec (.frequencyEstimate n o q) s = .next s)
    ∧ (∀ n s x, s.cell n = some x →
        let t := s.slotNow x
        let y := { x with sfn := t.1, slot := t.2, fill := !x.holds t.1 t.2 4, noUplink := !x.holds t.1 t.2 5, windows := []
                          held := x.held.filter fun h => decide (s.slotStart x h.1 h.2.1 ≥ ((s.sx.time / x.slotTime * x.slotTime : Nat) : Int)) }
        let a := y.ahead t.1 t.2 (cfLead y.config)
        let new := x.st.started = true ∧ t ≠ (x.sfn, x.slot)
        (¬ new → exec (.slotBoundary n) s = .next s)
        ∧ (new → x.stopping ≠ [] → exec (.slotBoundary n) s = .next (s.stopCell n x))
        ∧ (new → x.stopping = [] → x.st = .holdover → x.mutePending = true → exec (.slotBoundary n) s =
            .next (((s.setCell n (some { y with st := .muted, mutePending := false })).tellWindows x).radioFlags))
        ∧ (new → x.stopping = [] → x.st = .muted → exec (.slotBoundary n) s = .next (s.setCell n (some y)))
        ∧ (new → x.stopping = [] → x.st ≠ .muted → (x.st ≠ .holdover ∨ x.mutePending = false) → exec (.slotBoundary n) s =
            .next ((((s.setCell n (some y)).tellWindows x).headBoundary n t.1 t.2).batch n a.1 a.2 false [Config.fapiMessage 4 [n, a.1, a.2]])))
    ∧ (∀ n s x, s.cell n = some x →
        let i := (5 * s.sx.time + 6 * x.slotTime) / (5 * x.slotTime)
        let sfn := i * x.slotTime / msec 10 % 1024
        let slot := i * x.slotTime % msec 10 / x.slotTime
        let mine (h : Nat × Nat × List Byte) : Bool := h.1 = sfn && h.2.1 = slot
        let cut (h : Nat × Nat × List Byte) : Bool := mine h && !Config.fapiWhole h.2.2 ((x.held.filter mine).map (·.2.2))
        (x.st ≠ .running → x.st ≠ .holdover → exec (.requestDeadline n) s = .next s)
        ∧ ((x.st = .running ∨ x.st = .holdover) → exec (.requestDeadline n) s = .next
            ((s.setCell n (some { x with held := x.held.filter (!cut ·) })).batch n sfn slot false
              ((x.held.filter cut).map fun h => errorIndication n sfn slot (Config.fapiKind h.2.2) 2))))
    ∧ (∀ n y up op r s x, s.cell n = some x →
        let acts := y ≤ 13 ∧ (x.st = .running ∨ x.st = .holdover) ∧ op ≠ x.windows.contains (y, up)
        let w := x.windows.filter (· ≠ (y, up))
        let v := (s.setCell n (some { x with windows := x.windows ++ [(y, up)] })).tellWindows x
        (¬ acts → exec (.fronthaulWindow n y up op r) s = .next s)
        ∧ (acts → op = true → up = false → r = true → exec (.fronthaulWindow n y up op r) s =
            .next (v.draw.2.queueFrame (cfPort x.config) 1 (64 + v.draw.1.toNat % 9153) []))
        ∧ (acts → op = true → (up = true ∨ r = false) → exec (.fronthaulWindow n y up op r) s = .next v)
        ∧ (acts → op = false → r = true → exec (.fronthaulWindow n y up op r) s = .next ((s.setCell n (some { x with windows := w })).tellWindows x))
        ∧ (acts → op = false → r = false → up = false → exec (.fronthaulWindow n y up op r) s =
            .next ((s.setCell n (some { x with windows := w, unsent := x.unsent + 1 })).tellWindows x))
        ∧ (acts → op = false → r = false → up = true → x.noUplink = true → exec (.fronthaulWindow n y up op r) s =
            .next ((s.setCell n (some { x with windows := w })).tellWindows x))
        ∧ (acts → op = false → r = false → up = true → x.noUplink = false → exec (.fronthaulWindow n y up op r) s =
            .next (((s.setCell n (some { x with windows := w, missing := x.missing + 1 })).tellWindows x).batch n x.sfn x.slot false
              [errorIndication n x.sfn x.slot 5 5])))
    ∧ (∀ n d s x, s.cell n = some x →
        let acts := d.dir ≤ 2 ∧ (x.st = .running ∨ x.st = .holdover ∨ (x.st = .configured ∧ s.replays = true))
        let report := d.dir = 2 ∧ d.step = 8
        let y := if report then { x.quality d with rach := [] } else x.quality d
        let u := (s.setCell n (some y)).controlPlane x d
        let ms := d.messages ++ (if report then x.rach.map (Config.fapiMessage 5) else [])
        (¬ acts → exec (.slotDeadline n d) s = .next s)
        ∧ (acts → d.met = true → exec (.slotDeadline n d) s = .next (u.batch n d.sfn d.slot false ms))
        ∧ (acts → d.met = false → exec (.slotDeadline n d) s = .next ((u.notice 0 stSlotLate (leBytes 1 d.dir ++ leBytes 1 n ++ leBytes 2 d.sfn
            ++ leBytes 1 d.slot ++ leBytes 1 d.step ++ leBytes 2 0 ++ leBytes 4 d.late)).batch n d.sfn d.slot true ms)))
    ∧ (∀ (s : State) (x : Cell) (d : DeadlineObs),
        let due := cfSplit x.config ≠ 2 ∧ x.st ≠ .configured ∧ ((d.dir = 0 ∧ d.step = 5) ∨ (d.dir = 1 ∧ d.step = 2))
        (due → s.controlPlane x d = s.draw.2.queueFrame (cfPort x.config) 2 (64 + s.draw.1.toNat % 9153) [])
        ∧ (¬ due → s.controlPlane x d = s))
    ∧ (∀ n a (p : Int) ph s x, s.cell n = some x →
        (x.head = none ∨ (x.st ≠ .running ∧ x.st ≠ .holdover) ∨ cfAnt x.config ≤ a ∨ ∃ h, x.head = some h ∧ h.flags.testBit 0 = false) →
        exec (.agcMeasurement n a p ph) s = .next s)
    ∧ (∀ n o q s x, s.cell n = some x → (x.head = none ∨ (x.st ≠ .running ∧ x.st ≠ .holdover)) → exec (.frequencyEstimate n o q) s = .next s)
    ∧ (∀ n a (p : Int) (ph : Bool) s x h, s.cell n = some x → x.head = some h → (x.st = .running ∨ x.st = .holdover) → a < cfAnt x.config →
        h.flags.testBit 0 = true →
        let burst := ∃ q, NMap.get none h.prev a = some q ∧ q + 25 * h.burst < p
        let ends := h.frozen = true ∧ h.prachFreeze = true ∧ s.sx.time % x.slotTime * 14 < x.slotTime ∧ ph = false
        let frozen := burst ∨ ph = true ∨ (h.frozen = true ∧ ¬ ends)
        let h1 (b : Bool) := { h with
          prev := NMap.set none h.prev a (some p), frozen := b, prachFreeze := ph
          allLow := NMap.set none h.allLow a (some (decide (p < 25 * (h.target - h.hysteresis)) && (NMap.get none h.allLow a).getD true)) }
        let u (b : Bool) := if b && !h.frozen then (s.setHead n x (h1 b)).bump 0x06000058 1 else s.setHead n x (h1 b)
        let g := s.headTarget x
        let value := clampGain ((h.gainAt a (s.sx.time - usec 6) : Int) - quarterDb (min (p - 25 * h.target) (25 * h.attack)))
        let at_ := x.ahead x.sfn x.slot g.1
        ∀ b, (b = true ↔ frozen) →
          ((p ≤ 25 * (h.target + h.hysteresis) ∨ (b = true ∧ g.1 = 0)) → exec (.agcMeasurement n a p ph) s = .next (u b))
          ∧ (25 * (h.target + h.hysteresis) < p → (b = false ∨ g.1 ≠ 0) → exec (.agcMeasurement n a p ph) s =
              .next (((u b).setHead n x { h1 b with words := h.words ++ [(a, value, g.2.2)] }).headSend n 1 a at_.1 at_.2 g.2.1 value)))
    ∧ (∀ n o q s x h, s.cell n = some x → x.head = some h → (x.st = .running ∨ x.st = .holdover) →
        let r := roundHalf s o h.a
        let to_ := x.ahead x.sfn x.slot 2
        let held := h.flags.testBit 1 = false ∨ q < h.hold
        let w := max (-10000000) (min 10000000 (h.freq - max (-(h.step : Int)) (min h.step r.1)))
        (held → exec (.frequencyEstimate n o q) s = .next ((r.2.setHead n x { h with freq := h.freq }).headSend n 2 0xFF to_.1 to_.2 0 h.freq))
        ∧ (¬ held → exec (.frequencyEstimate n o q) s = .next ((r.2.setHead n x { h with freq := w }).headSend n 2 0xFF to_.1 to_.2 0 w)))
    ∧ ∀ s id c x h, Ready s 0x5030 id c → checkHeadControl s c = none → s.cell (c.p 0 1) = some x → x.head = some h →
        let b := Begun s c
        let n := c.p 0 1
        let ws := (if c.p 3 1 = 0xFF then List.range (cfAnt x.config) else [c.p 3 1]).map fun a => (a, c.p 16 4)
        (c.p 1 1 = 0 → exec (.opHeadControl id) s = .next ((b.setHead n x { h with
            pending := some [c.p 2 1, c.sp 4 2, c.p 6 1, c.p 7 1, c.p 8 1, c.p 9 1, c.p 10 1, c.p 12 4, c.sp 20 2] }).ok c.id []))
        ∧ (c.p 1 1 = 1 → exec (.opHeadControl id) s = .next (((b.setHead n x { h with manual := h.manual ++ ws }).sendManual n ws).ok c.id []))
        ∧ (c.p 1 1 = 2 → exec (.opHeadControl id) s = .next ((b.setHead n x { h with manualWord := some (c.sp 16 4) }).ok c.id []))
        ∧ (c.p 1 1 = 3 → exec (.opHeadControl id) s = .next (b.ok c.id (leBytes 1 (cfAnt x.config) ++ leBytes 1 (b2n h.frozen) ++ leBytes 2 0
            ++ leBytes 4 (BitVec.ofInt 32 h.freq).toNat ++ (List.range 8).flatMap fun i =>
              leBytes 1 (if c.p 3 1 + i < cfAnt x.config then h.gainAt (c.p 3 1 + i) s.sx.time else 0))))

/-! ### Time (17) -/

/-- Sexton (R364–R374). DOMAIN_CONFIG completes; DOMAIN_SELECT makes the output follow its domain: the first time by a step, from then on by a slew, told where the
output or the selection changes. Sync and Announce are heard by an enabled domain on a port that is up; three silent intervals lose it, and the output that
followed it goes over to the other locked domain where it may, else into holdover. A domain
locks with its 16th good Sync in a row, and is lost by one beyond its loss threshold. A trigger arms, fires when its time has come and ends at its count; a
disarmed one stays silent. A capture source takes the edges it is set for, 100 ns apart, 64 of them; CAPTURE_READ hands over and removes entries with what was
lost. TIME_READ answers one instant of the output. -/
def Obligations.Time : Prop :=
  (∀ s id c, Ready s 0x6001 id c → exec (.opDomainConfig id) s = .next ((Begun s c).ok c.id []))
    ∧ (∀ s id c, Ready s 0x6002 id c → checkDomainSelect s c = none →
        let u := { Begun s c with sx := { s.sx with auto := c.p 1 1 = 1, slewPpb := if c.p 2 2 = 0 then 100 else c.p 2 2 } }
        exec (.opDomainSelect id) s = .next ((u.follow (c.p 0 1) 0).ok c.id []))
    ∧ (∀ (s : State) (d cause : Nat),
        let x := s.sx
        let off := (x.dom d).offset
        let told := x.selected ≠ d ∨ x.out ≠ 1
        let u := { s with sx := { x with selected := d, out := 1, rate := (x.dom d).rate, slew := if off = 0 then none else some off } }
        let t := (x.time + off / sxUnit).toNat
        let v := { s with sx := { x with
          selected := d, out := 1, rate := (x.dom d).rate, slew := none, stepped := true, time := t, frac := 0
          doms := x.doms.map fun (y : Domain) => { y with offset := y.offset - off }
          triggers := x.triggers.map fun g => g.jump t } }
        (x.stepped = true → ¬ told → s.follow d cause = u)
        ∧ (x.stepped = true → told → s.follow d cause = u.sxNotice cause (off / sxUnit))
        ∧ (x.stepped = false → ¬ told → s.follow d cause = v)
        ∧ (x.stepped = false → told → s.follow d cause = v.sxNotice 3 0))
    ∧ (∀ (m : PtpMsg) (s : State), (s.sx.selected ≠ m.domain ∨ s.sx.out ≠ 1) →
        let x := s.dom m.domain
        let y := { x with heard := s.now, offset := m.offset * sxUnit, rate := m.rate }
        let u := s.setDom m.domain y
        (x.st = 3 → x.back.2 = true → s.syncMessage m = u.setDom m.domain (y.acquire s.now))
        ∧ (x.st = 3 → x.back.2 = false → s.syncMessage m = u.setDom m.domain { y with back := (true, false) })
        ∧ (x.st ≠ 3 → x.loss < m.filtered.natAbs → s.syncMessage m = u.toLost m.domain)
        ∧ (x.st = 1 → m.filtered.natAbs ≤ x.loss → x.lock ≤ m.filtered.natAbs → s.syncMessage m = u.setDom m.domain { y with good := 0 })
        ∧ (x.st = 1 → m.filtered.natAbs ≤ x.loss → m.filtered.natAbs < x.lock → x.good < 15 →
            s.syncMessage m = u.setDom m.domain { y with good := x.good + 1 })
        ∧ (x.st = 1 → m.filtered.natAbs ≤ x.loss → m.filtered.natAbs < x.lock → 15 ≤ x.good →
            s.syncMessage m = (u.setDom m.domain { y with st := 2, good := x.good + 1 }).lockDomain m.domain)
        ∧ (x.st = 2 → m.filtered.natAbs ≤ x.loss → s.syncMessage m = u))
    ∧ (∀ (m : PtpMsg) s, (1 < m.domain ∨ (s.dom m.domain).st = 0 ∨ s.subUp (s.dom m.domain).slave = false) → exec (.ptpMessage m) s = .next s)
    ∧ (∀ (m : PtpMsg) s, m.domain ≤ 1 → (s.dom m.domain).st ≠ 0 → s.subUp (s.dom m.domain).slave = true →
        (m.kind = .announce → exec (.ptpMessage m) s = .next (s.setDom m.domain { s.dom m.domain with
          heard := s.now, back := ((s.dom m.domain).back.1, (s.dom m.domain).back.2 || (s.dom m.domain).st = 3) }))
        ∧ (m.kind = .sync → exec (.ptpMessage m) s = .next (s.syncMessage m)))
    ∧ (∀ d s, let due := d ≤ 1 ∧ ((s.dom d).st = 1 ∨ (s.dom d).st = 2) ∧ (s.dom d).heard + msec 375 ≤ s.now
        (due → exec (.announceTimeout d) s = .next
          (((s.setDom d { s.dom d with st := 3, good := 0, back := (false, false) }).bump 0x08000028 1).loseDomain d))
        ∧ (¬ due → exec (.announceTimeout d) s = .next s))
    ∧ (∀ (s : State) (d : Nat), ((s.sx.out ≠ 1 ∨ s.sx.selected ≠ d) → s.loseDomain d = s)
        ∧ (s.sx.out = 1 → s.sx.selected = d → s.sx.auto = true → s.locked (1 - d) = true →
            s.loseDomain d = (s.bump 0x08000020 1).follow (1 - d) 1)
        ∧ (s.sx.out = 1 → s.sx.selected = d → (s.sx.auto = false ∨ s.locked (1 - d) = false) → s.loseDomain d =
            ({ s with sx := { s.sx with out := 2, slew := none } }.bump 0x08000030 1).sxNotice 1 0))
    ∧ (∀ s, s.sx.slew = some 0 → exec .slewEnd s = .next { s with sx := { s.sx with slew := none } })
    ∧ (∀ s, s.sx.slew ≠ some 0 → exec .slewEnd s = .next s)
    ∧ (∀ d n s, let sends := d ≤ 1 ∧ (s.dom d).st ≠ 0 ∧ (s.dom d).masters.testBit n = true ∧ s.subUp n = true
        (sends → exec (.syncTransmit d n) s = .next
          ({ s with sx := { s.sx with syncs := (d, n) :: s.sx.syncs } }.queueFrame n 0 64 (leBytes 12 0 ++ [0x88, 0xF7])))
        ∧ (¬ sends → exec (.syncTransmit d n) s = .next s))
    ∧ (∀ j s, let g := s.sx.trigger j
        ((g.armed = false ∨ s.sx.time < g.next) → exec (.triggerEdge j) s = .next s)
        ∧ (g.armed = true → g.next ≤ s.sx.time →
            let left := g.left.map (· - 1)
            let shown := s.sx.out ≠ 0 ∨ g.flags.testBit 1 = true
            exec (.triggerEdge j) s = .next (s.setTrigger j { g with
              edges := if shown then g.edges + 1 else g.edges, left := left, next := g.next + g.period
              until_ := if shown then g.next + g.width else g.until_, armed := decide (g.period ≠ 0 ∧ left ≠ some 0) })))
    ∧ (∀ src falling s, let x := NMap.get Capture.init s.sx.captures src
        let takes := src ≤ 4 ∧ x.edges.testBit (b2n falling) = true ∧ ∀ t, x.last = some t → t + 400 ≤ s.now
        let put (y : Capture) (r : State) : State := { r with sx := { r.sx with captures := NMap.set Capture.init r.sx.captures src y } }
        (takes → x.fifo.length < 64 → exec (.captureEdge src falling) s = .next (put { x with
          last := some s.now
          fifo := x.fifo ++ [(s.sx.time, (if falling then 1 else 0) + 2 * s.sx.out + 8 * b2n s.sx.slew.isSome, 0)] } s))
        ∧ (takes → 64 ≤ x.fifo.length → exec (.captureEdge src falling) s =
            .next (put { x with drops := min 0xFFFFFFFF (x.drops + 1) } (s.bump 0x08000038 1)))
        ∧ (¬ takes → exec (.captureEdge src falling) s = .next s))
    ∧ (∀ s id c, Ready s 0x6003 id c → checkTriggerSet s c = none →
        let g := s.sx.trigger (c.p 0 1)
        (c.p 1 1 = 1 → exec (.opTriggerSet id) s = .next (((Begun s c).setTrigger (c.p 0 1) { g with armed := false, until_ := 0 }).ok c.id []))
        ∧ (c.p 1 1 ≠ 1 → exec (.opTriggerSet id) s = .next (((Begun s c).setTrigger (c.p 0 1) {
            armed := true, flags := c.p 2 1, start := valueTime c.params 4, period := tsPeriod c, width := tsWidth c
            left := if c.p 28 4 = 0 then none else some (c.p 28 4), next := tsFirst c, edges := g.edges, until_ := g.until_ }).ok c.id [])))
    ∧ (∀ s id c, Ready s 0x6004 id c → checkCaptureRead s c = none →
        let src := c.p 0 1
        let x := NMap.get Capture.init s.sx.captures src
        let put (y : Capture) : State := { Begun s c with sx := { s.sx with captures := NMap.set Capture.init s.sx.captures src y } }
        let n := min (c.p 6 2) x.fifo.length
        let bs := (x.fifo.take n).flatMap captureEntry
        let u := put { x with fifo := x.fifo.drop n, drops := 0 }
        let result := leBytes 2 n ++ leBytes 2 (x.fifo.length - n) ++ leBytes 4 x.drops
        (c.p 1 1 = 1 → exec (.opCaptureRead id) s = .next
          ((put { x with edges := c.p 2 1, etherType := if 16 ≤ src then c.p 4 2 else 0, fifo := [] }).ok c.id []))
        ∧ (c.p 1 1 ≠ 1 → c.entry = .mgmt → exec (.opCaptureRead id) s = .next ((u.setCmd { begun s c with trailer := bs }).ok c.id result))
        ∧ (c.p 1 1 ≠ 1 → c.entry ≠ .mgmt → exec (.opCaptureRead id) s = .next ((u.dmaWrite c.fn (c.p 8 8) bs false).ok c.id result)))
    ∧ ∀ s id c, Ready s 0x6005 id c →
        let x := s.sx
        let b := if c.entry = Entry.vf then 0 else (x.dom 0).st + 4 * (x.dom 1).st + 16 * x.selected + 32 * b2n x.slew.isSome
        exec (.opTimeRead id) s = .next ((Begun s c).ok c.id (leBytes 6 (x.time / 4000000000) ++ leBytes 4 (x.time % 4000000000) ++ leBytes 2 0
          ++ leBytes 1 x.out ++ leBytes 1 b ++ leBytes 2 0))

/-! ### Ethernet (16) -/

/-- The network opcodes (R350–R361). PORT_CONFIG of a new mode puts the port's sub-ports back at reset and then gives each its settings; QUEUE_CONFIG binds or unbinds a
queue; SHAPER_CONFIG sets rate and burst and keeps the tokens that fit; POLICER_CONFIG sets a policer with both buckets full.
Frames (R351–R360). A frame that fails its check, is too short or long or carries two tags is counted and dropped; a good one is counted, captured, and then
PFC is obeyed, a frame with no room left is dropped, and any other is classified: time protocols stay, fronthaul of a cell is recorded, a tenant's frame
is policed and delivered, the rest is discarded and counted. PFC is repeated while the share stays above XON, and a pause ends at its time. Tallyman sends
the chosen queue's head, tagged time and buckets moved on; a ring's new frames join their queue; a link changes where its port is enabled and powered.
A packet the policer marks red, or yellow, is dropped or marked as it says. -/
def Obligations.NetworkAndFrames : Prop :=
  (
  (∀ s id c, Ready s 0x7001 id c → checkPortConfig s c = none →
      let p := c.p 0 1 / 4
      let b := Begun s c
      let u := if c.p 4 1 ≠ s.ethModeOf p then { (portNumbers p).foldl State.clearSub b with ethMode := NMap.set 0 s.ethMode p (c.p 4 1) } else b
      exec (.opPortConfig id) s = .next ((((portNumbers p).filter u.portExists).foldl (State.configureSub c) u).ok c.id []))
    ∧ (∀ (s : State) (c : Cmd) (n : Nat), c.p 6 1 = 1 → State.configureSub c s n = s.setSub n { s.sub n with
        enabled := true, mac := c.p 8 6, lossless := c.p 5 1, xoff := Nat.land (s.sub n).xoff (c.p 5 1)
        link := if (s.sub n).enabled then (s.sub n).link else 1 })
    ∧ (∀ (s : State) (c : Cmd) (n : Nat), c.p 6 1 ≠ 1 → State.configureSub c s n = (s.loseLink n).setSub n { (s.loseLink n).sub n with
        enabled := false, mac := c.p 8 6, lossless := c.p 5 1, xoff := 0, paused := 0, link := 0 })
    ∧ (∀ s id c, Ready s 0x7002 id c → checkQueueConfig s c = none →
        let n := c.p 0 1
        let q := c.p 1 1
        let b := Begun s c
        (c.p 4 1 = 0xFF → exec (.opQueueConfig id) s = .next ((b.unbindQueue n q).ok c.id []))
        ∧ (c.p 4 1 ≠ 0xFF → exec (.opQueueConfig id) s = .next ((b.setSub n ((s.sub n).setQueue q { (s.sub n).queue q with
            tenant := some (c.p 4 1), prio := c.p 5 1, weight := c.p 6 2, txRing := c.p 8 8, rxRing := c.p 16 8, entries := c.p 24 4
            vlan := c.p 28 2 })).ok c.id [])))
    ∧ (∀ s id c, Ready s 0x7003 id c → checkShaperConfig s c = none →
        let n := c.p 0 1
        let q := c.p 1 1
        let p := s.sub n
        let set (b : Bucket) : Bucket := { b.now s.now with rate := c.p 4 4, burst := c.p 8 4, level := min (b.now s.now).level (c.p 8 4 * 32000) }
        (q = 0xFF → exec (.opShaperConfig id) s = .next (((Begun s c).setSub n { p with shaper := set p.shaper }).ok c.id []))
        ∧ (q ≠ 0xFF → exec (.opShaperConfig id) s =
            .next (((Begun s c).setSub n (p.setQueue q { p.queue q with shaper := set (p.queue q).shaper })).ok c.id [])))
    ∧ ∀ s id c, Ready s 0x7004 id c → checkPolicerConfig s c = none →
        let n := c.p 0 1
        exec (.opPolicerConfig id) s = .next (((Begun s c).setSub n { s.sub n with policers := NMap.set none (s.sub n).policers (c.p 2 2) (some {
          cir := c.p 4 4, pir := c.p 8 4, cbs := c.p 12 4, pbs := c.p 16 4, aware := (c.p 20 1).testBit 0
          yellow := bits (c.p 20 1) 3 1, red := bits (c.p 20 1) 6 4, mark := c.p 21 1, tc := c.p 12 4 * 32000, tp := c.p 16 4 * 32000
          at_ := s.now }) }).ok c.id []))
  ∧ (
  (∀ (f : EthFrame) s, s.subUp f.port = false → exec (.ethernetFrameReceive f) s = .next s)
    ∧ (∀ (f : EthFrame) s, s.subUp f.port = true →
        let n := f.port
        let good := f.fcsOk = true ∧ 64 ≤ f.length ∧ f.length ≤ 9216 ∧ f.tags ≤ 1
        let u := ((s.bump (aTM n 0x020) 1).bump (aTM n 0x028) f.length).captureFrame n false f.etherType (fieldAt f.bytes (14 + 4 * f.tags) 2)
        let k := if f.tags = 0 then 0 else f.pcp % 8
        let p := u.sub n
        let full := p.sharedSize < p.ingress.foldl (fun a e => a + e.2) 0 + f.length
        (¬ good → exec (.ethernetFrameReceive f) s = .next (s.bump (aTM n 0x030) 1))
        ∧ (good → f.pfc ≠ [] → exec (.ethernetFrameReceive f) s = .next (u.pfcFrame f))
        ∧ (good → f.pfc = [] → full → p.lossless.testBit k = false → exec (.ethernetFrameReceive f) s =
            .next ((u.bump (aTM n 0x038) 1).drainShare n k))
        ∧ (good → f.pfc = [] → (¬ full ∨ p.lossless.testBit k = true) → exec (.ethernetFrameReceive f) s =
            .next (((u.setShare n k (NMap.get 0 p.ingress k + f.length)).classify f).drainShare n k)))
    ∧ (∀ (f : EthFrame) (s : State),
        let ptp := f.etherType = 0x88F7 ∨ (f.etherType = 0x8809 ∧ f.subtype = 0x0A)
        (ptp → s.classify f = s)
        ∧ (∀ c, ¬ ptp → s.frontCell f = some c → s.classify f = ((uplinkPayload f).map fun b => s.recordFronthaul c b).getD s)
        ∧ (¬ ptp → s.frontCell f = none → s.rxQueue f = none → s.classify f = s.bump (aTM f.port 0x040) 1)
        ∧ (∀ q, ¬ ptp → s.frontCell f = none → s.rxQueue f = some q →
            (∀ bs, (s.police f).2 = some bs → s.classify f = (s.police f).1.deliver f.port q bs)
            ∧ ((s.police f).2 = none → s.classify f = (s.police f).1)))
    ∧ (∀ (x : Policer) now n dei,
        let tp := refill x.tp x.pir x.pbs (now - x.at_)
        let tc := refill x.tc x.cir x.cbs (now - x.at_)
        (tp < n * 32000 → x.judge now n dei = (2, { x with tc := tc, tp := tp, at_ := now }))
        ∧ (n * 32000 ≤ tp → ((x.aware = true ∧ dei = true) ∨ tc < n * 32000) →
            x.judge now n dei = (1, { x with tc := tc, tp := tp - n * 32000, at_ := now }))
        ∧ (n * 32000 ≤ tp → ¬ (x.aware = true ∧ dei = true) → n * 32000 ≤ tc →
            x.judge now n dei = (0, { x with tc := tc - n * 32000, tp := tp - n * 32000, at_ := now })))
    ∧ (∀ n k s, let holds := s.subUp n = true ∧ k ≤ 7 ∧ (s.sub n).xoff.testBit k = true
        let u := s.drainShare n k
        (¬ holds → exec (.pfcRefresh n k) s = .next s)
        ∧ (holds → (u.sub n).xoff.testBit k = true → exec (.pfcRefresh n k) s = .next (u.bump (aTM n 0x060) 1))
        ∧ (holds → (u.sub n).xoff.testBit k = false → exec (.pfcRefresh n k) s = .next u))
    ∧ (∀ n k s, let due := k ≤ 7 ∧ (s.sub n).paused.testBit k = true ∧ NMap.get 0 (s.sub n).pauseEnd k ≤ s.now
        (due → exec (.pfcPauseExpiry n k) s = .next (s.setSub n { s.sub n with
          paused := (s.sub n).paused - 2 ^ k, pauseEnd := NMap.set 0 (s.sub n).pauseEnd k 0 }))
        ∧ (¬ due → exec (.pfcPauseExpiry n k) s = .next s))
    ∧ (∀ n s, (s.subUp n = false ∨ ∃ b, (s.sub n).busy = some b ∧ s.now < b.2) → exec (.frameTransmit n) s = .next s)
    ∧ (∀ n s, s.subUp n = true → (∀ b, (s.sub n).busy = some b → b.2 ≤ s.now) →
        let p := { s.sub n with busy := none }
        (p.choose s.now = none → exec (.frameTransmit n) s = .next (s.setSub n p))
        ∧ ∀ q f rest, p.choose s.now = some q → (p.queue q).frames = f :: rest →
            let x := p.queue q
            let lb := lineBytes f.length
            let p1 := p.setQueue q { x with frames := rest, shaper := x.shaper.debit s.now lb }
            let p2 := { p1 with v := f.tag, shaper := p1.shaper.debit s.now lb, busy := some (q, s.now + ceilDiv (32 * lb) (s.lineRate n))
                                sent := (q, f.length, f.poison) :: p1.sent }
            let u := ((s.setSub n p2).bump (aTM n 0x010) 1).bump (aTM n 0x018) f.length
            let v := if f.poison then u.bump (aTM n 0x058) 1 else u
            exec (.frameTransmit n) s = .next ((v.consumed x).captureFrame n true (frameType f.bytes).1 (frameType f.bytes).2))
    ∧ (∀ n q s, (((s.sub n).queue q).tenant = none ∨ s.portExists n = false ∨ 63 < q ∨ ((s.sub n).queue q).txRing = 0) →
        exec (.transmitRingPoll n q) s = .next s)
    ∧ (∀ n q s t prod cons, ((s.sub n).queue q).tenant = some t → s.portExists n = true → q ≤ 63 → ((s.sub n).queue q).txRing ≠ 0 →
        s.ringNum t ((s.sub n).queue q).txRing 0 4 = some prod → s.ringNum t ((s.sub n).queue q).txRing 4 4 = some cons →
        let x := (s.sub n).queue q
        let new := (prod + 2 ^ 33 - cons - x.frames.length) % 2 ^ 32
        new ≤ x.entries → exec (.transmitRingPoll n q) s = .next (s.setSub n ((s.fetchFrames t x.txRing x.entries new (cons + x.frames.length)).foldl
          (fun (p : SubPort) f => p.enqueue s.now q (f.1.length + 4) f.1 f.2) (s.sub n))))
    ∧ (∀ n q s t prod cons, ((s.sub n).queue q).tenant = some t → s.portExists n = true → q ≤ 63 → ((s.sub n).queue q).txRing ≠ 0 →
        s.ringNum t ((s.sub n).queue q).txRing 0 4 = some prod → s.ringNum t ((s.sub n).queue q).txRing 4 4 = some cons →
        ((s.sub n).queue q).entries < (prod + 2 ^ 33 - cons - ((s.sub n).queue q).frames.length) % 2 ^ 32 →
        exec (.transmitRingPoll n q) s = .next (s.setSub n (s.sub n)))
    ∧ (∀ n q s t, ((s.sub n).queue q).tenant = some t →
        (s.ringNum t ((s.sub n).queue q).txRing 0 4 = none ∨ s.ringNum t ((s.sub n).queue q).txRing 4 4 = none) →
        exec (.transmitRingPoll n q) s = .next s)
    ∧ (∀ (f : EthFrame) (s : State) k v, f.pfc = [(k, v)] → k ≤ 7 → s.pfcFrame f = (s.bump (aTM f.port 0x068) 1).pause f.port k v)
    ∧ (∀ (s : State) n k v, v ≠ 0 → s.pause n k v = s.setSub n { s.sub n with
        paused := if (s.sub n).paused.testBit k then (s.sub n).paused else (s.sub n).paused + 2 ^ k
        pauseEnd := NMap.set 0 (s.sub n).pauseEnd k (s.now + ceilDiv (2048 * v) (s.lineRate n)) })
    ∧ (∀ n up s, let acts := s.portExists n = true ∧ (s.sub n).enabled = true ∧ s.pw.on.testBit 16 = true
            ∧ (up = true ↔ (s.sub n).link ≠ 2) ∧ (up = true → s.pw.refLost.testBit 1 = false)
        (acts → exec (.ethernetLinkChange n up) s = .next (s.moveLink n up)) ∧ (¬ acts → exec (.ethernetLinkChange n up) s = .next s)))

/-! ### Signal cores (14) -/

/-- A job starts on an idle core that is present, powered and not quarantined, whose cluster has a program and is not halted, with its arguments in
P0 … P7, every other register 0 and the flags of its group cleared; else nothing happens. A job whose cycles are used up ends OVERTIME.
Every instruction of a signal core (R306–R320) that is the one at its job's program counter: its result, its flags, its stalls and where it goes;
one whose cycles go beyond the limit takes no effect and leaves the job no cycle, those it had counted; one that cannot be done faults with its cause. An
undefined word faults ILLEGAL. A core with no job does nothing. -/
def Obligations.SignalCores : Prop :=
  (
  (∀ n (j : Job) s,
      let can := n < 128 ∧ s.clusterOn (n / 16) = true ∧ (s.sc n).quarantined = false ∧ (s.sc n).job = none
        ∧ (s.cluster (n / 16)).loaded = true ∧ (s.cluster (n / 16)).halt = false ∧ j.entry < 64
      (can → exec (.jobStart n j) s = .next ((s.setCluster (n / 16) { s.cluster (n / 16) with
          flags := (s.cluster (n / 16)).flags &&& ~~~j.clears }).setSc n { s.sc n with job := some (ScRegs.start j), left := j.limit, entry := j.entry }))
      ∧ (¬ can → exec (.jobStart n j) s = .next s))
    ∧ (∀ (j : Job), (ScRegs.start j).pc = j.entry ∧ (ScRegs.start j).flg = 0 ∧ (ScRegs.start j).loops = [] ∧ (ScRegs.start j).stack = []
        ∧ (∀ i, rget (ScRegs.start j).d i = 0) ∧ (∀ i, (ScRegs.start j).accAt i = (0, 0))
        ∧ (∀ i, i < 8 → rget (ScRegs.start j).p i = j.args.getD i 0) ∧ ∀ i, rget (ScRegs.start j).m i = 0 ∧ rget (ScRegs.start j).l i = 0)
    ∧ ∀ n s, ((s.sc n).job.isSome = true → (s.sc n).left = 0 → exec (.jobCycleLimit n) s = .next (s.scFault n 9))
      ∧ ((s.sc n).job = none → exec (.jobCycleLimit n) s = .next s)
      ∧ ((s.sc n).left ≠ 0 → exec (.jobCycleLimit n) s = .next s))
  ∧ (
  ∀ (n : Nat) (w : Word) (s : State),
    let all : List Instr := [Instr.scMov n w, Instr.scCadd n w, Instr.scCsub n w, Instr.scCmul n w, Instr.scCmulj n w, Instr.scConj n w, Instr.scCneg n w,
        Instr.scSwap n w, Instr.scAddw n w, Instr.scSubw n w, Instr.scAndw n w, Instr.scOrw n w, Instr.scXorw n w, Instr.scShlh n w,
        Instr.scShrh n w, Instr.scShlw n w, Instr.scShrw n w, Instr.scMag2 n w, Instr.scMinw n w, Instr.scMaxw n w, Instr.scAccrd n
        w, Instr.scAbsh n w, Instr.scAccclr n w, Instr.scAccsh n w, Instr.scAccadd n w, Instr.scAccld n w, Instr.scCmac n w,
        Instr.scCmacj n w, Instr.scCmsu n w, Instr.scCmpy n w, Instr.scCpow n w, Instr.scNopm n w, Instr.scCmpw n w, Instr.scSfFir n
        w, Instr.scSfSearch n w, Instr.scLd n w, Instr.scSt n w, Instr.scLdil n w, Instr.scLdih n w, Instr.scMovr n w, Instr.scAddpi
        n w, Instr.scNop n w, Instr.scDone n w, Instr.scBr n w, Instr.scCall n w, Instr.scRet n w, Instr.scLoop n w, Instr.scLoopr n
        w, Instr.scBreak n w, Instr.scWaitf n w, Instr.scSetf n w, Instr.scClrf n w]
    ((s.sc n).job = none → ∀ i ∈ all, exec i s = .next s)
    ∧ ∀ r : ScRegs,
    ((s.sc n).job = some r → n ≤ 127 → (s.sc n).left ≠ 0 → (s.cluster (n / 16)).word r.pc = w → scKind w = none →
        ∀ i ∈ all, exec i s = .next (s.scFault n 1))
    ∧
    let goes (i : Instr) (o : State × ScRegs × Option Nat × Nat × Nat) : Prop :=
      (scCost r w o ≤ (s.sc n).left → exec i s = .next (s.scTaken n w r o))
        ∧ ((s.sc n).left < scCost r w o → exec i s = .next (s.scStopped n w r o))
    let seq (i : Instr) (k : Nat) (y : ScRegs) : Prop := ScIssues s n k w r → goes i (s, y, none, 0, 0)
    let faults (i : Instr) (e : Nat) : Prop := exec i s = .next (s.scFault n e)
    let a := rget r.d (fRa w)
    let b := rget r.d (fRb w)
    let k := wf w 8 5
    let ac := fAc w
    let t := fSat w 23
    let alu (i : Instr) (k : Nat) (y : Word × Bool) : Prop := seq i k ((r.result (fRd w) y.1 y.2 t).counted (y.2 && t))
    let accOp (i : Instr) (k : Nat) (x y : Int) : Prop := seq i k (r.accTo ac x y t)
    let mac (i : Instr) (k : Nat) (y : ScRegs) : Prop := ScIssues s n k w r →
      (∀ s1 r1 st, macLoads w s n r true = .ok (s1, r1, st) → goes i (s1, { r1 with acc := y.acc, flg := y.flg }, none, st, st))
        ∧ ∀ e, macLoads w s n r true = .error e → faults i e
    alu (.scMov n w) 0x00 (a, false)
      ∧ alu (.scCadd n w) 0x01 (packHalves t (wre a + wre b) (wim a + wim b))
      ∧ alu (.scCsub n w) 0x02 (packHalves t (wre a - wre b) (wim a - wim b))
      ∧ alu (.scCmul n w) 0x03 (packHalves t (shr (wre a * wre b - wim a * wim b) 15) (shr (wre a * wim b + wim a * wre b) 15))
      ∧ alu (.scCmulj n w) 0x04 (packHalves t (shr (wre a * wre b + wim a * wim b) 15) (shr (wim a * wre b - wre a * wim b) 15))
      ∧ alu (.scConj n w) 0x05 (packHalves t (wre a) (-wim a))
      ∧ alu (.scCneg n w) 0x06 (packHalves t (-wre a) (-wim a))
      ∧ alu (.scSwap n w) 0x07 (packHalves t (wim a) (wre a))
      ∧ alu (.scAddw n w) 0x08 (packWord t (a.toInt + b.toInt))
      ∧ alu (.scSubw n w) 0x09 (packWord t (a.toInt - b.toInt))
      ∧ alu (.scAndw n w) 0x0A (a &&& b, false)
      ∧ alu (.scOrw n w) 0x0B (a ||| b, false)
      ∧ alu (.scXorw n w) 0x0C (a ^^^ b, false)
      ∧ alu (.scShlh n w) 0x0D (packHalves t (wre a * 2 ^ k) (wim a * 2 ^ k))
      ∧ alu (.scShrh n w) 0x0E (packHalves t (shr (wre a) k) (shr (wim a) k))
      ∧ alu (.scShlw n w) 0x0F (packWord t (a.toInt * 2 ^ k))
      ∧ alu (.scShrw n w) 0x10 (packWord t (shr a.toInt k))
      ∧ alu (.scMag2 n w) 0x11 (BitVec.ofInt 32 (wre a * wre a + wim a * wim a), false)
      ∧ alu (.scMinw n w) 0x12 (packWord t (min a.toInt b.toInt))
      ∧ alu (.scMaxw n w) 0x13 (packWord t (max a.toInt b.toInt))
      ∧ alu (.scAccrd n w) 0x14 (packHalves t (narrow (r.accAt ac).1 (fSh w)) (narrow (r.accAt ac).2 (fSh w)))
      ∧ alu (.scAbsh n w) 0x1A (packHalves t ((wre a).natAbs : Nat) ((wim a).natAbs : Nat))
      ∧ accOp (.scAccclr n w) 0x15 0 0
      ∧ accOp (.scAccsh n w) 0x16 (accShift (fSh w) (r.accAt ac).1.toInt) (accShift (fSh w) (r.accAt ac).2.toInt)
      ∧ accOp (.scAccadd n w) 0x17 ((r.accAt ac).1.toInt + (r.accAt (Nat.xor ac 1)).1.toInt) ((r.accAt ac).2.toInt + (r.accAt (Nat.xor ac 1)).2.toInt)
      ∧ accOp (.scAccld n w) 0x18 (wre a * 32768) (wim a * 32768)
      ∧ mac (.scCmac n w) 64 (r.macTo w (· + ·) (macProducts w r false))
      ∧ mac (.scCmacj n w) 65 (r.macTo w (· + ·) (macProducts w r true))
      ∧ mac (.scCmsu n w) 66 (r.macTo w (· - ·) (macProducts w r false))
      ∧ mac (.scCmpy n w) 67 (r.macTo w (fun _ p => p) (macProducts w r false))
      ∧ mac (.scCpow n w) 69 (r.macTo w (· + ·) (cprod true (rget r.d (2 * wf w 24 22)) (rget r.d (2 * wf w 24 22)), cprod true (rget r.d (2 * wf w 24 22 + 1)) (rget r.d (2 * wf w 24 22 + 1))))
      ∧ mac (.scNopm n w) 70 r
      ∧ seq (.scCmpw n w) 0x19 { r with flg := (r.flg &&& 0xFFFFFFFC) ||| BitVec.ofNat 32 (b2n (a == b) + 2 * b2n (decide (a.toInt < b.toInt))) }
      ∧ (ScIssues s n 68 w r → r.sfmode = false →
          let p := wf w 2 1 + 4
          let d := (rget r.p p).toNat
          let y := s.scRead n d 4
          let f := cprod false (rget r.d (2 * wf w 24 22)) (BitVec.ofNat 32 y)
          let x := r.accAt (2 * wf w 26 26)
          let z := if fSat w 19 then r.accTo (2 * wf w 26 26) (x.1.toInt - f.1) (x.2.toInt - f.2) (fSat w 25)
            else r.accTo (2 * wf w 26 26) (x.1.toInt + f.1) (x.2.toInt + f.2) (fSat w 25)
          (∀ e, accessFault 2 d 4 = some e → faults (.scSfFir n w) e)
          ∧ (accessFault 2 d 4 = none → ptrUpdate (rget r.l p) (rget r.p p) 4 = none → faults (.scSfFir n w) 8)
          ∧ ∀ q s1 r1 st r2, accessFault 2 d 4 = none → ptrUpdate (rget r.l p) (rget r.p p) 4 = some q → accessFault 2 q.toNat 4 = none →
              macLoads w s n r false = .ok (s1, r1, st) → r.update p (if fSat w 0 then (rget r.m p).toInt else 4) = .ok r2 →
              (wf w 17 16 = 0 ∨ loadClash w = []) →
              let v := (s1.scWrite n q.toNat 4 y).sharedStall d
              let u := v.2.sharedStall q.toNat
              goes (.scSfFir n w) (u.2, { r1 with acc := z.acc, flg := z.flg, p := rset r1.p p (rget r2.p p) }.setD (wf w 6 3) (BitVec.ofNat 32 y),
                none, st + v.1 + u.1, st + v.1 + u.1))
      ∧ (ScIssues s n 68 w r → r.sfmode = true →
          let y := (r.search (fSat w 18) (fSat w 26) (rget r.d (2 * wf w 24 22))).search (fSat w 18) (fSat w 26) (rget r.d (2 * wf w 24 22 + 1))
          (∀ s1 r1 st, macLoads w s n r true = .ok (s1, r1, st) →
            goes (.scSfSearch n w) (s1, { r1 with best := y.best, bidx := y.bidx, icnt := y.icnt }, none, st, st))
          ∧ ∀ e, macLoads w s n r true = .error e → faults (.scSfSearch n w) e)
      ∧ (ScIssues s n 128 w r → (∀ e, lsAddress w r (lsSize w) = .error e → faults (.scLd n w) e)
          ∧ ∀ d r1, lsAddress w r (lsSize w) = .ok (d, r1) → (∀ e, accessFault 0 d (lsSize w) = some e → faults (.scLd n w) e)
            ∧ (accessFault 0 d (lsSize w) = none → goes (.scLd n w) ((s.sharedStall d).2,
                r1.load (wf w 25 22) (lsSize w) (s.scRead n d (lsSize w)), none, (s.sharedStall d).1, (s.sharedStall d).1)))
      ∧ (ScIssues s n 129 w r → (∀ e, lsAddress w r (lsSize w) = .error e → faults (.scSt n w) e)
          ∧ ∀ d r1, lsAddress w r (lsSize w) = .ok (d, r1) → (∀ e, accessFault 0 d (lsSize w) = some e → faults (.scSt n w) e)
            ∧ (accessFault 0 d (lsSize w) = none → goes (.scSt n w) ((s.sharedStall d).2.scWrite n d (lsSize w)
                ((rget r.d (wf w 25 22)).toNat + 2 ^ 32 * (if lsSize w = 8 then (rget r.d (wf w 25 22 + 1)).toNat else 0)),
                r1, none, (s.sharedStall d).1, (s.sharedStall d).1)))
      ∧ seq (.scLdil n w) 130 (r.setD (wf w 25 22) ((rget r.d (wf w 25 22) &&& 0xFFFF0000) ||| BitVec.ofNat 32 (wf w 15 0)))
      ∧ seq (.scLdih n w) 131 (r.setD (wf w 25 22) ((rget r.d (wf w 25 22) &&& 0xFFFF) ||| BitVec.ofNat 32 (65536 * wf w 15 0)))
      ∧ (ScIssues s n 132 w r → goes (.scMovr n w) ((movrRead s r (wf w 19 17) (wf w 16 13)).2,
          movrWrite r (wf w 26 24) (wf w 23 20) (movrRead s r (wf w 19 17) (wf w 16 13)).1, none, 0, 0))
      ∧ (ScIssues s n 133 w r → (∀ r1, r.update (wf w 21 19) (wfs w 15 0) = .ok r1 → goes (.scAddpi n w) (s, r1, none, 0, 0))
          ∧ ∀ e, r.update (wf w 21 19) (wfs w 15 0) = .error e → faults (.scAddpi n w) e)
      ∧ seq (.scNop n w) 192 r
      ∧ (ScIssues s n 193 w r → (scCost r w (s, r, some r.pc, 0, 0) ≤ (s.sc n).left →
            exec (.scDone n w) s = .next ((s.scIssued n w r (s, r, some r.pc, 0, 0)).scDone n))
          ∧ ((s.sc n).left < scCost r w (s, r, some r.pc, 0, 0) → exec (.scDone n w) s = .next (s.scStopped n w r (s, r, some r.pc, 0, 0))))
      ∧ (ScIssues s n 194 w r → (scCond r (wf w 25 22) = false → goes (.scBr n w) (s, r, none, 0, 0))
          ∧ (scCond r (wf w 25 22) = true → r.loops = [] → goes (.scBr n w) (s, r, some (wf w 13 0), 2, 0))
          ∧ ∀ l rest, scCond r (wf w 25 22) = true → r.loops = l :: rest →
              (l.1 ≤ wf w 13 0 → wf w 13 0 ≤ l.2.1 → goes (.scBr n w) (s, r, some (wf w 13 0), 2, 0))
              ∧ ((wf w 13 0 < l.1 ∨ l.2.1 < wf w 13 0) → faults (.scBr n w) 6))
      ∧ (ScIssues s n 195 w r → (8 ≤ r.stack.length → faults (.scCall n w) 7)
          ∧ (r.stack.length < 8 → goes (.scCall n w) (s, { r with stack := (r.pc + 1) % 16384 :: r.stack }, some (wf w 13 0), 2, 0)))
      ∧ (ScIssues s n 196 w r → (r.stack = [] → faults (.scRet n w) 7)
          ∧ ∀ i rest, r.stack = i :: rest → goes (.scRet n w) (s, { r with stack := rest }, some i, 2, 0))
      ∧ (let push (i : Instr) (m c : Nat) : Prop :=
            (c = 0 → goes i (s, r, some ((r.pc + m + 1) % 16384), 0, 0))
            ∧ (c ≠ 0 → 4 ≤ r.loops.length → faults i 5)
            ∧ (c ≠ 0 → r.loops.length < 4 → 16383 < r.pc + m → faults i 6)
            ∧ (c ≠ 0 → r.loops.length < 4 → r.pc + m ≤ 16383 → goes i (s, { r with loops := (r.pc + 1, r.pc + m, c) :: r.loops }, some (r.pc + 1), 0, 0));
          (ScIssues s n 197 w r → push (.scLoop n w) (wf w 25 16 + 1) (wf w 15 0))
          ∧ (ScIssues s n 198 w r → push (.scLoopr n w) (wf w 25 16 + 1) ((rget r.d (wf w 3 0)).toNat % 65536)))
      ∧ (ScIssues s n 199 w r → ∀ l rest, r.loops = l :: rest → goes (.scBreak n w) (s, { r with loops := rest }, some ((l.2.1 + 1) % 16384), 2, 0))
      ∧ (ScIssues s n 200 w r → ((s.cluster (n / 16)).flags.getLsbD (wf w 4 0) = true → goes (.scWaitf n w) (s, r, none, 0, 0))
          ∧ ((s.cluster (n / 16)).flags.getLsbD (wf w 4 0) = false → goes (.scWaitf n w) (s, r, some r.pc, 0, 0)))
      ∧ (ScIssues s n 201 w r → goes (.scSetf n w) (s.setCluster (n / 16) { s.cluster (n / 16) with
            flags := (s.cluster (n / 16)).flags ||| BitVec.ofNat 32 (2 ^ wf w 4 0) }, r, none, 0, 0))
      ∧ (ScIssues s n 202 w r → goes (.scClrf n w) (s.setCluster (n / 16) { s.cluster (n / 16) with
            flags := (s.cluster (n / 16)).flags &&& ~~~(BitVec.ofNat 32 (2 ^ wf w 4 0)) }, r, none, 0, 0)))

/-! ### Engines (15) -/

/-- Items of the engines (R326–R339). An engine that is absent, off or withdrawn takes nothing. A descriptor outside its table ends status 3; one whose
memory cannot be read, 2; else the outputs are written, the counters count, and status 1, the summary and the completion flag are set. A failure
counts and is logged. What is read is in a cluster's shared memory, or in an object of the physical function. What each of the eight kinds writes is said by its own clause:
an FFT its symbols and exponents, a map its points, a demap its soft bits and EVM sums (where no two nearest points of an element differ in
energy), a coder or decoder its block, a detector its detections to the cell. A summary the spec does not state is any of its width (log 4). -/
def Obligations.Engines : Prop :=
  (∀ (s : State) (e : Nat),
    let item (i : Instr) (lo hi : Nat) (h : DescHdr) (ok : Bool) (b : Except Nat (State × Nat)) : Prop :=
      (s.engineReady e lo hi = false → exec i s = .next s)
        ∧ (s.engineReady e lo hi = true → (hdrOk h = false ∨ ok = false) → exec i s = .next (s.itemFault e h 3))
        ∧ (s.engineReady e lo hi = true → hdrOk h = true → ok = true → h.memError = true → exec i s = .next (s.itemFault e h 2))
        ∧ (s.engineReady e lo hi = true → hdrOk h = true → ok = true → h.memError = false →
            (∀ st, b = .error st → exec i s = .next (s.itemFault e h st))
            ∧ ∀ t n, b = .ok (t, n) → exec i s = .next (t.itemDone e h 1 n))
    (∀ d : FftDesc, item (.fftIfft e d) 0 15 d.hdr (fftOk d) (fftBody d s))
    ∧ (∀ d : MapDesc, item (.map e d) 30 33 d.hdr (mapOk d) (mapBody d s) ∧ item (.demap e d) 30 33 d.hdr (mapOk d) (demapBody d s))
    ∧ (∀ d : LdpcDesc, item (.ldpcDecode e d) 16 23 d.hdr (ldpcOk d && decide (1 ≤ d.maxIter ∧ d.maxIter ≤ 25)) (ldpcDecodeBody d s)
        ∧ item (.ldpcEncode e d) 24 27 d.hdr (ldpcOk d && decide ((crcPoly (if d.tbCrc then d.crcType else 0)).1 < d.k - d.filler))
            (ldpcEncodeBody d s))
    ∧ (∀ d : PolarDesc, item (.polarEncode e d) 28 29 d.hdr (polarOk d) (polarEncodeBody d s)
        ∧ item (.polarDecode e d) 28 29 d.hdr (polarOk d && [1, 2, 4, 8].contains d.list) (polarDecodeBody d s))
    ∧ ∀ d : PrachDesc, item (.prach e d) 34 35 d.hdr (prachOk d) (prachBody d s))
    ∧ (∀ (s : State) a n k o, engineShared a = some (k, o) →
        (4194304 < o + n → engineRead s a n = .error 3)
        ∧ (o + n ≤ 4194304 → s.clusterOn k = false → engineRead s a n = .error 2)
        ∧ (o + n ≤ 4194304 → s.clusterOn k = true → engineRead s a n = .ok (Memory.readN (s.cluster k).shared o n)))
    ∧ (∀ (s : State) a n, engineShared a = none →
        (s.obj 0 (refHandle a) = none → engineRead s a n = .error 3)
        ∧ ∀ x, s.obj 0 (refHandle a) = some x →
            (x.size < refOff a + n → engineRead s a n = .error 3)
            ∧ (refOff a + n ≤ x.size → ((s.readRef 0 0 a 0 n).fail.isSome = true ∨ (s.readRef 0 0 a 0 n).poison = true) → engineRead s a n = .error 2)
            ∧ (refOff a + n ≤ x.size → (s.readRef 0 0 a 0 n).fail = none → (s.readRef 0 0 a 0 n).poison = false →
                engineRead s a n = .ok (s.readRef 0 0 a 0 n).bytes))
    ∧ (∀ (s : State) (d : MapDesc) els bs t, readMap d s = .ok els →
        engineRead s d.input (ceilDiv (els.foldl (fun a e => a + qmOf e.2.2.1) 0) 8) = .ok bs →
        putPoints d.output (mapPoints els (itemBits bs)) s = .ok t → mapBody d s = .ok (t, els.length))
    ∧ (∀ (s : State) (d : MapDesc) els rs t u e, readMap d s = .ok els → els.mapM (demapOne d s) = .ok rs →
        (∀ r ∈ rs, ∀ x ∈ r.2.2, x = r.2.2.headD 0) → e = rs.foldl (fun a r => a + r.2.2.headD 0) 0 →
        engineWrite { s with free := s.free + 1 } d.output (rs.flatMap fun r => r.1.map fun v => BitVec.ofInt 8 v) = .ok t →
        engineWrite t d.evmSums (leBytes 8 (rs.foldl (fun a r => a + r.2.1) 0) ++ leBytes 8 e) = .ok u →
        demapBody d s = .ok (u, els.length))
    ∧ (∀ (s : State) (d : LdpcDesc) bs t,
        let k := if d.tbCrc then d.crcType else 0
        let n := d.k - d.filler - (crcPoly k).1
        let info := (itemBits bs).take n
        let sys := info ++ crcBits k info ++ List.replicate d.filler false
        let code := (sys ++ Config.ldpcParity d.bg d.z sys).drop (2 * d.z)
        engineRead s d.input (ceilDiv n 8) = .ok bs →
        engineWrite { s with free := s.free + 1 } d.output (bytesOfBits ((ratePlaces d).map fun p => code.getD p false)) = .ok t →
        ∃ x, x < 2 ^ 24 ∧ ldpcEncodeBody d s = .ok (t, x))
    ∧ (∀ (s : State) (d : PolarDesc) bs t,
        let info := (itemBits bs).take (d.k - d.crcBits)
        let out := Config.polarEncode (polarNums d) (info ++ crcBits (polarCrc d) (polarSpan d info))
        engineRead s d.input (ceilDiv (d.k - d.crcBits) 8) = .ok bs →
        engineWrite { s with free := s.free + 1 } d.output (bytesOfBits (out.take d.e)) = .ok t →
        ∃ x, x < 2 ^ 24 ∧ polarEncodeBody d s = .ok (t.bump (aWE 0x038) 1, x))
    ∧ (∀ (s : State) (d : PolarDesc) bs t,
        let paths := Config.polarPaths (polarNums d ++ [d.list]) (bytesSigned bs)
        let good := bestPath (paths.filter fun p => crcOk (polarCrc d) (polarSpan d p.1))
        let out := (((good <|> bestPath paths).map Prod.fst).getD []).take (d.k - d.crcBits)
        let u := t.bump (aWE 0x038) 1
        engineRead s d.input d.e = .ok bs → engineWrite { s with free := s.free + 1 } d.output (bytesOfBits out) = .ok t →
        (good.isSome = true → polarDecodeBody d s = .ok (u, 0))
        ∧ (good = none → ∃ x, 0 < x ∧ x < 256 ∧ polarDecodeBody d s = .ok (u.bump (aWE 0x040) 1, x)))
    ∧ (∀ (s : State) (d : PrachDesc) bs, engineRead s d.input (4 * d.lra * d.antennas * d.repetitions) = .ok bs →
        let found := if s.slotUnheard d.hdr then [] else prachDetect d bs
        let item (f : Nat × Nat × Nat × Nat × Nat) : List Nat := [d.hdr.cell, d.hdr.sfn, d.hdr.slot, f.1, timingAdvance d f.2.1,
          (BitVec.ofInt 32 (Config.deciBel f.2.2.1 1)).toNat, (BitVec.ofInt 32 (Config.deciBel (f.2.2.1 * f.2.2.2.2) f.2.2.2.1)).toNat]
        let told (u : State) : Prop := ∃ x, x < 2 ^ 24 ∧ prachBody d s = .ok (({ u with free := u.free + 1 }.bump (aWE 0x048) 1).bump (aWE 0x050)
          found.length, x)
        (∀ x, s.cell d.hdr.cell = some x → told (s.setCell d.hdr.cell (some { x with rach := x.rach ++ found.map item })))
        ∧ (s.cell d.hdr.cell = none → told s))
    ∧ (∀ (s : State) (d : FftDesc) bs t u,
        let per := if d.flags.testBit 0 then d.nsc else d.cp + fftSize d.size
        let ys := ((List.range d.symbols).map fun i => toSamples ((bs.drop (4 * per * i)).take (4 * per))).map (fftSymbol d)
        engineRead s d.input (4 * per * d.symbols) = .ok bs →
        engineWrite s d.output (ys.flatMap fun y => fromSamples y.1) = .ok t →
        engineWrite t d.exponents (ys.map fun y => BitVec.ofNat 8 y.2.1) = .ok u →
        fftBody d s = .ok ((u.bump (aWE 0x010) d.symbols).bump (aWE 0x018) (ys.foldl (fun a y => a + y.2.2) 0), ys.countP fun y => y.2.2 ≠ 0))
    ∧ (∀ (s : State) (d : LdpcDesc) bs hb t u,
        let new := dematch d (bytesSigned bs)
        let buf := (List.range d.ncb).map fun p => sat7 (NMap.get 0 new p + (bytesSigned hb).getD p 0)
        let put (m : NMap Int) (p : Nat) (v : Int) : NMap Int := NMap.set 0 m (2 * d.z + p) v
        let l0 := (List.range d.ncb).foldl (fun m p => put m p (buf.getD p 0)) []
        let l1 := (List.range d.filler).foldl (fun m i => put m (d.k - d.filler - 2 * d.z + i) 127) l0
        let r := decodeLoop d d.maxIter (l1, []) 0
        let info := (List.range (d.k - d.filler)).map (hardBit r.1)
        let v := (u.bump (aWE 0x020) 1).bump (aWE 0x028) r.2.1
        engineRead s d.input d.e = .ok bs →
        (d.combine = true → engineRead s d.harq d.ncb = .ok hb) → (d.combine = false → hb = []) →
        (d.writeback = true → engineWrite s d.harq (buf.map fun v => BitVec.ofInt 8 v) = .ok t) → (d.writeback = false → t = s) →
        engineWrite t d.output (bytesOfBits info) = .ok u →
        ((r.2.2 && crcOk d.crcType info) = true → ldpcDecodeBody d s = .ok (v, r.2.1 + 128))
        ∧ ((r.2.2 && crcOk d.crcType info) = false → ldpcDecodeBody d s = .ok (v.bump (aWE 0x030) 1, r.2.1)))
    ∧ (∀ (q : List Int) i, i < q.length →
        let mag (j : Nat) : Nat := min (q.getD j 0).natAbs 127
        let sgn (j : Nat) : Int := if q.getD j 0 < 0 then -1 else 1
        (checkNode q).length = q.length
        ∧ (checkNode q).getD i 0 = sgn i * ((List.range q.length).map sgn).foldl (· * ·) 1
            * ((leastOf (((List.range q.length).filter (· ≠ i)).map mag) - 1 : Nat) : Int))
    ∧ (∀ (h : DescHdr) (s : State) (e st : Nat), s.itemFault e h st = (((s.itemDone e h st 0).bump (aWE 0x060) 1).pulse 29).addLog
        { LogRec.none_ with cls := 8, outcome := 1, island := engineIsland e, domain := 14, flags := 2, detail := e })
    ∧ ∀ (h : DescHdr) (s : State) (n st x : Nat), (s.itemDone n h st x).engineStatus = NMap.set (0, 0) s.engineStatus n (st, x)
        ∧ (NMap.wf Cluster.init s.clusters = true → ((s.itemDone n h st x).cluster (h.flag / 32)).flags.getLsbD (h.flag % 32) = true)

/-! ### Reliability (19) -/

/-- The error log, forced checking, scrubbing, injection, the quarantine record and the watchdogs (R18, R402–R408). ERROR_LOG_READ writes the records
wanted in sequence order and tells how many, what was overwritten and where to go on. CHECK_CONFIG sets FORCE and the period, 0 being 24
hours. SCRUB reads every line of the dies named and answers channels, controllers and errors met, PARTIAL where some parts failed. INJECT arms the
fault of its kind. A watchdog restarts its control core, which is logged; the packet of a restarted Steward core ends NO_RESOURCES 0x0F. -/
def Obligations.Reliability : Prop :=
  (∀ s id c, Ready s 0x8001 id c → checkErrorLogRead s c = none →
      let b := Begun s c
      let rs := elRecords b c
      exec (.opErrorLogRead id) s = .next ((b.writeBlock (begun s c) (c.p 16 8) (rs.flatMap logBytes)).ok c.id
        (leBytes 2 rs.length ++ leBytes 2 0 ++ leBytes 4 (min s.rel.lost (elFirst s c - 1)) ++ leBytes 8 (elNext b c rs))))
    ∧ (∀ (s : State) (c : Cmd), (elRecords s c).length ≤ c.p 8 2
        ∧ ∀ r ∈ elRecords s c, elFirst s c ≤ r.seq ∧ (c.entry = .vf → r.tenant = c.tenant ∧ r.island = 0 ∧ r.domain = 0))
    ∧ (∀ (r : LogRec), (logBytes r).length = 64 ∧ fieldAt (logBytes r) 0 8 = r.seq % 2 ^ 64 ∧ fieldAt (logBytes r) 16 1 = r.cls % 256)
    ∧ (∀ s id c, Ready s 0x8002 id c → checkCheckConfig s c = none →
        let h := if c.p 2 2 = 0 then 24 else c.p 2 2
        exec (.opCheckConfig id) s = .next ({ Begun s c with rel := { s.rel with force := c.p 0 2, period := h } }.ok c.id
          (leBytes 2 (c.p 0 2) ++ leBytes 2 h)))
    ∧ (∀ s id c, Ready s 0x8003 id c → checkScrub s c = none →
        let b := Begun s c
        let dies := scrubDies s c
        let bad := scrubFailed b dies
        let lines := scrubLines b dies
        let u := lines.foldl (fun s e => patrolScrub e.1 e.2.1 e.2.2.1 .clean s) b
        let res := leBytes 4 (bad.foldl (fun m i => m + 2 ^ i) 0) ++ leBytes 2 (if s.variant.west then 32 else 16) ++ leBytes 2 0
          ++ leBytes 4 (lines.countP fun e => e.2.2.2 = 1) ++ leBytes 4 (lines.countP fun e => e.2.2.2 = 2)
        (bad = [] → exec (.opScrub id) s = .next (u.ok c.id res))
        ∧ (bad ≠ [] → bad.length < 16 * popCount 2 dies → exec (.opScrub id) s = .next (u.finish c.id stPartial res))
        ∧ (bad ≠ [] → 16 * popCount 2 dies ≤ bad.length → ∃ st, st < 65536 ∧
            exec (.opScrub id) s = .next ({ u with free := u.free + 1 }.finish c.id st res)))
    ∧ (∀ s id c, Ready s 0x8004 id c → checkInject s c = none →
        let b := Begun s c
        let k := c.p 2 2
        let n := c.p 1 1
        let x := b.core k
        let key := c.p 4 1 * 2 ^ 64 + refHandle (c.p 8 8) * 2 ^ 34 + refOff (c.p 8 8) / 64
        let gives (u : State) : Prop := exec (.opInject id) s = .next (u.ok c.id [])
        (c.p 0 1 = 1 → gives (b.setCore k { x with scratchErr := NMap.set 0 x.scratchErr (c.p 8 8) 1 }))
        ∧ (c.p 0 1 = 2 → gives (b.setCore k { x with scratchErr := NMap.set 0 x.scratchErr (c.p 8 8) 2 }))
        ∧ (c.p 0 1 = 3 → gives { b with rel := { b.rel with dram := NMap.set 0 b.rel.dram key 1 } })
        ∧ (c.p 0 1 = 4 → gives { b with rel := { b.rel with dram := NMap.set 0 b.rel.dram key 2 } })
        ∧ (c.p 0 1 = 5 → gives (b.setCore k { x with inject := (n, x.inject.2) }))
        ∧ (c.p 0 1 = 6 → gives (b.setCore k { x with inject := (x.inject.1, n, x.inject.2.2) }))
        ∧ (c.p 0 1 = 7 → gives (b.setCore k { x with inject := (x.inject.1, x.inject.2.1, n) }))
        ∧ (c.p 0 1 = 8 → gives { b with rel := { b.rel with wfPoison := NMap.set 0 b.rel.wfPoison k n } })
        ∧ (c.p 0 1 = 9 → gives { b with rel := { b.rel with pciePoison := n } }))
    ∧ (∀ s id c, Ready s 0x8005 id c → checkQuarantineQuery s c = none →
        exec (.opQuarantineQuery id) s = .next (((Begun s c).writeBlock (begun s c) (c.p 0 8) c.trailer).ok c.id []))
    ∧ (∀ (s : State) (c : Cmd), quarantineAccepted s c = s.setCmd { c with trailer := s.quarantineRecord } ∧ s.quarantineRecord.length = 64)
    ∧ (∀ d s,
        let acts := s.stewardRuns = true ∧ s.variant.domainPresent d = true ∧ s.pw.on.testBit d = true ∧ NMap.get none s.rel.clerkDown d = none
        (acts → exec (.clerkWatchdog d) s = .next ({ s with rel := { s.rel with clerkDown := NMap.set none s.rel.clerkDown d (some ([], [])) } }.logRecord
          { LogRec.none_ with cls := 9, outcome := 0, island := 221, domain := d }))
        ∧ (¬ acts → exec (.clerkWatchdog d) s = .next s))
    ∧ (∀ k s,
        (s.stewardRuns = true → s.clusterOn k = true → exec (.controlCoreWatchdog k) s = .next ((s.completeOwned (4 + k)).logRecord
          { LogRec.none_ with cls := 6, outcome := 0, island := 176 + k, domain := clusterDomain k, flags := 2, detail := k }))
        ∧ ((s.stewardRuns = false ∨ s.clusterOn k = false) → exec (.controlCoreWatchdog k) s = .next s))
    ∧ ∀ k s,
        let u := (s.completeOwned k).logRecord { LogRec.none_ with cls := 9, outcome := 0, island := 219 + k / 2, domain := 18 }
        ((4 ≤ k ∨ s.stewardRuns = false) → exec (.stewardWatchdog k) s = .next s)
        ∧ (k < 4 → s.stewardRuns = true → s.interpreted k = none → exec (.stewardWatchdog k) s = .next u)
        ∧ (∀ c, k < 4 → s.stewardRuns = true → s.interpreted k = some c → c.opcode = 0x0001 →
            exec (.stewardWatchdog k) s = .next (u.ok c.id c.result))
        ∧ ∀ c, k < 4 → s.stewardRuns = true → s.interpreted k = some c → c.opcode ≠ 0x0001 →
            exec (.stewardWatchdog k) s = .next (u.finish c.id stNoResources [0x0F])

/-- STEP_READ (R413): no parameters, a 32-byte packet, a context named, entries P and V; it completes when it runs, with the step counter in result
bytes 0–7 and the context seed in bytes 8–15. -/
def Obligations.StepRead : Prop :=
  (∀ s id c, Ready s 0x9005 id c → exec (.opStepRead id) s = .next ((Begun s c).ok c.id
      (leBytes 8 (s.ctx c.tenant c.ctx).step.toNat ++ leBytes 8 (s.ctx c.tenant c.ctx).seed.toNat)))
    ∧ (∀ e, paramLen 0x9005 e = 0) ∧ lenVaries 0x9005 = false ∧ packetLen 0 0 = 32 ∧ scopeC 0x9005 = true
    ∧ ∀ e, entryAllowed 0x9005 e = true ↔ (e = .pf ∨ e = .vf)

/-- Check 9 of a dead context (R58): CONTEXT_CLOSE and CONTEXT_RESET pass it, at acceptance and at their start; they still fail it with reason 1 on a
context that is closed or closing, and with reason 2 on one the tenant does not have. -/
def Obligations.DeadContextCheck : Prop :=
  ∀ (s : State) (t c op : Nat), op = 0x0006 ∨ op = 0x0007 →
    (c < (s.tenant t).contexts →
      ((s.ctx t c).st = .dead → s.contextCheck op t c = none)
      ∧ (((s.ctx t c).st = .closed ∨ (s.ctx t c).st = .closing) → s.contextCheck op t c = failWith stContextDead 1))
    ∧ ((s.tenant t).contexts ≤ c → s.contextCheck op t c = failWith stContextDead 2)
    ∧ ∀ d : Cmd, d.opcode = op → (s.ctx d.tenant d.ctx).st = .dead → s.contextAtStart d = none
end

