-- ==== Sys2Proof/Laws/Memory.lean ====
section
/-! SUPPORT. Keyed maps and byte memories: what a read gives after a write, and that every operation keeps the canonical form. -/
namespace Sys2Proof

namespace NMap
variable {α : Type}

/-- A rising list of keys above `i` is rising above any smaller bound, and without one. -/
theorem sorted_weaken {m : NMap α} {i j : Nat} (h : sortedFrom (some j) m = true) (hij : i ≤ j) : sortedFrom (some i) m = true := by
  cases m with
  | nil => rfl
  | cons e m => simp only [sortedFrom, Bool.and_eq_true, decide_eq_true_eq] at h ⊢; exact ⟨by omega, h.2⟩

theorem sorted_none {m : NMap α} {j : Nat} (h : sortedFrom (some j) m = true) : sortedFrom none m = true := by
  cases m with
  | nil => rfl
  | cons e m => simp only [sortedFrom, Bool.and_eq_true] at h ⊢; exact h.2

theorem sorted_tail {e : Nat × α} {m : NMap α} {lo : Option Nat} (h : sortedFrom lo (e :: m) = true) : sortedFrom (some e.1) m = true := by
  cases lo with
  | none => exact h
  | some i => simp only [sortedFrom, Bool.and_eq_true] at h; exact h.2

/-- A key at or below the bound is not listed. -/
theorem get_below {d : α} {m : NMap α} {j k : Nat} (h : sortedFrom (some j) m = true) (hk : k ≤ j) : get d m k = d := by
  cases m with
  | nil => rfl
  | cons e m => simp only [sortedFrom, Bool.and_eq_true, decide_eq_true_eq] at h; simp only [get]; rw [if_neg (by omega), if_pos (by omega)]

theorem put_sorted {k : Nat} {v : α} {m : NMap α} : ∀ {lo : Option Nat}, sortedFrom lo m = true → (∀ i, lo = some i → i < k) →
    sortedFrom lo (put k v m) = true := by
  induction m with
  | nil =>
    intro lo _ hlo
    cases lo with
    | none => rfl
    | some i => simp [put, sortedFrom, hlo i rfl]
  | cons e m ih =>
    intro lo h hlo
    obtain ⟨j, w⟩ := e
    have ht := sorted_tail h
    have up : ∀ x : NMap α, sortedFrom (some j) x = true → sortedFrom lo ((j, w) :: x) = true := by
      intro x hx
      cases lo with
      | none => exact hx
      | some i => simp only [sortedFrom, Bool.and_eq_true] at h ⊢; exact ⟨h.1, hx⟩
    have atK : ∀ x : NMap α, sortedFrom (some k) x = true → sortedFrom lo ((k, v) :: x) = true := by
      intro x hx
      cases lo with
      | none => exact hx
      | some i => simp only [sortedFrom, Bool.and_eq_true, decide_eq_true_eq]; exact ⟨hlo i rfl, hx⟩
    simp only [put]
    split
    · exact atK _ (by simp only [sortedFrom, Bool.and_eq_true, decide_eq_true_eq]; exact ⟨by assumption, ht⟩)
    · split
      · next hk => subst hk; exact atK _ ht
      · exact up _ (ih ht (fun i hi => by cases hi; omega))

theorem del_sorted {k : Nat} {m : NMap α} : ∀ {lo : Option Nat}, sortedFrom lo m = true → sortedFrom lo (del k m) = true := by
  induction m with
  | nil => intro lo h; exact h
  | cons e m ih =>
    intro lo h
    obtain ⟨j, w⟩ := e
    have ht := sorted_tail h
    simp only [del]
    split
    · cases lo with
      | none => exact sorted_none ht
      | some i => simp only [sortedFrom, Bool.and_eq_true, decide_eq_true_eq] at h; exact sorted_weaken ht (Nat.le_of_lt h.1)
    · split
      · exact h
      · cases lo with
        | none => exact ih ht
        | some i => simp only [sortedFrom, Bool.and_eq_true] at h ⊢; exact ⟨h.1, ih ht⟩

theorem filter_sorted {p : Nat × α → Bool} {m : NMap α} : ∀ {lo : Option Nat}, sortedFrom lo m = true → sortedFrom lo (m.filter p) = true := by
  induction m with
  | nil => intro lo h; exact h
  | cons e m ih =>
    intro lo h
    have ht := sorted_tail h
    rw [List.filter_cons]
    split
    · cases lo with
      | none => exact ih ht
      | some i => simp only [sortedFrom, Bool.and_eq_true] at h ⊢; exact ⟨h.1, ih ht⟩
    · cases lo with
      | none => exact sorted_none (ih ht)
      | some i => simp only [sortedFrom, Bool.and_eq_true, decide_eq_true_eq] at h; exact sorted_weaken (ih ht) (Nat.le_of_lt h.1)

theorem mem_put {k : Nat} {v : α} {m : NMap α} {e : Nat × α} (h : e ∈ put k v m) : e = (k, v) ∨ e ∈ m := by
  induction m with
  | nil => simpa [put] using h
  | cons x m ih =>
    simp only [put] at h
    split at h
    · simpa using h
    · split at h
      · rcases List.mem_cons.1 h with h | h
        · exact .inl h
        · exact .inr (List.mem_cons_of_mem _ h)
      · rcases List.mem_cons.1 h with h | h
        · exact .inr (h ▸ List.mem_cons_self ..)
        · exact (ih h).imp id (List.mem_cons_of_mem _)

theorem mem_del {k : Nat} {m : NMap α} {e : Nat × α} (h : e ∈ del k m) : e ∈ m := by
  induction m with
  | nil => exact h
  | cons x m ih =>
    simp only [del] at h
    split at h
    · exact List.mem_cons_of_mem _ h
    · split at h
      · exact h
      · rcases List.mem_cons.1 h with h | h
        · exact h ▸ List.mem_cons_self ..
        · exact List.mem_cons_of_mem _ (ih h)

theorem get_put {d : α} {m : NMap α} {k : Nat} {v : α} (x : Nat) : ∀ {lo : Option Nat}, sortedFrom lo m = true →
    get d (put k v m) x = if x = k then v else get d m x := by
  induction m with
  | nil => intro _ _; simp only [put, get]; split <;> simp
  | cons e m ih =>
    intro lo h
    obtain ⟨j, w⟩ := e
    have ht := sorted_tail h
    simp only [put]
    split
    · simp only [get]
      by_cases h1 : x = k
      · simp [h1]
      · rw [if_neg h1, if_neg h1]
        by_cases h2 : x < k
        · rw [if_pos h2, if_neg (by omega), if_pos (by omega)]
        · rw [if_neg h2]
    · split
      · next hk => subst hk; simp only [get]; split <;> rfl
      · simp only [get]; rw [ih ht]
        by_cases h1 : x = j
        · subst h1; rw [if_pos rfl, if_pos rfl, if_neg (by omega)]
        · rw [if_neg h1, if_neg h1]
          by_cases h2 : x = k
          · subst h2; rw [if_pos rfl, if_pos rfl, if_neg (by omega)]
          · rw [if_neg h2, if_neg h2]

/-- What was put is read back, in any map. -/
theorem get_put_self {d : α} {m : NMap α} {k : Nat} {v : α} : get d (put k v m) k = v := by
  induction m with
  | nil => simp [put, get]
  | cons e m ih =>
    simp only [put]
    split
    · simp [get]
    · split
      · simp [get]
      · next h1 h2 => simp only [get]; rw [if_neg h2, if_neg (by omega), ih]

theorem get_del {d : α} {m : NMap α} {k : Nat} (x : Nat) : ∀ {lo : Option Nat}, sortedFrom lo m = true →
    get d (del k m) x = if x = k then d else get d m x := by
  induction m with
  | nil => intro _ _; simp [del, get]
  | cons e m ih =>
    intro lo h
    obtain ⟨j, w⟩ := e
    have ht := sorted_tail h
    simp only [del]
    split
    · next hk =>
      subst hk
      by_cases h1 : x = k
      · subst h1; rw [if_pos rfl]; exact get_below ht (Nat.le_refl _)
      · rw [if_neg h1]; simp only [get]; rw [if_neg h1]
        by_cases h2 : x < k
        · rw [if_pos h2]; exact get_below ht (by omega)
        · rw [if_neg h2]
    · split
      · by_cases h1 : x = k
        · subst h1; rw [if_pos rfl]; simp only [get]; rw [if_neg (by omega), if_pos (by omega)]
        · rw [if_neg h1]
      · simp only [get]; rw [ih ht]
        by_cases h1 : x = j
        · subst h1; rw [if_pos rfl, if_pos rfl, if_neg (by omega)]
        · rw [if_neg h1, if_neg h1]
          by_cases h2 : x = k
          · subst h2; rw [if_pos rfl, if_neg (by omega)]; simp
          · rw [if_neg h2, if_neg h2]

variable [DecidableEq α]

theorem wf_iff {d : α} {m : NMap α} : wf d m = true ↔ sortedFrom none m = true ∧ ∀ e ∈ m, e.2 ≠ d := by
  simp [wf, List.all_eq_true]

/-- Everything a write does to a map in canonical form: it stays so, the key holds the value, every other key what it held. -/
theorem wf_set {d : α} {m : NMap α} (h : wf d m = true) (k : Nat) (v : α) : wf d (set d m k v) = true := by
  rw [wf_iff] at h ⊢
  unfold set
  split
  · exact ⟨del_sorted h.1, fun e he => h.2 e (mem_del he)⟩
  · next hv =>
    refine ⟨put_sorted h.1 (fun i hi => by cases hi), fun e he => ?_⟩
    rcases mem_put he with rfl | he
    · exact hv
    · exact h.2 e he

theorem get_set {d : α} {m : NMap α} (h : wf d m = true) (k : Nat) (v : α) (x : Nat) : get d (set d m k v) x = if x = k then v else get d m x := by
  rw [wf_iff] at h
  unfold set
  split
  · next hv => subst hv; exact get_del x h.1
  · exact get_put x h.1

/-- What was set is read back, in any map, where it is not the default. -/
theorem get_set_self {d : α} {m : NMap α} {k : Nat} {v : α} (h : v ≠ d) : get d (set d m k v) k = v := by
  simp [set, h, get_put_self]

theorem wf_filter {d : α} {m : NMap α} (h : wf d m = true) (p : Nat × α → Bool) : wf d (m.filter p) = true := by
  rw [wf_iff] at h ⊢
  exact ⟨filter_sorted h.1, fun e he => h.2 e (List.mem_of_mem_filter he)⟩

theorem wf_drop {d : α} {m : NMap α} (h : wf d m = true) (p : Nat → Bool) : wf d (drop p m) = true := wf_filter h _

theorem wf_nil (d : α) : wf d ([] : NMap α) = true := rfl

end NMap

namespace Machine.Memory

/-- A filter by address keeps what it selects. -/
theorem get_filter {p : Nat → Bool} {m : Memory} (a : Nat) : ∀ {lo : Option Nat}, NMap.sortedFrom lo m = true →
    NMap.get (0 : Byte) (m.filter fun e => p e.1) a = if p a then NMap.get 0 m a else 0 := by
  induction m with
  | nil => intro _ _; simp [NMap.get]
  | cons e m ih =>
    intro lo h
    obtain ⟨j, w⟩ := e
    have ht := NMap.sorted_tail h
    rw [List.filter_cons]
    by_cases hp : p j
    · simp only [hp, if_true, NMap.get]; rw [ih ht]
      by_cases h1 : a = j
      · subst h1; simp [hp]
      · rw [if_neg h1, if_neg h1]
        by_cases h2 : a < j
        · rw [if_pos h2, if_pos h2]; split <;> rfl
        · rw [if_neg h2, if_neg h2]
    · simp only [hp, Bool.false_eq_true, if_false]; rw [ih ht]
      by_cases ha : p a
      · have h1 : a ≠ j := fun h => hp (h ▸ ha)
        rw [if_pos ha, if_pos ha]; simp only [NMap.get]; rw [if_neg h1]
        by_cases h2 : a < j
        · rw [if_pos h2]; exact NMap.get_below ht (by omega)
        · rw [if_neg h2]
      · rw [if_neg ha, if_neg ha]

/-- Moved down by `b`, a byte is read `b` lower. -/
theorem get_shift {m : Memory} (b i : Nat) : (∀ e ∈ m, b ≤ e.1) → NMap.get (0 : Byte) (m.map fun e => (e.1 - b, e.2)) i = NMap.get 0 m (b + i) := by
  induction m with
  | nil => intro _; rfl
  | cons e m ih =>
    intro h
    have h0 := h e (List.mem_cons_self ..)
    have h1 := ih fun x hx => h x (List.mem_cons_of_mem _ hx)
    obtain ⟨j, w⟩ := e
    simp only [List.map_cons, NMap.get, h1]
    have e1 : (i = j - b) = (b + i = j) := by simp only [eq_iff_iff]; simp only at h0; omega
    have e2 : (i < j - b) = (b + i < j) := by simp only [eq_iff_iff]; simp only at h0; omega
    simp only [e1, e2]

/-- A string read is its bytes read one by one. -/
theorem readN_eq {m : Memory} (h : Memory.wf m = true) (a n : Nat) :
    Memory.readN m a n = (List.range n).map fun i => Memory.read m (a + i) := by
  unfold Memory.readN
  refine List.map_congr_left fun i hi => ?_
  have hi := List.mem_range.1 hi
  simp only [Memory.read, Memory.slice]
  rw [get_shift]
  · have := get_filter (p := fun x => decide (a ≤ x) && decide (x < a + n)) (a + i) (NMap.wf_iff.1 h).1
    rw [this]; simp; omega
  · intro e he
    have := (List.mem_filter.1 he).2
    simp only [Bool.and_eq_true, decide_eq_true_eq] at this; exact this.1

theorem wf_write {m : Memory} (h : Memory.wf m = true) (a : Nat) (b : Byte) : Memory.wf (Memory.write m a b) = true := NMap.wf_set h a b

theorem wf_writeN {m : Memory} (h : Memory.wf m = true) (a : Nat) (bs : List Byte) : Memory.wf (Memory.writeN m a bs) = true := by
  induction bs generalizing m a with
  | nil => exact h
  | cons b bs ih => exact ih (wf_write h a b) (a + 1)

theorem sorted_shift {m : Memory} (b : Nat) : ∀ {lo : Option Nat}, NMap.sortedFrom lo m = true → (∀ e ∈ m, b ≤ e.1) → (∀ i, lo = some i → b ≤ i) →
    NMap.sortedFrom (lo.map (· - b)) (m.map fun e => (e.1 - b, e.2)) = true := by
  induction m with
  | nil => intro lo _ _ _; cases lo <;> rfl
  | cons e m ih =>
    intro lo h hb hlo
    have h0 := hb e (List.mem_cons_self ..)
    have h1 := ih (NMap.sorted_tail h) (fun x hx => hb x (List.mem_cons_of_mem _ hx)) (fun i hi => by cases hi; exact h0)
    cases lo with
    | none => exact h1
    | some i =>
      have := hlo i rfl
      simp only [NMap.sortedFrom, Bool.and_eq_true, decide_eq_true_eq] at h
      simp only [Option.map_some, List.map_cons, NMap.sortedFrom, Bool.and_eq_true, decide_eq_true_eq]
      exact ⟨by omega, h1⟩

theorem wf_slice {m : Memory} (h : Memory.wf m = true) (a n : Nat) : Memory.wf (Memory.slice m a n) = true := by
  unfold Memory.wf Memory.slice
  have hf := NMap.wf_iff.1 (NMap.wf_filter h fun e => decide (a ≤ e.1) && decide (e.1 < a + n))
  refine NMap.wf_iff.2 ⟨sorted_shift a hf.1 (fun e he => ?_) (fun i hi => by cases hi), fun e he => ?_⟩
  · have := (List.mem_filter.1 he).2
    simp only [Bool.and_eq_true, decide_eq_true_eq] at this; exact this.1
  · obtain ⟨x, hx, rfl⟩ := List.mem_map.1 he
    exact hf.2 x hx

end Machine.Memory

namespace Machine

/-- Every memory of the machine at reset is in canonical form. -/
theorem reset_memories : Memory.wf (State.reset.hostMem 0) = true ∧ Memory.wf (State.reset.fn 0).window = true ∧ Memory.wf State.reset.fabric.image = true
    ∧ Memory.wf (State.reset.sc 0).x = true ∧ Memory.wf (State.reset.sc 0).y = true ∧ Memory.wf (State.reset.cluster 0).shared = true := by decide

end Machine
end Sys2Proof
end

