-- ==== Sys2Proof/Laws/Commands.lean ====
section
/-! SUPPORT. What the shared operations of commands do: a coreless command that starts or is refused at its start, a core command that
runs, a vector instruction that issues, an engine's item, the end of a command. -/
namespace Sys2Proof.Machine

/-! ### Coreless commands -/

theorem runs_if {s : State} {op id : Nat} {c : Cmd} (h : Ready s op id c) :
    c.opcode = op ∧ c.stage = .granted ∧ (!(decide (c.entry ≠ Entry.mgmt) && s.stalled c.tenant)) = true ∧ (!s.heldBack c) = true
      ∧ (!s.stewardHeld c) = true := by
  obtain ⟨-, h2, h3, h4, h5, h6, -⟩ := h
  refine ⟨h2, h3, ?_, by simp [h5], by simp [h6]⟩
  by_cases he : c.entry = .mgmt
  · simp [he]
  · simp [h4 he]

/-- A command that may start and passes its checks has its effect. -/
theorem runCoreless_runs {s : State} {op id : Nat} {c : Cmd} (h : Ready s op id c) {check : State → Cmd → Option Fail} {body : State → Cmd → State}
    (hc : check s c = none) : runCoreless op check body id s = body (Begun s c) (begun s c) := by
  simp only [runCoreless, h.1]
  rw [if_pos (runs_if h)]
  simp [h.2.2.2.2.2.2, hc, Begun, begun]

/-- One that fails its checks ends with what they say and signals nothing. -/
theorem runCoreless_refuses {s : State} {op id : Nat} {c : Cmd} (h : Ready s op id c) {check : State → Cmd → Option Fail} {body : State → Cmd → State}
    {f : Fail} (hc : check s c = some f) : runCoreless op check body id s = (s.setCmd { c with signals := [] }).finish id f.1 f.2 := by
  simp only [runCoreless, h.1]
  rw [if_pos (runs_if h)]
  simp [h.2.2.2.2.2.2, hc]

/-- An event for a command that is not there does nothing. -/
theorem runCoreless_absent {s : State} {op id : Nat} {check : State → Cmd → Option Fail} {body : State → Cmd → State} (h : s.cmd? id = none) :
    runCoreless op check body id s = s := by simp only [runCoreless, h]

theorem cmd?_id {s : State} {id : Nat} {c : Cmd} (h : s.cmd? id = some c) : c.id = id := by
  have := List.find?_some h
  simpa using this

theorem Ready.id_eq {s : State} {op id : Nat} {c : Cmd} (h : Ready s op id c) : c.id = id := cmd?_id h.1

/-- A command replaced is found as it was put. -/
theorem cmd?_setCmd {s : State} {id : Nat} {c d : Cmd} (h : s.cmd? id = some c) (hd : d.id = id) : (s.setCmd d).cmd? id = some d := by
  unfold State.cmd? State.setCmd at *
  subst hd
  generalize s.cmds = l at h
  induction l with
  | nil => simp at h
  | cons a l ih =>
    rw [List.find?_cons] at h
    simp only [List.map_cons, List.find?_cons]
    by_cases hq : a.id = d.id
    · simp [hq]
    · have hq' : (a.id == d.id) = false := by simpa using hq
      rw [hq'] at h; simp only [hq', Bool.false_eq_true, if_false]; exact ih h

theorem Ready.begun_cmd {s : State} {op id : Nat} {c : Cmd} (h : Ready s op id c) : (Begun s c).cmd? id = some (begun s c) :=
  cmd?_setCmd h.1 h.id_eq

/-- A body whose reads are settled runs as it is. -/
theorem reading_settled {body : State → Cmd → State} {s : State} {c : Cmd} (h : Settled body s c) : reading body s c = body s c := by
  unfold Settled at h
  simp only [reading, readingFor, h]

/-- A body that asks for a line of another module has that line asked for. -/
theorem reading_asks {body : State → Cmd → State} {s : State} {c : Cmd} {f : Fail} (h : (body s c).asks c.id = some f) (hf : fieldAt f.2 0 1 = 0) :
    reading body s c = s.seeTo c.tenant c.ctx c.id f := by
  simp only [reading, readingFor, h, if_pos hf]

/-! ### Core commands -/

/-- A core command that runs has its effect. -/
theorem runCore_runs {s : State} {op id : Nat} {c : Cmd} (h : Running s op id c) {body : State → Cmd → State} :
    runCore op body id s = body s c := by
  obtain ⟨h1, h2, h3, h4, h5⟩ := h
  simp only [runCore, h1]
  rw [if_pos ⟨h2, h3, h4, by simp [h5]⟩]

/-! ### Vector instructions and engine items -/

/-- An instruction that issues: where the shadow unit differs the core stops, else it acts on the machine after its issue. -/
theorem veStep_issuing {s : State} {core : Nat} {v : Ve} {c : Cmd} {w : Dbl} {fmt op : Nat} (h : Issuing s core v c w fmt op)
    {tk : Ve → Bool} {body : Ve → Cmd → State → State} :
    veStep fmt op tk body core w s = if (s.shadowed core v w (tk v)).1
      then (s.issued core v w (tk v)).disagree c 7 (v.outputs (s.issued core v w (tk v)) c.tenant) []
      else body (v.advance w (tk v)).1 c (s.issued core v w (tk v)) := by
  obtain ⟨h1, h2, h3, h4, h5⟩ := h
  simp only [veStep, h1]
  rw [if_pos ⟨h2, h3, h4, h5⟩]
  rfl

/-- Counting an instruction leaves what is armed on the core. -/
theorem counted_inject (s : State) (core : Nat) (v : Ve) (w : Dbl) (taken : Bool) :
    ((s.counted core v w taken).core core).inject = (s.core core).inject := by
  have h (x : Core) (hx : x.ve ≠ none) : (((s.setCore core x).core core)) = x :=
    NMap.get_set_self fun e => hx (by rw [e]; rfl)
  have h2 (t : State) (a n : Nat) : (t.bump a n).core core = t.core core := rfl
  unfold State.counted
  simp only [h2]
  rw [h _ (by simp)]

/-- The shadow unit agrees where no mismatch is armed, or where it does not repeat the instruction. -/
theorem Issues.agrees {s : State} {core : Nat} {v : Ve} {c : Cmd} {w : Dbl} {fmt op : Nat} (h : Issues s core v c w fmt op) (taken : Bool) :
    (s.shadowed core v w taken).1 = false := by
  unfold State.shadowed State.shadow
  dsimp only
  rcases h.2 with h2 | h2
  · rw [counted_inject, h2, if_neg (Nat.lt_irrefl 0)]; generalize (if veSampled w = true then veIssue v w false else 0) = n; by_cases hn : n = 0 <;> simp [hn]
  · simp [h2]

/-- An instruction that issues, and on which the units agree, acts on the machine after its issue. -/
theorem veStep_issued {s : State} {core : Nat} {v : Ve} {c : Cmd} {w : Dbl} {fmt op : Nat} (h : Issues s core v c w fmt op)
    {tk : Ve → Bool} {body : Ve → Cmd → State → State} :
    veStep fmt op tk body core w s = body (v.advance w (tk v)).1 c (s.issued core v w (tk v)) := by
  rw [veStep_issuing h.1, h.agrees]
  rfl

theorem veStep_idle {s : State} {core : Nat} {w : Dbl} {fmt op : Nat} {tk : Ve → Bool} {body : Ve → Cmd → State → State} (h : s.program core = none) :
    veStep fmt op tk body core w s = s := by simp only [veStep, h]

/-- Everything an engine's item does: nothing on an engine that is not ready, an invalid descriptor, a memory error, its body's failure, or its body. -/
theorem runItem_cases (s : State) (e lo hi : Nat) (h : DescHdr) (ok : Bool) (body : State → Except Nat (State × Nat)) :
    (s.engineReady e lo hi = false ∧ runItem e lo hi h ok body s = s)
      ∨ (s.engineReady e lo hi = true ∧ (hdrOk h && ok) = false ∧ runItem e lo hi h ok body s = s.itemFault e h 3)
      ∨ (s.engineReady e lo hi = true ∧ (hdrOk h && ok) = true ∧ h.memError = true ∧ runItem e lo hi h ok body s = s.itemFault e h 2)
      ∨ (s.engineReady e lo hi = true ∧ (hdrOk h && ok) = true ∧ h.memError = false
          ∧ ((∃ st, body s = .error st ∧ runItem e lo hi h ok body s = s.itemFault e h st)
            ∨ ∃ t n, body s = .ok (t, n) ∧ runItem e lo hi h ok body s = t.itemDone e h 1 n)) := by
  unfold runItem
  cases h1 : s.engineReady e lo hi with
  | false => exact .inl ⟨rfl, rfl⟩
  | true =>
    cases h2 : hdrOk h && ok with
    | false => exact .inr (.inl ⟨rfl, rfl, rfl⟩)
    | true =>
      cases h3 : h.memError with
      | true => exact .inr (.inr (.inl ⟨rfl, rfl, rfl, rfl⟩))
      | false =>
        refine .inr (.inr (.inr ⟨rfl, rfl, rfl, ?_⟩))
        cases hb : body s with
        | error st => exact .inl ⟨st, rfl, rfl⟩
        | ok x => exact .inr ⟨x.1, x.2, rfl, rfl⟩

/-! ### The end of a command -/

/-- Everything the end of a command does: nothing where it is not there or over already, its response where it came in by the management port,
its status and result else. -/
theorem finish_cases (s : State) (id st : Nat) (r : List Byte) :
    (s.cmd? id = none ∧ s.finish id st r = s)
      ∨ ∃ c, s.cmd? id = some c ∧
        ((c.stage = .done ∧ s.finish id st r = s)
          ∨ (c.stage ≠ .done ∧ c.entry ≠ .mgmt ∧ s.finish id st r = s.setCmd { c with status := st, result := r, stage := .done })
          ∨ (c.stage ≠ .done ∧ c.entry = .mgmt ∧ s.finish id st r =
              (s.respond (s.cmdReply { c with status := st, result := r, stage := .done } true) (if st < 0x100 then c.trailer else [])).dropCmd id)) := by
  unfold State.finish
  cases h : s.cmd? id with
  | none => exact .inl ⟨rfl, rfl⟩
  | some c =>
    refine .inr ⟨c, rfl, ?_⟩
    by_cases h1 : c.stage = .done
    · exact .inl ⟨h1, by simp [h1]⟩
    · right
      cases h2 : c.entry with
      | mgmt => right; exact ⟨h1, rfl, by simp [h1, h2]⟩
      | pf => left; exact ⟨h1, by simp, by simp [h1, h2]⟩
      | vf => left; exact ⟨h1, by simp, by simp [h1, h2]⟩
      | remote => left; exact ⟨h1, by simp, by simp [h1, h2]⟩

end Sys2Proof.Machine
end

