-- ==== Sys2Proof/Laws/Kept.lean ====
section
/-! SUPPORT. What no command but a reset or a firmware opcode changes: the queue, the variant, the local counter and Steward's
flash and staging, gathered in one projection; how it passes through record updates, conditionals and folds. -/
set_option linter.all false
namespace Sys2Proof.Machine

/-- The queue, the variant, the local counter, Steward. -/
def State.kept (s : State) : List Instr × Variant × Nat × Steward := (s.pending, s.variant, s.now, s.st)

@[simp] theorem State.kept_eta (s : State) : (s.pending, s.variant, s.now, s.st) = s.kept := rfl

@[simp] theorem State.kept_mk (x_pending : List Instr) (x_variant : Variant) (x_now : Nat) (x_free : Nat) (x_nextId : Nat)
    (x_readData : List Word) (x_ctr : NMap Nat) (x_cap : NMap Nat) (x_regs : NMap Word) (x_host : NMap Memory) (x_hostPoison :
    NMap Bool) (x_mctp : List (List Byte)) (x_fns : NMap Fn) (x_tenants : NMap Tenant) (x_mgmtVersion : Nat) (x_cmds : List Cmd)
    (x_radioCmds : List RadioCmd) (x_radioSet : Nat) (x_guard : Nat) (x_cqUsed : Nat × Nat) (x_cqPeak : Nat × Nat) (x_spilled :
    List (Nat × Resident)) (x_cores : NMap Core) (x_coopers : NMap (Option Round)) (x_trackers : NMap (Option Tracker)) (x_fabric
    : Fabric) (x_cells : NMap (Option Cell)) (x_scs : NMap Sc) (x_clusters : NMap Cluster) (x_engineStatus : NMap (Nat × Nat))
    (x_ethMode : NMap Nat) (x_eth : NMap SubPort) (x_sx : Sexton) (x_ev : Ev) (x_rel : Rel) (x_pw : Power) (x_link : Link) (x_st :
    Steward) : (State.mk x_pending x_variant x_now x_free x_nextId x_readData x_ctr x_cap x_regs x_host x_hostPoison x_mctp x_fns
    x_tenants x_mgmtVersion x_cmds x_radioCmds x_radioSet x_guard x_cqUsed x_cqPeak x_spilled x_cores x_coopers x_trackers
    x_fabric x_cells x_scs x_clusters x_engineStatus x_ethMode x_eth x_sx x_ev x_rel x_pw x_link x_st).kept = (x_pending,
    x_variant, x_now, x_st) := rfl

theorem State.kept_ite (p : Prop) [Decidable p] (a b : State) : (if p then a else b).kept = if p then a.kept else b.kept := apply_ite ..

theorem State.kept_pending {s t : State} (h : t.kept = s.kept) : t.pending = s.pending := congrArg (·.1) h
theorem State.kept_variant {s t : State} (h : t.kept = s.kept) : t.variant = s.variant := congrArg (·.2.1) h
theorem State.kept_now {s t : State} (h : t.kept = s.kept) : t.now = s.now := congrArg (·.2.2.1) h
theorem State.kept_st {s t : State} (h : t.kept = s.kept) : t.st = s.st := congrArg (·.2.2.2) h

/-- A fold of kept steps is kept. -/
theorem foldl_kept {α : Type} (g : State → α → State) (l : List α) (s : State) (h : ∀ s a, (g s a).kept = s.kept) :
    (l.foldl g s).kept = s.kept := by
  induction l generalizing s with
  | nil => rfl
  | cons a l ih => rw [List.foldl_cons, ih, h]

/-- A fold over a state and something else. -/
theorem foldl_kept_fst {α β : Type} (g : State × β → α → State × β) (l : List α) (s : State × β) (h : ∀ s a, (g s a).1.kept = s.1.kept) :
    (l.foldl g s).1.kept = s.1.kept := by
  induction l generalizing s with
  | nil => rfl
  | cons a l ih => rw [List.foldl_cons, ih, h]

theorem foldl_kept_snd {α β : Type} (g : β × State → α → β × State) (l : List α) (s : β × State) (h : ∀ s a, (g s a).2.kept = s.2.kept) :
    (l.foldl g s).2.kept = s.2.kept := by
  induction l generalizing s with
  | nil => rfl
  | cons a l ih => rw [List.foldl_cons, ih, h]

/-- The queue and the variant stay, and the flash's counters only rise (R448). -/
def State.rises (s t : State) : Prop :=
  t.pending = s.pending ∧ t.variant = s.variant ∧ s.st.security ≤ t.st.security ∧ s.st.sigIndex ≤ t.st.sigIndex

theorem State.rises_refl (s : State) : s.rises s := ⟨rfl, rfl, Nat.le_refl _, Nat.le_refl _⟩

theorem State.rises_trans {s t u : State} (h : s.rises t) (k : t.rises u) : s.rises u :=
  ⟨k.1.trans h.1, k.2.1.trans h.2.1, h.2.2.1.trans k.2.2.1, h.2.2.2.trans k.2.2.2⟩

theorem State.rises_of_kept {s t : State} (h : t.kept = s.kept) : s.rises t :=
  ⟨kept_pending h, kept_variant h, by rw [kept_st h], by rw [kept_st h]⟩

/-- What is done after may keep everything. -/
theorem State.rises_kept {s t u : State} (h : s.rises t) (k : u.kept = t.kept) : s.rises u := rises_trans h (rises_of_kept k)

theorem State.kept_rises {s t u : State} (k : u.kept = t.kept) (h : s.rises t) : s.rises u := rises_trans h (rises_of_kept k)

/-- Steward's part alone changes. -/
theorem State.rises_st {s t : State} (k : t.kept = s.kept) (x : Steward) (h1 : s.st.security ≤ x.security) (h2 : s.st.sigIndex ≤ x.sigIndex) :
    s.rises { t with st := x } := ⟨(kept_pending k : t.pending = _), (kept_variant k : t.variant = _), h1, h2⟩

end Sys2Proof.Machine
end

