-- ==== Sys2Proof/Laws/KeptOps.lean ====
section
/-! SUPPORT. What the shared operations, the windows and memory keep: the queue, the variant, the local counter and Steward's flash. -/
set_option linter.all false
namespace Sys2Proof.Machine

@[simp] theorem State.setFn_kept (s : State) (n : ℕ) (f : Fn) : (State.setFn s n f).kept = s.kept :=
  by simp [State.setFn, State.kept_ite]

@[simp] theorem State.setTenant_kept (s : State) (t : ℕ) (x : Tenant) : (State.setTenant s t x).kept = s.kept :=
  by simp [State.setTenant, State.kept_ite]

@[simp] theorem State.setCtx_kept (s : State) (t : ℕ) (c : ℕ) (x : Ctx) : (State.setCtx s t c x).kept = s.kept :=
  by simp [State.setCtx, State.kept_ite]

@[simp] theorem State.setObj_kept (s : State) (t : ℕ) (h : ℕ) (o : Option Obj) : (State.setObj s t h o).kept = s.kept :=
  by simp [State.setObj, State.kept_ite]

@[simp] theorem State.setCore_kept (s : State) (c : ℕ) (x : Core) : (State.setCore s c x).kept = s.kept :=
  by simp [State.setCore, State.kept_ite]

@[simp] theorem State.setCell_kept (s : State) (c : ℕ) (x : Option Cell) : (State.setCell s c x).kept = s.kept :=
  by simp [State.setCell, State.kept_ite]

@[simp] theorem State.setSc_kept (s : State) (c : ℕ) (x : Sc) : (State.setSc s c x).kept = s.kept :=
  by simp [State.setSc, State.kept_ite]

@[simp] theorem State.setCluster_kept (s : State) (k : ℕ) (x : Cluster) : (State.setCluster s k x).kept = s.kept :=
  by simp [State.setCluster, State.kept_ite]

@[simp] theorem State.setCmd_kept (s : State) (c : Cmd) : (State.setCmd s c).kept = s.kept :=
  by simp [State.setCmd, State.kept_ite]

@[simp] theorem State.dropCmd_kept (s : State) (id : ℕ) : (State.dropCmd s id).kept = s.kept :=
  by simp [State.dropCmd, State.kept_ite]

@[simp] theorem State.bump_kept (s : State) (addr : ℕ) (n : ℕ) : (State.bump s addr n).kept = s.kept :=
  by simp [State.bump, State.kept_ite]

@[simp] theorem State.bumpMax_kept (s : State) (addr : ℕ) (n : ℕ) : (State.bumpMax s addr n).kept = s.kept :=
  by simp [State.bumpMax, State.kept_ite]

@[simp] theorem State.clearCounters_kept (s : State) (lo : ℕ) (hi : ℕ) : (State.clearCounters s lo hi).kept = s.kept :=
  by simp [State.clearCounters, State.kept_ite]

@[simp] theorem State.forgetCounters_kept (s : State) (lo : ℕ) (hi : ℕ) : (State.forgetCounters s lo hi).kept = s.kept :=
  by simp [State.forgetCounters, State.kept_ite]

@[simp] theorem State.setHostMem_kept (s : State) (f : ℕ) (m : Memory) : (State.setHostMem s f m).kept = s.kept :=
  by simp [State.setHostMem, State.kept_ite]

@[simp] theorem State.setSrc_kept (s : State) (n : ℕ) (x : Source) : (State.setSrc s n x).kept = s.kept :=
  by simp [State.setSrc, State.kept_ite]

@[simp] theorem State.drive_kept (s : State) (n : ℕ) (high : Bool) : (State.drive s n high).kept = s.kept :=
  by simp [State.drive, State.kept_ite]

@[simp] theorem State.pulse_kept (s : State) (n : ℕ) : (State.pulse s n).kept = s.kept :=
  by simp [State.pulse, State.kept_ite]

@[simp] theorem State.logRecord_kept (s : State) (r : LogRec) : (State.logRecord s r).kept = s.kept :=
  by simp [State.logRecord, State.kept_ite]

@[simp] theorem State.clerkReport_kept (s : State) (d : ℕ) (r : LogRec) : (State.clerkReport s d r).kept = s.kept := by
  unfold State.clerkReport; (try dsimp only); (repeat' split) <;> simp (disch := (intro s a; (try dsimp only); (repeat' split) <;> simp [State.kept_ite])) [foldl_kept, State.kept_ite]

@[simp] theorem State.addLog_kept (s : State) (r : LogRec) : (State.addLog s r).kept = s.kept :=
  by unfold State.addLog; (repeat' split) <;> simp [State.kept_ite]

@[simp] theorem State.spoilPcie_kept (s : State) (iova : ℕ) : (State.spoilPcie s iova).kept = s.kept :=
  by simp [State.spoilPcie, State.kept_ite]

@[simp] theorem State.dmaWrite_kept (s : State) (f : ℕ) (iova : ℕ) (bs : List Sys2Proof.Byte) (poison : Bool) : (State.dmaWrite s f iova bs poison).kept = s.kept :=
  by simp [State.dmaWrite, State.kept_ite]

@[simp] theorem State.writeRecord_kept (s : State) (n : ℕ) (r : Reply) : (State.writeRecord s n r).kept = s.kept :=
  by simp [State.writeRecord, State.kept_ite]

@[simp] theorem State.drainHeld_kept (k : Nat) (s : State) (n : Nat) : (State.drainHeld k s n).kept = s.kept := by
  induction k generalizing s with
  | zero => rfl
  | succ k ih => unfold State.drainHeld; (repeat' split) <;> simp [ih]

@[simp] theorem State.reply_kept (s : State) (n : ℕ) (r : Reply) : (State.reply s n r).kept = s.kept :=
  by simp [State.reply, State.kept_ite]

@[simp] theorem State.payOwed_kept (s : State) (n : ℕ) : (State.payOwed s n).kept = s.kept := by
  unfold State.payOwed; (try dsimp only); (repeat' split) <;> simp (disch := (intro s a; (try dsimp only); (repeat' split) <;> simp [State.kept_ite])) [foldl_kept, State.kept_ite]

@[simp] theorem State.notice_kept (s : State) (n : ℕ) (status : ℕ) (result : List Sys2Proof.Byte) : (State.notice s n status result).kept = s.kept :=
  by simp [State.notice, State.kept_ite]

@[simp] theorem State.respond_kept (s : State) (r : Reply) (trailer : List Sys2Proof.Byte) : (State.respond s r trailer).kept = s.kept :=
  by simp [State.respond, State.kept_ite]

@[simp] theorem State.finish_kept (s : State) (id : ℕ) (status : ℕ) (result : List Sys2Proof.Byte) : (State.finish s id status result).kept = s.kept :=
  by unfold State.finish; dsimp only; (repeat' split) <;> simp (disch := (intro s a; dsimp only; (repeat' split) <;> simp [State.kept_ite])) [foldl_kept, State.kept_ite]

@[simp] theorem State.endUnstarted_kept (s : State) (t : ℕ) (c : ℕ) : (State.endUnstarted s t c).kept = s.kept :=
  by simp [State.endUnstarted, State.kept_ite]

@[simp] theorem State.kill_kept (s : State) (t : ℕ) (c : ℕ) : (State.kill s t c).kept = s.kept :=
  by unfold State.kill; dsimp only; (repeat' split) <;> simp (disch := (intro s a; dsimp only; (repeat' split) <;> simp [State.kept_ite])) [foldl_kept, State.kept_ite]

@[simp] theorem State.complete_kept (s : State) (id : ℕ) (status : ℕ) (result : List Sys2Proof.Byte) : (State.complete s id status result).kept = s.kept :=
  by unfold State.complete; (repeat' split) <;> simp [State.kept_ite]

@[simp] theorem State.countTier_kept (s : State) (t : ℕ) (c : ℕ) (status : ℕ) (result : List Sys2Proof.Byte) : (State.countTier s t c status result).kept = s.kept :=
  by simp [State.countTier, State.kept_ite]

@[simp] theorem State.fail_kept (s : State) (id : ℕ) (status : ℕ) (result : List Sys2Proof.Byte) : (State.fail s id status result).kept = s.kept :=
  by unfold State.fail; (repeat' split) <;> simp [State.kept_ite]

theorem runCoreless_kept (op : Nat) (check : State → Cmd → Option Fail) (body : State → Cmd → State) (id : Nat) (s : State)
    (hb : ∀ s c, (body s c).kept = s.kept) : (runCoreless op check body id s).kept = s.kept := by
  unfold runCoreless; (repeat' split) <;> simp [hb]

@[simp] theorem State.await_kept (s : State) (id : ℕ) : (State.await s id).kept = s.kept :=
  by unfold State.await; (repeat' split) <;> simp [State.kept_ite]

@[simp] theorem State.ok_kept (s : State) (id : ℕ) (result : List Sys2Proof.Byte) : (State.ok s id result).kept = s.kept :=
  by simp [State.ok, State.kept_ite]

@[simp] theorem State.draw_kept (s : State) : (State.draw s).2.kept = s.kept :=
  by simp [State.draw, State.kept_ite]

@[simp] theorem State.failRecord_kept (s : State) (n : ℕ) (tag : ℕ) (status : ℕ) (ctx : ℕ) (step : ℕ) (result : List Sys2Proof.Byte) : (State.failRecord s n tag status ctx step result).kept = s.kept :=
  by simp [State.failRecord, State.kept_ite]

theorem evalOne_kept (s : State) (n : Nat) (cur : NMap Bool) (t : State) (h : evalOne s n cur = some t) : t.kept = s.kept := by
  unfold evalOne at h; dsimp only at h
  split at h
  · cases h
  · split at h
    · cases h; simp
    · split at h
      · cases h; split <;> simp
      · cases h

@[simp] theorem evalLoop_kept (k : Nat) (s : State) (n : Nat) (cur : NMap Bool) : (evalLoop k s n cur).kept = s.kept := by
  induction k generalizing s with
  | zero => rfl
  | succ k ih =>
    unfold evalLoop
    split
    · rename_i s1 h; rw [ih]; exact evalOne_kept _ _ _ _ h
    · rfl

@[simp] theorem State.aerEvent_kept (s : State) (b : ℕ) : (State.aerEvent s b).kept = s.kept :=
  by simp [State.aerEvent, State.kept_ite]

@[simp] theorem windowWrite_kept (fn : ℕ) (off : ℕ) (data : List Sys2Proof.Byte) (poisoned : Bool) (s : State) : (windowWrite fn off data poisoned s).kept = s.kept :=
  by simp [windowWrite, State.kept_ite]

@[simp] theorem finishResync_kept (s : State) (n : ℕ) : (finishResync s n).kept = s.kept :=
  by simp [finishResync, State.kept_ite]

@[simp] theorem hwWinCtlResync_kept (fn : ℕ) (s : State) : (hwWinCtlResync fn s).kept = s.kept :=
  by simp [hwWinCtlResync, State.kept_ite]

@[simp] theorem ringCfgWrite_kept (n : ℕ) (v : Sys2Proof.Word) (s : State) : (ringCfgWrite n v s).kept = s.kept :=
  by simp [ringCfgWrite, State.kept_ite]

@[simp] theorem hwRingHeadWrite_kept (fn : ℕ) (v : Sys2Proof.Word) (s : State) : (hwRingHeadWrite fn v s).kept = s.kept :=
  by simp [hwRingHeadWrite, State.kept_ite]

@[simp] theorem hwHeartbeatWrite_kept (fn : ℕ) (y1 : Sys2Proof.Word) (s : State) : (hwHeartbeatWrite fn y1 s).kept = s.kept :=
  by simp [hwHeartbeatWrite, State.kept_ite]

@[simp] theorem replyTimeThreshold_kept (fn : ℕ) (s : State) : (replyTimeThreshold fn s).kept = s.kept :=
  by simp [replyTimeThreshold, State.kept_ite]

@[simp] theorem State.eccFound_kept (s : State) (t : ℕ) (h : ℕ) (line : ℕ) (double : Bool) (inj : Bool) : (State.eccFound s t h line double inj).kept = s.kept := by
  unfold State.eccFound; (try dsimp only); (repeat' split) <;> simp (disch := (intro s a; (try dsimp only); (repeat' split) <;> simp [State.kept_ite])) [foldl_kept, State.kept_ite]

@[simp] theorem State.setWfPort_kept (s : State) (p : ℕ) (x : WfPort) : (State.setWfPort s p x).kept = s.kept :=
  by simp [State.setWfPort, State.kept_ite]

@[simp] theorem State.freeIngress_kept (s : State) (port : ℕ) (vc : ℕ) (units : ℕ) : (State.freeIngress s port vc units).kept = s.kept := by
  unfold State.freeIngress; (try dsimp only); (repeat' split) <;> simp (disch := (intro s a; (try dsimp only); (repeat' split) <;> simp [State.kept_ite])) [foldl_kept, State.kept_ite]

@[simp] theorem State.forward_kept (s : State) (vc : ℕ) (cls : ℕ) (q : OutPkt) : (State.forward s vc cls q).kept = s.kept :=
  by unfold State.forward; (repeat' split) <;> simp [State.kept_ite]

@[simp] theorem State.spoilWf_kept (s : State) (dst : ℕ) (payload : ℕ) : (State.spoilWf s dst payload).2.kept = s.kept :=
  by unfold State.spoilWf; dsimp only; (repeat' split) <;> simp (disch := (intro s a; dsimp only; (repeat' split) <;> simp [State.kept_ite])) [foldl_kept, State.kept_ite]

@[simp] theorem State.launch_kept (s : State) (vc : ℕ) (dst : ℕ) (payload : ℕ) : (State.launch s vc dst payload).kept = s.kept :=
  by simp [State.launch, State.kept_ite]

@[simp] theorem State.loopIn_kept (s : State) (x : Loop) : (State.loopIn s x).kept = s.kept := by
  unfold State.loopIn; (try dsimp only); (repeat' split) <;> simp (disch := (intro s a; (try dsimp only); (repeat' split) <;> simp [State.kept_ite])) [foldl_kept, State.kept_ite]

@[simp] theorem State.send_kept (s : State) (m : Sent) : (State.send s m).kept = s.kept :=
  by simp [State.send, State.kept_ite]

@[simp] theorem State.dropFetched_kept (s : State) (node : ℕ) (off : ℕ) (n : ℕ) : (State.dropFetched s node off n).kept = s.kept := by
  unfold State.dropFetched; (try dsimp only); (repeat' split) <;> simp (disch := (intro s a; (try dsimp only); (repeat' split) <;> simp [State.kept_ite])) [foldl_kept, State.kept_ite]

@[simp] theorem State.post_kept (s : State) (node : ℕ) (t : ℕ) (c : ℕ) (cmd : ℕ) (kind : ℕ) (p : Sys2Proof.FabPkt) : (State.post s node t c cmd kind p).kept = s.kept :=
  by simp [State.post, State.kept_ite]

@[simp] theorem State.postLines_kept (s : State) (i : Import) (t c cmd kind epoch f off : Nat) (bs : List Byte) (poison : Bool) :
    (s.postLines i t c cmd kind epoch f off bs poison).kept = s.kept := by
  induction f generalizing s off bs with
  | zero => rfl
  | succ f ih => unfold State.postLines; dsimp only; split <;> simp [ih]

@[simp] theorem State.postPoison_kept (s : State) (i : Import) (t : ℕ) (c : ℕ) (cmd : ℕ) (kind : ℕ) (epoch : ℕ) (lines : List ℕ) : (State.postPoison s i t c cmd kind epoch lines).kept = s.kept := by
  unfold State.postPoison; (try dsimp only); (repeat' split) <;> simp (disch := (intro s a; (try dsimp only); (repeat' split) <;> simp [State.kept_ite])) [foldl_kept, State.kept_ite]

@[simp] theorem State.ask_kept (s : State) (t : ℕ) (c : ℕ) (rd : ℕ) (imp : ℕ) (line : ℕ) : (State.ask s t c rd imp line).kept = s.kept := by
  unfold State.ask; (try dsimp only); (repeat' split) <;> simp (disch := (intro s a; (try dsimp only); (repeat' split) <;> simp [State.kept_ite])) [foldl_kept, State.kept_ite]

@[simp] theorem State.seeTo_kept (s : State) (t : ℕ) (c : ℕ) (rd : ℕ) (f : Fail) : (State.seeTo s t c rd f).kept = s.kept := by
  unfold State.seeTo; (try dsimp only); (repeat' split) <;> simp (disch := (intro s a; (try dsimp only); (repeat' split) <;> simp [State.kept_ite])) [foldl_kept, State.kept_ite]

theorem readingFor_kept (body : State → Cmd → State) (c : Cmd) (k : Nat) (s : State) (hb : ∀ s c, (body s c).kept = s.kept) :
    (readingFor body c k s).kept = s.kept := by
  induction k generalizing s with
  | zero => exact hb ..
  | succ k ih => unfold readingFor; (repeat' split) <;> simp [ih, hb]

theorem reading_kept (body : State → Cmd → State) (s : State) (c : Cmd) (hb : ∀ s c, (body s c).kept = s.kept) :
    (reading body s c).kept = s.kept := by
  unfold reading; exact readingFor_kept _ _ _ _ hb

@[simp] theorem State.cacheWrite_kept (s : State) (rd : ℕ) (t : ℕ) (h : ℕ) (o : Obj) (off : ℕ) (bs : List Sys2Proof.Byte) (poison : Bool) : (State.cacheWrite s rd t h o off bs poison).1.kept = s.kept := by
  unfold State.cacheWrite; (try dsimp only); (repeat' split) <;> simp (disch := (intro s a; (try dsimp only); (repeat' split) <;> simp [State.kept_ite])) [foldl_kept, State.kept_ite]

@[simp] theorem State.absorb_kept (s : State) (u : ℕ) (line : ℕ) : (State.absorb s u line).kept = s.kept :=
  by simp [State.absorb, State.kept_ite]

@[simp] theorem State.countAtomic_kept (s : State) (op : ℕ) (busy : Bool) : (State.countAtomic s op busy).kept = s.kept := by
  unfold State.countAtomic; (try dsimp only); (repeat' split) <;> simp (disch := (intro s a; (try dsimp only); (repeat' split) <;> simp [State.kept_ite])) [foldl_kept, State.kept_ite]

@[simp] theorem State.atomicUnits_kept (s : State) (op : ℕ) (at_ : ℕ) (n : ℕ) : (State.atomicUnits s op at_ n).kept = s.kept := by
  unfold State.atomicUnits; (try dsimp only); (repeat' split) <;> simp (disch := (intro s a; (try dsimp only); (repeat' split) <;> simp [State.kept_ite])) [foldl_kept, State.kept_ite]

@[simp] theorem State.clearErrors_kept (s : State) (t : ℕ) (h : ℕ) (off : ℕ) (n : ℕ) : (State.clearErrors s t h off n).kept = s.kept := by
  unfold State.clearErrors; (try dsimp only); (repeat' split) <;> simp (disch := (intro s a; (try dsimp only); (repeat' split) <;> simp [State.kept_ite])) [foldl_kept, State.kept_ite]

@[simp] theorem State.writePiece_kept (s : State) (t : ℕ) (c : ℕ) (cmd : ℕ) (h : ℕ) (o : Obj) (way : WriteWay) (off : ℕ) (bs : List Sys2Proof.Byte) (poison : Bool) : (State.writePiece s t c cmd h o way off bs poison).1.kept = s.kept := by
  simp only [State.writePiece]; (repeat' split) <;> simp (disch := (intro s a; (try dsimp only); (repeat' split) <;> simp [State.kept_ite])) [foldl_kept, State.kept_ite]

@[simp] theorem State.writePieces_kept (t c cmd h : Nat) (det : Bool) (off : Nat) (bs : List Byte) (poison : Bool) (l : List (Nat × Nat)) (s : State) :
    (s.writePieces t c cmd h det off bs poison l).1.kept = s.kept := by
  induction l generalizing s with
  | nil => rfl
  | cons a l ih =>
    obtain ⟨x, n⟩ := a
    unfold State.writePieces; split
    · rfl
    · have hk := fun (s : State) o w b => State.writePiece_kept s t c cmd h o w x b poison
      split
      · rename_i s1 q; have := congrArg (fun p => State.kept p.1) q; rw [ih]; exact this.symm.trans (hk ..)
      · exact hk ..

@[simp] theorem State.writeObj_kept (s : State) (t : ℕ) (c : ℕ) (cmd : ℕ) (h : ℕ) (off : ℕ) (bs : List Sys2Proof.Byte) (poison : Bool) (determinism : Bool) : (State.writeObj s t c cmd h off bs poison determinism).1.kept = s.kept :=
  by unfold State.writeObj; dsimp only; (repeat' split) <;> simp (disch := (intro s a; dsimp only; (repeat' split) <;> simp [State.kept_ite])) [foldl_kept, State.kept_ite]

@[simp] theorem State.writeRef_kept (s : State) (t : ℕ) (c : ℕ) (cmd : ℕ) (r : ℕ) (off : ℕ) (bs : List Sys2Proof.Byte) (poison : Bool) (determinism : Bool) : (State.writeRef s t c cmd r off bs poison determinism).1.kept = s.kept := by
  unfold State.writeRef; (try dsimp only); (repeat' split) <;> simp (disch := (intro s a; (try dsimp only); (repeat' split) <;> simp [State.kept_ite])) [foldl_kept, State.kept_ite]

@[simp] theorem State.poisonObj_kept (s : State) (t : ℕ) (h : ℕ) (off : ℕ) (n : ℕ) : (State.poisonObj s t h off n).kept = s.kept :=
  by unfold State.poisonObj; (repeat' split) <;> simp [State.kept_ite]

@[simp] theorem State.writeBackBlock_kept (s : State) (t : ℕ) (h : ℕ) (b : ℕ) (o : Obj) : (State.writeBackBlock s t h b o).kept = s.kept := by
  simp only [State.writeBackBlock]; (repeat' split) <;> simp (disch := (intro s a; (try dsimp only); (repeat' split) <;> simp [State.kept_ite])) [foldl_kept, State.kept_ite]

@[simp] theorem State.writeBackLine_kept (s : State) (t : ℕ) (h : ℕ) (line : ℕ) : (State.writeBackLine s t h line).kept = s.kept := by
  unfold State.writeBackLine; (try dsimp only); (repeat' split) <;> simp (disch := (intro s a; (try dsimp only); (repeat' split) <;> simp [State.kept_ite])) [foldl_kept, State.kept_ite]

@[simp] theorem State.writeBackAll_kept (s : State) (t : ℕ) (h : ℕ) : (State.writeBackAll s t h).kept = s.kept :=
  by unfold State.writeBackAll; (try dsimp only); (repeat' split) <;> simp (disch := (intro s a; (try dsimp only); (repeat' split) <;> simp [State.kept_ite])) [foldl_kept, State.kept_ite]

end Sys2Proof.Machine
end

