-- ==== Sys2Proof/Laws/KeptVector.lean ====
section
/-! SUPPORT. What tiers, the cores' commands, the vector engine, experts and reduction keep: the queue, the variant, the local counter and Steward's flash. -/
set_option linter.all false
namespace Sys2Proof.Machine

@[simp] theorem runAlloc_kept (s : State) (c : Cmd) : (runAlloc s c).kept = s.kept :=
  by unfold runAlloc; dsimp only; (repeat' split) <;> simp (disch := (intro s a; dsimp only; (repeat' split) <;> simp [State.kept_ite])) [foldl_kept, State.kept_ite]

@[simp] theorem tierReply_kept (s : State) (t h : Nat) (o : Obj) (id : Nat) : (tierReply s t h o id).kept = s.kept := by
  unfold tierReply; (repeat' split) <;> simp

@[simp] theorem tierReplies_kept (s : State) (t h f : Nat) : (tierReplies s t h f).kept = s.kept := by
  induction f generalizing s with
  | zero => rfl
  | succ f ih => unfold tierReplies; (repeat' split) <;> simp [ih]

@[simp] theorem tierSettle_kept (s : State) (t : ℕ) (h : ℕ) : (tierSettle s t h).kept = s.kept :=
  by unfold tierSettle; (repeat' split) <;> simp [State.kept_ite]

@[simp] theorem State.dropHolds_kept (s : State) (t c : Nat) : (State.dropHolds s t c).kept = s.kept := by
  unfold State.dropHolds
  refine foldl_kept _ _ _ ?_
  intro s h
  (repeat' split) <;> simp

theorem runTier_kept (op : Nat) (check : State → Cmd → Option Fail) (body : State → Cmd → State) (id : Nat) (s : State)
    (hb : ∀ s c, (body s c).kept = s.kept) : (runTier op check body id s).kept = s.kept := by
  unfold runTier; (repeat' split) <;> simp [runCoreless_kept, hb]

@[simp] theorem armStream_kept (s : State) (t : ℕ) (addr : ℕ) (kind : ℕ) (cmd : ℕ) (desc : List Sys2Proof.Byte) : (armStream s t addr kind cmd desc).kept = s.kept :=
  by unfold armStream; dsimp only; (repeat' split) <;> simp (disch := (intro s a; dsimp only; (repeat' split) <;> simp [State.kept_ite])) [foldl_kept, State.kept_ite]

@[simp] theorem State.touchStream_kept (s : State) (k : ℕ) : (State.touchStream s k).kept = s.kept := by
  unfold State.touchStream; (try dsimp only); (repeat' split) <;> simp (disch := (intro s a; (try dsimp only); (repeat' split) <;> simp [State.kept_ite])) [foldl_kept, State.kept_ite]

@[simp] theorem State.learnStreams_kept (s : State) (t : ℕ) : (State.learnStreams s t).kept = s.kept := by
  simp only [State.learnStreams]; (repeat' split) <;> simp (disch := (intro s a; (try dsimp only); (repeat' split) <;> simp [State.kept_ite])) [foldl_kept, State.kept_ite]

@[simp] theorem State.streams_kept (s : State) (c : Cmd) : (State.streams s c).kept = s.kept := by
  unfold State.streams; (try dsimp only); (repeat' split) <;> simp (disch := (intro s a; (try dsimp only); (repeat' split) <;> simp [State.kept_ite])) [foldl_kept, State.kept_ite]

@[simp] theorem State.stage_kept (s : State) (c : Cmd) (refs : List ℕ) : (State.stage s c refs).kept = s.kept := by
  simp only [State.stage]; (repeat' split) <;> simp (disch := (intro s a; (try dsimp only); (repeat' split) <;> simp [State.kept_ite])) [foldl_kept, State.kept_ite]

@[simp] theorem State.tierStalls_kept (s : State) (c : Cmd) : (State.tierStalls s c).kept = s.kept := by
  unfold State.tierStalls; (try dsimp only); (repeat' split) <;> simp (disch := (intro s a; (try dsimp only); (repeat' split) <;> simp [State.kept_ite])) [foldl_kept, State.kept_ite]

@[simp] theorem runPromote_kept (s : State) (c : Cmd) : (runPromote s c).kept = s.kept :=
  by simp [runPromote, State.kept_ite]

@[simp] theorem runEvict_kept (s : State) (c : Cmd) : (runEvict s c).kept = s.kept :=
  by simp [runEvict, State.kept_ite]

@[simp] theorem runPin_kept (s : State) (c : Cmd) : (runPin s c).kept = s.kept :=
  by simp [runPin, State.kept_ite]

@[simp] theorem runUnpin_kept (s : State) (c : Cmd) : (runUnpin s c).kept = s.kept :=
  by simp [runUnpin, State.kept_ite]

@[simp] theorem tierFailAll_kept (s : State) (t h : Nat) (why : Fail) (op f : Nat) : (tierFailAll s t h why op f).kept = s.kept := by
  induction f generalizing s with
  | zero => rfl
  | succ f ih =>
    unfold tierFailAll; split
    · rfl
    · split
      · rfl
      · dsimp only; rw [ih]; simp

@[simp] theorem raiseFail_kept (s : State) (t : ℕ) (h : ℕ) (why : Fail) : (raiseFail s t h why).kept = s.kept := by
  unfold raiseFail; (repeat' split) <;> simp

@[simp] theorem lowerFail_kept (s : State) (t : ℕ) (h : ℕ) (why : Fail) : (lowerFail s t h why).kept = s.kept := by
  unfold lowerFail; dsimp only; (repeat' split) <;> simp

@[simp] theorem State.dropReader_kept (s : State) (rd : ℕ) : (State.dropReader s rd).kept = s.kept := by
  unfold State.dropReader; (try dsimp only); (repeat' split) <;> simp (disch := (intro s a; (try dsimp only); (repeat' split) <;> simp [State.kept_ite])) [foldl_kept, State.kept_ite]

@[simp] theorem raiseTry_kept (t h k : Nat) (s : State) : (raiseTry t h k s).kept = s.kept := by
  induction k generalizing s with
  | zero => rfl
  | succ k ih =>
    unfold raiseTry; split
    · rfl
    · dsimp only; split
      · rfl
      · split
        · simp
        · split
          · have hk := fun (s : State) (l : List Fail) => foldl_kept (fun (s : State) f => s.seeTo t 0 (moveReader t h) f) l s (fun s a => by simp)
            split <;> simp [ih, hk]
          · simp

@[simp] theorem raiseComplete_kept (t : ℕ) (h : ℕ) (s : State) : (raiseComplete t h s).kept = s.kept :=
  by unfold raiseComplete; (repeat' split) <;> simp [State.kept_ite]

@[simp] theorem loweringComplete_kept (t : ℕ) (h : ℕ) (s : State) : (loweringComplete t h s).kept = s.kept :=
  by unfold loweringComplete; dsimp only; (repeat' split) <;> simp (disch := (intro s a; dsimp only; (repeat' split) <;> simp [State.kept_ite])) [foldl_kept, State.kept_ite]

@[simp] theorem putLines_kept (t c cmd r : Nat) (det : Bool) (off : Nat) (l : List (List Byte × Bool)) (s : State) :
    (putLines t c cmd r det off l s).1.kept = s.kept := by
  induction l generalizing s off with
  | nil => rfl
  | cons a l ih =>
    obtain ⟨bs, p⟩ := a
    unfold putLines
    have hk := State.writeRef_kept s t c cmd r off bs p det
    generalize s.writeRef t c cmd r off bs p det = r at hk ⊢
    obtain ⟨s1, o⟩ := r
    cases o <;> simp_all

@[simp] theorem runCopy_kept (s : State) (c : Cmd) : (runCopy s c).kept = s.kept := by
  unfold runCopy; dsimp only
  split
  all_goals (rename_i h; have hk := congrArg (fun p => State.kept p.1) h; rw [putLines_kept] at hk)
  · simpa using hk.symm
  · split <;> simpa using hk.symm

@[simp] theorem runFill_kept (s : State) (c : Cmd) : (runFill s c).kept = s.kept := by
  unfold runFill; dsimp only
  split <;> simp
  all_goals (rename_i h; have hk := congrArg (fun p => State.kept p.1) h; simpa using hk.symm)

@[simp] theorem runTierQuery_kept (s : State) (c : Cmd) : (runTierQuery s c).kept = s.kept := by
  unfold runTierQuery; (try dsimp only); (repeat' split) <;> simp (disch := (intro s a; (try dsimp only); (repeat' split) <;> simp [State.kept_ite])) [foldl_kept, State.kept_ite]

@[simp] theorem runHint_kept (s : State) (c : Cmd) : (runHint s c).kept = s.kept :=
  by unfold runHint; dsimp only; (repeat' split) <;> simp (disch := (intro s a; dsimp only; (repeat' split) <;> simp [State.kept_ite])) [foldl_kept, State.kept_ite]

@[simp] theorem trackerRetire_kept (slice : ℕ) (tracker : ℕ) (s : State) : (trackerRetire slice tracker s).kept = s.kept :=
  by unfold trackerRetire; dsimp only; (repeat' split) <;> simp (disch := (intro s a; dsimp only; (repeat' split) <;> simp [State.kept_ite])) [foldl_kept, State.kept_ite]

@[simp] theorem l2WriteBack_kept (t : ℕ) (h : ℕ) (line : ℕ) (s : State) : (l2WriteBack t h line s).kept = s.kept :=
  by unfold l2WriteBack; (repeat' split) <;> simp [State.kept_ite]

@[simp] theorem State.linkError_kept (s : State) (t h line : Nat) (o : Obj) : (s.linkError t h line o).kept = s.kept := by
  unfold State.linkError; dsimp only; rw [State.kept_mk, State.kept_eta]; simp

@[simp] theorem patrolScrub_kept (t : ℕ) (h : ℕ) (line : ℕ) (e : Sys2Proof.EccObs) (s : State) : (patrolScrub t h line e s).kept = s.kept :=
  by unfold patrolScrub; dsimp only; (repeat' split) <;> simp (disch := (intro s a; dsimp only; (repeat' split) <;> simp [State.kept_ite])) [foldl_kept, State.kept_ite]

@[simp] theorem State.poisonRanges_kept (s : State) (t : ℕ) (rs : Ranges) : (State.poisonRanges s t rs).kept = s.kept :=
  by unfold State.poisonRanges; (try dsimp only); (repeat' split) <;> simp (disch := (intro s a; (try dsimp only); (repeat' split) <;> simp [State.kept_ite])) [foldl_kept, State.kept_ite]

@[simp] theorem writeAll_kept (t c cmd : Nat) (det : Bool) (l : List (Nat × Nat × List Byte)) (s : State) :
    (writeAll t c cmd det l s).1.kept = s.kept := by
  induction l generalizing s with
  | nil => rfl
  | cons a l ih =>
    unfold writeAll
    have hk := State.writeRef_kept s t c cmd a.1 a.2.1 a.2.2 false det
    generalize s.writeRef t c cmd a.1 a.2.1 a.2.2 false det = r at hk ⊢
    obtain ⟨s1, o⟩ := r
    cases o <;> simp_all

@[simp] theorem State.chargeTime_kept (s : State) (c : Cmd) (die : ℕ) : (State.chargeTime s c die).kept = s.kept :=
  by simp [State.chargeTime, State.kept_ite]

@[simp] theorem State.releaseCore_kept (s : State) (c : Cmd) : (State.releaseCore s c).kept = s.kept :=
  by unfold State.releaseCore; (repeat' split) <;> simp [State.kept_ite]

@[simp] theorem State.coreFail_kept (s : State) (c : Cmd) (f : Fail) (outs : Ranges) : (State.coreFail s c f outs).kept = s.kept :=
  by simp [State.coreFail, State.kept_ite]

@[simp] theorem State.scratchRead_kept (s : State) (k : ℕ) : (State.scratchRead s k).2.kept = s.kept :=
  by unfold State.scratchRead; (try dsimp only); (repeat' split) <;> simp (disch := (intro s a; (try dsimp only); (repeat' split) <;> simp [State.kept_ite])) [foldl_kept, State.kept_ite]

@[simp] theorem State.shadow_kept (s : State) (k : ℕ) (n : ℕ) : (State.shadow s k n).2.kept = s.kept := by
  unfold State.shadow; (try dsimp only); (repeat' split) <;> simp (disch := (intro s a; (try dsimp only); (repeat' split) <;> simp [State.kept_ite])) [foldl_kept, State.kept_ite]

@[simp] theorem State.judge_kept (s : State) (c : Cmd) (verdict : Option Bool) (sampled : ℕ) : (State.judge s c verdict sampled).2.kept = s.kept := by
  unfold State.judge; (try dsimp only); (repeat' split) <;> simp (disch := (intro s a; (try dsimp only); (repeat' split) <;> simp [State.kept_ite])) [foldl_kept, State.kept_ite]

@[simp] theorem State.disagree_kept (s : State) (c : Cmd) (kind : ℕ) (outs : Ranges) (writes : List (ℕ × ℕ × List Sys2Proof.Byte)) : (State.disagree s c kind outs writes).kept = s.kept := by
  unfold State.disagree; (try dsimp only); (repeat' split) <;> simp (disch := (intro s a; (try dsimp only); (repeat' split) <;> simp [State.kept_ite])) [foldl_kept, State.kept_ite]

theorem State.coreEnd_kept (s : State) (c : Cmd) (w : Work) (outs : Ranges) (whole cut : State → State)
    (hw : ∀ s, (whole s).kept = s.kept) (hc : ∀ s, (cut s).kept = s.kept) : (s.coreEnd c w outs whole cut).kept = s.kept := by
  unfold State.coreEnd
  have h0 : (((s.streams c).tierStalls c).scratchRead (c.core.getD 0)).2.kept = s.kept := by simp
  generalize ((s.streams c).tierStalls c).scratchRead (c.core.getD 0) = x at h0 ⊢
  obtain ⟨bad, s0⟩ := x
  dsimp only at h0 ⊢
  split
  · simp [hc, h0]
  · have hj := State.judge_kept s0 c w.verdict w.sampled
    split
    · rename_i s1 q
      rw [q] at hj
      have hk := writeAll_kept c.tenant c.ctx c.id c.determinism w.writes s1
      split
      all_goals (rename_i q2; rw [q2] at hk; simp [hc, hw]; simpa [h0] using hk.trans hj)
    · rename_i s1 _ q
      rw [q] at hj
      simp [hc]; simpa [h0] using hj

@[simp] theorem State.waited_kept (s : State) (c : Cmd) (busy : ℕ) : (State.waited s c busy).2.kept = s.kept := by
  unfold State.waited; (try dsimp only); (repeat' split) <;> simp (disch := (intro s a; (try dsimp only); (repeat' split) <;> simp [State.kept_ite])) [foldl_kept, State.kept_ite]

theorem runCore_kept (op : Nat) (body : State → Cmd → State) (id : Nat) (s : State)
    (hb : ∀ s c, (body s c).kept = s.kept) : (runCore op body id s).kept = s.kept := by
  unfold runCore; (repeat' split) <;> simp [hb]

@[simp] theorem State.countArray_kept (s : State) (k : ℕ) (y : Cycles) (a b e : ℕ) : (State.countArray s k y a b e).kept = s.kept :=
  by simp [State.countArray]

@[simp] theorem State.countChain_kept (s : State) (k : ℕ) (c : Cmd) (rows : ℕ) (y : Cycles) (macs : ℕ) : (State.countChain s k c rows y macs).kept = s.kept :=
  by simp [State.countChain, State.kept_ite]

@[simp] theorem State.countEarly_kept (s : State) (c : Cmd) (rows limit : ℕ) : (State.countEarly s c rows limit).kept = s.kept :=
  by simp [State.countEarly]

@[simp] theorem State.countFailed_kept (s : State) (c : Cmd) (rows : ℕ) : (State.countFailed s c rows).kept = s.kept :=
  by simp [State.countFailed]

@[simp] theorem runChain_kept (s : State) (c : Cmd) : (runChain s c).kept = s.kept := by
  unfold runChain
  extract_lets outs
  split
  · simp
  · extract_lets rows y whole
    have hw : ∀ s, (whole s).kept = s.kept := fun s => by simp [whole]
    split
    · rfl
    · split
      · exact State.coreEnd_kept _ _ _ _ _ _ hw fun s => rfl
      · split
        · simp
        · rw [State.coreEnd_kept _ _ _ _ _ _ hw fun s => by simp]; rfl

@[simp] theorem State.veWriteRef_kept (s : State) (c : Cmd) (ref : ℕ) (off : ℕ) (bs : List Sys2Proof.Byte) : (State.veWriteRef s c ref off bs).1.kept = s.kept := by
  unfold State.veWriteRef; (try dsimp only); (repeat' split) <;> simp (disch := (intro s a; (try dsimp only); (repeat' split) <;> simp [State.kept_ite])) [foldl_kept, State.kept_ite]

@[simp] theorem veWrite_kept (c : Cmd) (b : ℕ × ℕ × Bool × Bool) (row : ℕ) (o : ℕ) (bs : List Sys2Proof.Byte) (s : State) : (veWrite c b row o bs s).1.kept = s.kept :=
  by unfold veWrite; (repeat' split) <;> simp [State.kept_ite]

@[simp] theorem veWrites_kept (c : Cmd) (b : Nat × Nat × Bool × Bool) (l : List (Nat × Nat × List Byte)) (s : State) :
    (veWrites c b l s).1.kept = s.kept := by
  induction l generalizing s with
  | nil => rfl
  | cons a l ih =>
    unfold veWrites
    have hk := veWrite_kept c b a.1 a.2.1 a.2.2 s
    generalize veWrite c b a.1 a.2.1 a.2.2 s = r at hk ⊢
    obtain ⟨s1, o⟩ := r
    cases o <;> simp_all

@[simp] theorem storeTile_kept (c : Cmd) (w : Sys2Proof.Dbl) (v : Ve) (s : State) : (storeTile c w v s).1.kept = s.kept :=
  by simp [storeTile, State.kept_ite]

@[simp] theorem storeMxRow_kept (c : Cmd) (w : Dbl) (v : Ve) (r : Nat) (s : State) : (storeMxRow c w v r s).1.kept = s.kept := by
  unfold storeMxRow; dsimp only
  split
  all_goals (rename_i s1 _ h; have hk := congrArg (fun p => State.kept p.1) h; rw [foldl_kept_fst] at hk)
  · exact hk.symm
  · intro a j; obtain ⟨a, o⟩ := a; cases o <;> dsimp only <;> (repeat' split) <;> simp
  · dsimp only at hk; split <;> simp [← hk]
  · intro a j; obtain ⟨a, o⟩ := a; cases o <;> dsimp only <;> (repeat' split) <;> simp

@[simp] theorem doStt_kept (c : Cmd) (w : Dbl) (v : Ve) (s : State) : (doStt c w v s).1.kept = s.kept := by
  unfold doStt; split
  · rw [foldl_kept_fst]; rintro ⟨a, o⟩ j; cases o <;> simp
  · simp

@[simp] theorem doSts_kept (c : Cmd) (w : Sys2Proof.Dbl) (v : Ve) (s : State) : (doSts c w v s).1.kept = s.kept :=
  by unfold doSts; dsimp only; (repeat' split) <;> simp (disch := (intro s a; dsimp only; (repeat' split) <;> simp [State.kept_ite])) [foldl_kept, State.kept_ite]

@[simp] theorem doSmx_kept (c : Cmd) (w : Dbl) (v : Ve) (s : State) : (doSmx c w v s).1.kept = s.kept := by
  unfold doSmx; dsimp only
  (repeat' split) <;> try simp
  all_goals (rename_i h; have hk := congrArg (fun p => State.kept p.1) h; simpa using hk.symm)

@[simp] theorem State.abandonRound_kept (s : State) (q : ℕ) : (State.abandonRound s q).kept = s.kept :=
  by unfold State.abandonRound; (repeat' split) <;> simp [State.kept_ite]

@[simp] theorem State.abandonRounds_kept (s : State) (p : Round → Bool) : (State.abandonRounds s p).kept = s.kept :=
  by unfold State.abandonRounds; (try dsimp only); (repeat' split) <;> simp (disch := (intro s a; (try dsimp only); (repeat' split) <;> simp [State.kept_ite])) [foldl_kept, State.kept_ite]

@[simp] theorem doCput_kept (q : ℕ) (c : Cmd) (w : Sys2Proof.Dbl) (v : Ve) (s : State) : (doCput q c w v s).kept = s.kept :=
  by simp [doCput, State.kept_ite]

@[simp] theorem cooperRoundTimeout_kept (q : ℕ) (s : State) : (cooperRoundTimeout q s).kept = s.kept :=
  by unfold cooperRoundTimeout; (repeat' split) <;> simp [State.kept_ite]

@[simp] theorem State.setVe_kept (s : State) (core : ℕ) (v : Ve) : (State.setVe s core v).kept = s.kept :=
  by simp [State.setVe, State.kept_ite]

@[simp] theorem State.veWaits_kept (s : State) (core : ℕ) (v : Ve) (c : Cmd) (ctr : ℕ) (base : ℕ) : (State.veWaits s core v c ctr base).2.kept = s.kept := by
  unfold State.veWaits; (try dsimp only); (repeat' split) <;> simp (disch := (intro s a; (try dsimp only); (repeat' split) <;> simp [State.kept_ite])) [foldl_kept, State.kept_ite]

theorem veStep_kept (fmt op : Nat) (taken : Ve → Bool) (body : Ve → Cmd → State → State) (core : Nat) (w : Dbl) (s : State)
    (hb : ∀ v c s, (body v c s).kept = s.kept) : (veStep fmt op taken body core w s).kept = s.kept := by
  unfold veStep; dsimp only; (repeat' split) <;> simp [hb]

@[simp] theorem vePure_kept (fmt op : Nat) (f : Dbl → Ve → Ve) (core : Nat) (w : Dbl) (s : State) : (vePure fmt op f core w s).kept = s.kept := by
  unfold vePure; apply veStep_kept; intro v c s; simp

@[simp] theorem veOpen_kept (fmt op n : Nat) (f : Nat → Dbl → Ve → Ve) (core : Nat) (w : Dbl) (s : State) : (veOpen fmt op n f core w s).kept = s.kept := by
  unfold veOpen; apply veStep_kept; intro v c s; simp

@[simp] theorem veFail_kept (v : Ve) (c : Cmd) (f : Fail) (s : State) : (veFail v c f s).kept = s.kept :=
  by simp [veFail, State.kept_ite]

theorem State.veReading_kept (s : State) (core : Nat) (step : State → State) (hs : ∀ s, (step s).kept = s.kept) :
    (s.veReading core step).kept = s.kept := by
  unfold State.veReading; split
  · exact reading_kept _ _ _ fun s _ => hs s
  · rfl

@[simp] theorem veLoad_kept (op : Nat) (f : State → Cmd → Dbl → Ve → Except Fail Ve) (core : Nat) (w : Dbl) (s : State) : (veLoad op f core w s).kept = s.kept := by
  unfold veLoad; refine State.veReading_kept _ _ _ fun s => veStep_kept _ _ _ _ _ _ _ fun v c s => ?_
  have h0 := State.veWaits_kept s core v c 0x20 0
  generalize s.veWaits core v c 0x20 0 = x at h0 ⊢
  dsimp only; split <;> simpa using h0

@[simp] theorem veStore_kept (op : Nat) (f : Cmd → Dbl → Ve → State → State × Option Fail) (core : Nat) (w : Dbl) (s : State)
    (hf : ∀ c w v s, (f c w v s).1.kept = s.kept) : (veStore op f core w s).kept = s.kept := by
  unfold veStore; refine State.veReading_kept _ _ _ fun s => veStep_kept _ _ _ _ _ _ _ fun v c s => ?_
  have hk := hf c w v s
  split
  all_goals (rename_i h; rw [h] at hk; simpa using hk)

@[simp] theorem veBranch_kept (op : Nat) (p : Dbl → Ve → Bool) (core : Nat) (w : Dbl) (s : State) : (veBranch op p core w s).kept = s.kept := by
  unfold veBranch; apply veStep_kept; intro v c s; simp

@[simp] theorem veSmx_kept (core : Nat) (w : Dbl) (s : State) : (veSmx core w s).kept = s.kept := by
  unfold veSmx; refine State.veReading_kept _ _ _ fun s => veStep_kept _ _ _ _ _ _ _ fun v c s => ?_
  have h0 := State.veWaits_kept s core v c 0x20 0
  generalize s.veWaits core v c 0x20 0 = x at h0 ⊢
  have hk := doSmx_kept c w x.1 x.2
  dsimp only; split
  all_goals (rename_i h; rw [h] at hk; simpa [h0] using hk)

@[simp] theorem veCput_kept (core : Nat) (w : Dbl) (s : State) : (veCput core w s).kept = s.kept := by
  unfold veCput; dsimp only
  (repeat' split) <;> first | rfl | (apply veStep_kept; intro v c s; (repeat' split) <;> simp)

@[simp] theorem veCget_kept (core : Nat) (w : Dbl) (s : State) : (veCget core w s).kept = s.kept := by
  unfold veCget; dsimp only
  (repeat' split) <;> first | rfl | (apply veStep_kept; intro v c s; (repeat' split) <;> simp)

@[simp] theorem veFinish_kept (v : Ve) (c : Cmd) (s : State) : (veFinish v c s).kept = s.kept :=
  State.coreEnd_kept _ _ _ _ _ _ (fun _ => rfl) fun _ => rfl

@[simp] theorem veEnd_kept (core : Nat) (w : Dbl) (s : State) : (veEnd core w s).kept = s.kept := by
  unfold veEnd; refine State.veReading_kept _ _ _ fun s => ?_
  split
  · split
    · simp
    · exact veStep_kept _ _ _ _ _ _ _ fun v c s => by simp
  · rfl

@[simp] theorem veLoop_kept (core : Nat) (w : Dbl) (s : State) : (veLoop core w s).kept = s.kept := by
  unfold veLoop; apply veStep_kept; intro v c s; simp

@[simp] theorem runVectorLoad_kept (s : State) (c : Cmd) : (runVectorLoad s c).kept = s.kept :=
  by unfold runVectorLoad; dsimp only; (repeat' split) <;> simp (disch := (intro s a; dsimp only; (repeat' split) <;> simp [State.kept_ite])) [foldl_kept, State.kept_ite]

@[simp] theorem runVectorRun_kept (s : State) (c : Cmd) : (runVectorRun s c).kept = s.kept :=
  by simp [runVectorRun, State.kept_ite]

@[simp] theorem runSample_kept (s : State) (c : Cmd) : (runSample s c).kept = s.kept := by
  unfold runSample
  extract_lets outs
  split
  · simp
  · split
    · simp
    · exact (State.coreEnd_kept _ _ _ _ _ _ (fun _ => rfl) fun _ => rfl).trans rfl

@[simp] theorem runGather_kept (s : State) (c : Cmd) : (runGather s c).kept = s.kept := by
  unfold runGather
  split
  · simp
  · exact State.coreEnd_kept _ _ _ _ _ _ (fun _ => rfl) fun _ => rfl

@[simp] theorem State.postTo_kept (s : State) (c : Cmd) (i : Import) (off : ℕ) (bs : List Sys2Proof.Byte) (poison : Bool) : (State.postTo s c i off bs poison).kept = s.kept :=
  by simp [State.postTo, State.kept_ite]

@[simp] theorem State.postRun_kept (s : State) (c : Cmd) (i : Import) (off : Nat) (l : List (List Byte × Bool)) :
    (s.postRun c i off l).kept = s.kept := by
  induction l generalizing s off with
  | nil => rfl
  | cons a l ih => unfold State.postRun; rw [ih]; simp

@[simp] theorem State.signalPeer_kept (s : State) (c : Cmd) (i : Import) : (s.signalPeer c i).kept = s.kept := by
  unfold State.signalPeer; split
  · rfl
  · dsimp only; split
    · rw [State.loopIn_kept]; rfl
    · rw [State.send_kept]; rfl

@[simp] theorem sendCount_kept (c : Cmd) (i : Import) (n : ℕ) (s : State) : (sendCount c i n s).kept = s.kept :=
  by simp [sendCount, State.kept_ite]

@[simp] theorem sendPoisoned_kept (c : Cmd) (i : Import) (pos : ℕ) (s : State) : (sendPoisoned c i pos s).kept = s.kept :=
  by simp [sendPoisoned, State.kept_ite]

@[simp] theorem signalAll_kept (c : Cmd) (is : List Import) (s : State) : (signalAll c is s).kept = s.kept :=
  by unfold signalAll; (try dsimp only); (repeat' split) <;> simp (disch := (intro s a; (try dsimp only); (repeat' split) <;> simp [State.kept_ite])) [foldl_kept, State.kept_ite]

@[simp] theorem sendNothing_kept (s : State) (c : Cmd) (faulty : Bool) : (sendNothing s c faulty).kept = s.kept := by
  unfold sendNothing; dsimp only
  rw [signalAll_kept]
  split
  · split
    · exact foldl_kept _ _ _ fun s t => by split <;> simp
    · rfl
  · exact foldl_kept _ _ _ fun s i => by simp

@[simp] theorem sendRow_kept (s0 : State) (c : Cmd) (i : Import) (src pos : Nat) (a : Sending) :
    (sendRow s0 c i src pos a).1.kept = a.1.kept := by
  obtain ⟨s, n, bad, o⟩ := a
  unfold sendRow
  cases o
  · dsimp only; split <;> simp
  · rfl

@[simp] theorem sendPeer_kept (s0 : State) (c : Cmd) (ts : List Travel) (p : Nat) (i : Import) (a : Sending) :
    (sendPeer s0 c ts p i a).1.kept = a.1.kept := by
  unfold sendPeer
  extract_lets mine r
  have hr : r.1.kept = a.1.kept := foldl_kept_fst _ _ _ fun b m => by
    split
    · rfl
    · rename_i t _
      have hk := sendRow_kept s0 c i t.src (c.rsSelf * c.rsR + m) b
      dsimp only
      split
      · rename_i h; rw [h] at hk; simpa using hk
      · exact hk
  clear_value r
  obtain ⟨s1, n, b, o⟩ := r
  cases o <;> (dsimp only at hr ⊢; simpa using hr)

@[simp] theorem runRowsSend_kept (s : State) (c : Cmd) : (runRowsSend s c).kept = s.kept := by
  unfold runRowsSend
  split
  · simp
  · extract_lets peer r
    have hk : r.1.kept = s.kept := by
      unfold r; split
      · rw [foldl_kept_fst]; rintro ⟨a, n, b, o⟩ j
        cases o
        · have hk := sendRow_kept s c (peer j.peer) j.src (j.row * c.rsK + j.rank) (a, n, b, none)
          dsimp only
          split
          · rename_i h; rw [h] at hk; simpa using hk
          · exact hk
        · simp
      · rw [foldl_kept_fst]; intro b p; exact sendPeer_kept _ _ _ _ _ _
    clear_value r
    obtain ⟨s1, n, b, o⟩ := r
    cases o <;> (dsimp only at hk ⊢; simp [hk])

theorem runRouter_kept (op : Nat) (check : State → Cmd → Option Fail) (body : State → Cmd → State) (id : Nat) (s : State)
    (hb : ∀ s c, (body s c).kept = s.kept) : (runRouter op check body id s).kept = s.kept := by
  unfold runRouter; (repeat' split) <;> simp [runCoreless_kept, hb]

@[simp] theorem combineRow_kept (s0 : State) (c : Cmd) (routed : List Bool) (i k e : Nat) (s : State) (bad : Ranges) :
    (combineRow s0 c routed i k e s bad).1.kept = s.kept := by
  induction k generalizing s e bad with
  | zero => rfl
  | succ k ih =>
    unfold combineRow
    split
    · rfl
    · rw [ih]
    · rename_i bs _
      have hk := State.writeRef_kept s c.tenant c.ctx c.id (c.p 16 8) ((i * c.rcN + e) * c.rcOutBytes) bs false c.determinism
      generalize s.writeRef c.tenant c.ctx c.id (c.p 16 8) ((i * c.rcN + e) * c.rcOutBytes) bs false c.determinism = r at hk ⊢
      obtain ⟨s1, o⟩ := r
      cases o <;> simp_all

@[simp] theorem combineRows_kept (s0 : State) (c : Cmd) (l : List Nat) (s : State) (bad : Ranges) :
    (combineRows s0 c l s bad).1.kept = s.kept := by
  induction l generalizing s bad with
  | nil => rfl
  | cons i l ih =>
    unfold combineRows
    split
    · rfl
    · rename_i routed _
      have hk := combineRow_kept s0 c routed i (c.rcN / 16) 0 s bad
      generalize combineRow s0 c routed i (c.rcN / 16) 0 s bad = r at hk ⊢
      obtain ⟨s1, o, b⟩ := r
      cases o <;> simp_all

@[simp] theorem runRowsCombine_kept (s : State) (c : Cmd) : (runRowsCombine s c).kept = s.kept := by
  unfold runRowsCombine; dsimp only
  (repeat' split) <;> simp
  all_goals (rename_i h; have hk := congrArg (fun p => State.kept p.1) h; simpa using hk.symm)

@[simp] theorem State.countReduce_kept (s : State) (c : Cmd) : (State.countReduce s c).kept = s.kept := by
  unfold State.countReduce; (try dsimp only); (repeat' split) <;> simp (disch := (intro s a; (try dsimp only); (repeat' split) <;> simp [State.kept_ite])) [foldl_kept, State.kept_ite]

@[simp] theorem State.countReduceCut_kept (s : State) (c : Cmd) : (State.countReduceCut s c).kept = s.kept :=
  by simp [State.countReduceCut]

@[simp] theorem runReduce_kept (s : State) (c : Cmd) : (runReduce s c).kept = s.kept := by
  unfold runReduce
  split
  · rfl
  · split
    · simp
    · exact State.coreEnd_kept _ _ _ _ _ _ (fun s => by simp) (fun s => by simp)
    · rename_i ws bad _ _
      have hk := writeAll_kept c.tenant c.ctx c.id c.determinism (reduceSound c bad ws) s
      split
      all_goals (rename_i h; rw [h] at hk; simpa using hk)

end Sys2Proof.Machine
end

