-- ==== Sys2Proof/Laws/KeptFabric.lean ====
section
/-! SUPPORT. What recording, the fabric and tokens keep: the queue, the variant, the local counter and Steward's flash. -/
set_option linter.all false
namespace Sys2Proof.Machine

@[simp] theorem State.countCut_kept (s : State) (c : Cmd) : (State.countCut s c).kept = s.kept :=
  by unfold State.countCut; (repeat' split) <;> simp [State.kept_ite]

@[simp] theorem State.failRunning_kept (s : State) (c : Cmd) (f : Fail) : (State.failRunning s c f).kept = s.kept :=
  by simp [State.failRunning, State.kept_ite]

@[simp] theorem State.putHeader_kept (s : State) (t : ℕ) (c : ℕ) (r : Recording) (state : ℕ) : (State.putHeader s t c r state).kept = s.kept :=
  by simp [State.putHeader, State.kept_ite]

@[simp] theorem State.setRecording_kept (s : State) (t : ℕ) (c : ℕ) (r : Option Recording) : (State.setRecording s t c r).kept = s.kept :=
  by simp [State.setRecording, State.kept_ite]

@[simp] theorem State.record_kept (s : State) (t : ℕ) (c : ℕ) (kind : ℕ) (payload : List Sys2Proof.Byte) (poison : Bool) : (State.record s t c kind payload poison).kept = s.kept :=
  by unfold State.record; (repeat' split) <;> simp [State.kept_ite]

@[simp] theorem State.stopRecording_kept (s : State) (t : ℕ) (c : ℕ) : (State.stopRecording s t c).kept = s.kept :=
  by unfold State.stopRecording; (repeat' split) <;> simp [State.kept_ite]

@[simp] theorem State.recordInbound_kept (s : State) (e : Export) (src : ℕ) (off : ℕ) (data : List Sys2Proof.Byte) (poison : Bool) : (State.recordInbound s e src off data poison).kept = s.kept :=
  by simp [State.recordInbound, State.kept_ite]

@[simp] theorem State.recordSignal_kept (s : State) (e : Export) (src : ℕ) (off : ℕ) (token : ℕ) : (State.recordSignal s e src off token).kept = s.kept :=
  by simp [State.recordSignal, State.kept_ite]

@[simp] theorem State.recordFronthaul_kept (s : State) (cell : ℕ) (payload : List Sys2Proof.Byte) : (State.recordFronthaul s cell payload).kept = s.kept :=
  by unfold State.recordFronthaul; (try dsimp only); (repeat' split) <;> simp (disch := (intro s a; (try dsimp only); (repeat' split) <;> simp [State.kept_ite])) [foldl_kept, State.kept_ite]

@[simp] theorem runRecordStart_kept (s : State) (c : Cmd) : (runRecordStart s c).kept = s.kept :=
  by simp [runRecordStart, State.kept_ite]

@[simp] theorem runRecordStop_kept (s : State) (c : Cmd) : (runRecordStop s c).kept = s.kept :=
  by simp [runRecordStop, State.kept_ite]

@[simp] theorem runSeedSet_kept (s : State) (c : Cmd) : (runSeedSet s c).kept = s.kept :=
  by simp [runSeedSet, State.kept_ite]

@[simp] theorem runStepRead_kept (s : State) (c : Cmd) : (runStepRead s c).kept = s.kept :=
  by simp [runStepRead, State.kept_ite]

@[simp] theorem State.setExport_kept (s : State) (n : ℕ) (e : Option Export) : (State.setExport s n e).kept = s.kept :=
  by simp [State.setExport, State.kept_ite]

@[simp] theorem State.setImport_kept (s : State) (n : ℕ) (i : Option Import) : (State.setImport s n i).kept = s.kept :=
  by simp [State.setImport, State.kept_ite]

@[simp] theorem State.setOut_kept (s : State) (n : ℕ) (x : Option StreamOut) : (State.setOut s n x).kept = s.kept :=
  by simp [State.setOut, State.kept_ite]

@[simp] theorem State.dropExport_kept (s : State) (num : ℕ) : (State.dropExport s num).kept = s.kept := by
  unfold State.dropExport; (try dsimp only); (repeat' split) <;> simp (disch := (intro s a; (try dsimp only); (repeat' split) <;> simp [State.kept_ite])) [foldl_kept, State.kept_ite]

@[simp] theorem State.revoke_kept (s : State) (num : ℕ) (id : ℕ) : (State.revoke s num id).kept = s.kept :=
  by unfold State.revoke; (repeat' split) <;> simp [State.kept_ite]

@[simp] theorem settleFree_kept (s : State) (c : Cmd) : (settleFree s c).kept = s.kept :=
  by simp [settleFree, State.kept_ite]

theorem State.fromMember_kept (s : State) (node : Nat) (f : State → State) (hf : ∀ s, (f s).kept = s.kept) : (s.fromMember node f).kept = s.kept := by
  unfold State.fromMember; (repeat' split) <;> simp [hf]

@[simp] theorem State.endFence_kept (s : State) (c : Cmd) (status : ℕ) (node : ℕ) : (State.endFence s c status node).kept = s.kept :=
  by simp [State.endFence, State.kept_ite]

@[simp] theorem settleFence_kept (s : State) (c : Cmd) : (settleFence s c).kept = s.kept :=
  by simp [settleFence, State.kept_ite]

@[simp] theorem runFence_kept (s : State) (c : Cmd) : (runFence s c).kept = s.kept :=
  by simp [runFence, State.kept_ite]

@[simp] theorem fenceTimeout_kept (id : ℕ) (s : State) : (fenceTimeout id s).kept = s.kept :=
  by unfold fenceTimeout; (repeat' split) <;> simp [State.kept_ite]

@[simp] theorem runRegionExport_kept (s : State) (c : Cmd) : (runRegionExport s c).kept = s.kept :=
  by unfold runRegionExport; dsimp only; (repeat' split) <;> simp (disch := (intro s a; dsimp only; (repeat' split) <;> simp [State.kept_ite])) [foldl_kept, State.kept_ite]

@[simp] theorem runRegionImport_kept (s : State) (c : Cmd) : (runRegionImport s c).kept = s.kept := by
  unfold runRegionImport; (try dsimp only); (repeat' split) <;> simp (disch := (intro s a; (try dsimp only); (repeat' split) <;> simp [State.kept_ite])) [foldl_kept, State.kept_ite]

@[simp] theorem importProbeTimeout_kept (id : ℕ) (s : State) : (importProbeTimeout id s).kept = s.kept :=
  by unfold importProbeTimeout; (repeat' split) <;> simp [State.kept_ite]

@[simp] theorem probeAnswer_kept (s : State) (c : Cmd) (r : Sys2Proof.FabAnswer) : (probeAnswer s c r).kept = s.kept :=
  by unfold probeAnswer; (repeat' split) <;> simp [State.kept_ite]

@[simp] theorem State.lineArrives_kept (s : State) (o : Outstanding) (data : List Sys2Proof.Byte) (poison : Bool) (node : ℕ) : (State.lineArrives s o data poison node).kept = s.kept := by
  unfold State.lineArrives; (try dsimp only); (repeat' split) <;> simp (disch := (intro s a; (try dsimp only); (repeat' split) <;> simp [State.kept_ite])) [foldl_kept, State.kept_ite]

@[simp] theorem State.readFails_kept (s : State) (o : Outstanding) (cause : ℕ) : (State.readFails s o cause).kept = s.kept := by
  unfold State.readFails; (try dsimp only); (repeat' split) <;> simp (disch := (intro s a; (try dsimp only); (repeat' split) <;> simp [State.kept_ite])) [foldl_kept, State.kept_ite]

@[simp] theorem State.answerFor_kept (s : State) (o : Outstanding) (r : Sys2Proof.FabAnswer) : (State.answerFor s o r).kept = s.kept := by
  unfold State.answerFor; (try dsimp only); (repeat' split) <;> simp (disch := (intro s a; (try dsimp only); (repeat' split) <;> simp [State.kept_ite])) [foldl_kept, State.kept_ite]

@[simp] theorem loadResponse_kept (r : FabAnswer) (s : State) : (loadResponse r s).kept = s.kept := by
  unfold loadResponse
  exact State.fromMember_kept _ _ _ fun s => by (repeat' split) <;> simp

@[simp] theorem settleRevoke_kept (s : State) (c : Cmd) : (settleRevoke s c).kept = s.kept :=
  by simp [settleRevoke, State.kept_ite]

@[simp] theorem runRegionRevoke_kept (s : State) (c : Cmd) : (runRegionRevoke s c).kept = s.kept :=
  by unfold runRegionRevoke; dsimp only; (repeat' split) <;> simp (disch := (intro s a; dsimp only; (repeat' split) <;> simp [State.kept_ite])) [foldl_kept, State.kept_ite]

@[simp] theorem transferHome_kept (s : State) (c : Cmd) (num : ℕ) (e : Export) : (transferHome s c num e).kept = s.kept :=
  by simp [transferHome, State.kept_ite]

@[simp] theorem transferImport_kept (s : State) (c : Cmd) (num : ℕ) (i : Import) : (transferImport s c num i).kept = s.kept :=
  by unfold transferImport; (try dsimp only); (repeat' split) <;> simp (disch := (intro s a; (try dsimp only); (repeat' split) <;> simp [State.kept_ite])) [foldl_kept, State.kept_ite]

@[simp] theorem transferAsk_kept (s : State) (c : Cmd) (i : Import) : (transferAsk s c i).kept = s.kept := by
  unfold transferAsk; (try dsimp only); (repeat' split) <;> simp (disch := (intro s a; (try dsimp only); (repeat' split) <;> simp [State.kept_ite])) [foldl_kept, State.kept_ite]

@[simp] theorem transferGo_kept (s : State) (c : Cmd) : (transferGo s c).kept = s.kept := by
  unfold transferGo; (try dsimp only); (repeat' split) <;> simp (disch := (intro s a; (try dsimp only); (repeat' split) <;> simp [State.kept_ite])) [foldl_kept, State.kept_ite]

@[simp] theorem settleTransfer_kept (s : State) (c : Cmd) : (settleTransfer s c).kept = s.kept :=
  by unfold settleTransfer; dsimp only; (repeat' split) <;> simp (disch := (intro s a; dsimp only; (repeat' split) <;> simp [State.kept_ite])) [foldl_kept, State.kept_ite]

@[simp] theorem runTransfer_kept (s : State) (c : Cmd) : (runTransfer s c).kept = s.kept :=
  by unfold runTransfer; (repeat' split) <;> simp [State.kept_ite]

@[simp] theorem State.undoHanding_kept (s : State) (num : ℕ) : (State.undoHanding s num).kept = s.kept := by
  unfold State.undoHanding; (try dsimp only); (repeat' split) <;> simp (disch := (intro s a; (try dsimp only); (repeat' split) <;> simp [State.kept_ite])) [foldl_kept, State.kept_ite]

@[simp] theorem transferTimeout_kept (id : ℕ) (s : State) : (transferTimeout id s).kept = s.kept := by
  unfold transferTimeout; (try dsimp only); (repeat' split) <;> simp (disch := (intro s a; (try dsimp only); (repeat' split) <;> simp [State.kept_ite])) [foldl_kept, State.kept_ite]

@[simp] theorem State.keepPending_kept (s : State) (f : Outstanding → Bool) : (State.keepPending s f).kept = s.kept := by
  unfold State.keepPending; (try dsimp only); (repeat' split) <;> simp (disch := (intro s a; (try dsimp only); (repeat' split) <;> simp [State.kept_ite])) [foldl_kept, State.kept_ite]

@[simp] theorem State.holdRefusal_kept (s : State) (t : ℕ) (c : ℕ) (kind : Sys2Proof.RefusalKind) : (State.holdRefusal s t c kind).kept = s.kept :=
  by simp [State.holdRefusal, State.kept_ite]

@[simp] theorem State.holdOpen_kept (s : State) : (State.holdOpen s).kept = s.kept := by
  unfold State.holdOpen; (try dsimp only); (repeat' split) <;> simp (disch := (intro s a; (try dsimp only); (repeat' split) <;> simp [State.kept_ite])) [foldl_kept, State.kept_ite]

@[simp] theorem State.leavePartition_kept (s : State) : (State.leavePartition s).kept = s.kept := by
  unfold State.leavePartition; (try dsimp only); (repeat' split) <;> simp (disch := (intro s a; (try dsimp only); (repeat' split) <;> simp [State.kept_ite])) [foldl_kept, State.kept_ite]

@[simp] theorem settleOne_kept (s : State) (id : ℕ) : (settleOne s id).kept = s.kept :=
  by unfold settleOne; (repeat' split) <;> simp [State.kept_ite]

@[simp] theorem State.settle_kept (s : State) : (State.settle s).kept = s.kept :=
  by unfold State.settle; (try dsimp only); (repeat' split) <;> simp (disch := (intro s a; (try dsimp only); (repeat' split) <;> simp [State.kept_ite])) [foldl_kept, State.kept_ite]

@[simp] theorem State.answer_kept (s : State) (p : Sys2Proof.FabPkt) (kind : SentKind) (data : List Sys2Proof.Byte) (poison : Bool) : (State.answer s p kind data poison).kept = s.kept :=
  by simp [State.answer, State.kept_ite]

@[simp] theorem State.rejectKey_kept (s : State) (p : Sys2Proof.FabPkt) : (State.rejectKey s p).kept = s.kept :=
  by simp [State.rejectKey, State.kept_ite]

@[simp] theorem State.rejectOwner_kept (s : State) (p : Sys2Proof.FabPkt) : (State.rejectOwner s p).kept = s.kept :=
  by simp [State.rejectOwner, State.kept_ite]

@[simp] theorem State.acknowledge_kept (s : State) (p : Sys2Proof.FabPkt) : (State.acknowledge s p).kept = s.kept :=
  by simp [State.acknowledge, State.kept_ite]

@[simp] theorem State.regionWrite_kept (s : State) (e : Export) (p : Sys2Proof.FabPkt) : (State.regionWrite s e p).kept = s.kept :=
  by unfold State.regionWrite; (repeat' split) <;> simp [State.kept_ite]

@[simp] theorem State.regionAtomic_kept (s : State) (e : Export) (p : Sys2Proof.FabPkt) : (State.regionAtomic s e p).kept = s.kept :=
  by unfold State.regionAtomic; (repeat' split) <;> simp [State.kept_ite]

@[simp] theorem homeLoad_kept (s : State) (p : Sys2Proof.FabPkt) : (homeLoad s p).kept = s.kept :=
  by unfold homeLoad; (repeat' split) <;> simp [State.kept_ite]

@[simp] theorem State.completeRegion_kept (s : State) (num : ℕ) (e : Export) : (State.completeRegion s num e).kept = s.kept :=
  by unfold State.completeRegion; dsimp only; (repeat' split) <;> simp (disch := (intro s a; dsimp only; (repeat' split) <;> simp [State.kept_ite])) [foldl_kept, State.kept_ite]

@[simp] theorem State.inbound_kept (s : State) (e : Export) (p : Sys2Proof.FabPkt) : (State.inbound s e p).kept = s.kept :=
  by simp [State.inbound, State.kept_ite]

@[simp] theorem homeWrite_kept (s : State) (busy : Bool) (p : Sys2Proof.FabPkt) : (homeWrite s busy p).kept = s.kept :=
  by unfold homeWrite; (repeat' split) <;> simp [State.kept_ite]

@[simp] theorem homeOwner_kept (s : State) (p : Sys2Proof.FabPkt) (b : ℕ) : (homeOwner s p b).kept = s.kept :=
  by unfold homeOwner; (repeat' split) <;> simp [State.kept_ite]

@[simp] theorem homeProbe_kept (s : State) (p : Sys2Proof.FabPkt) (rights : ℕ) : (homeProbe s p rights).kept = s.kept :=
  by unfold homeProbe; (repeat' split) <;> simp [State.kept_ite]

@[simp] theorem homeRelease_kept (s : State) (p : Sys2Proof.FabPkt) : (homeRelease s p).kept = s.kept :=
  by unfold homeRelease; (repeat' split) <;> simp [State.kept_ite]

@[simp] theorem takeNotice_kept (s : State) (p : Sys2Proof.FabPkt) (owner : ℕ) : (takeNotice s p owner).kept = s.kept := by
  unfold takeNotice; (try dsimp only); (repeat' split) <;> simp (disch := (intro s a; (try dsimp only); (repeat' split) <;> simp [State.kept_ite])) [foldl_kept, State.kept_ite]

@[simp] theorem takeWriteBackAsk_kept (s : State) (p : FabPkt) : (takeWriteBackAsk s p).kept = s.kept := by
  unfold takeWriteBackAsk; split
  · simp
  · extract_lets one
    rw [State.acknowledge_kept]
    exact foldl_kept _ _ _ fun s n => by unfold one; split <;> simp [foldl_kept]

@[simp] theorem homeEffect_kept (s : State) (busy : Bool) (q : HomeOp) : (homeEffect s busy q).kept = s.kept :=
  by unfold homeEffect; (repeat' split) <;> simp [State.kept_ite]

@[simp] theorem State.leaveIngress_kept (s : State) (kind : HomeKind) (p : Sys2Proof.FabPkt) : (State.leaveIngress s kind p).kept = s.kept := by
  unfold State.leaveIngress; (try dsimp only); (repeat' split) <;> simp (disch := (intro s a; (try dsimp only); (repeat' split) <;> simp [State.kept_ite])) [foldl_kept, State.kept_ite]

@[simp] theorem State.setInto_kept (s : State) (src : ℕ) (x : StreamIn) : (State.setInto s src x).kept = s.kept :=
  by simp [State.setInto, State.kept_ite]

@[simp] theorem applyHome_kept (s : State) (q : HomeOp) : (applyHome s q).kept = s.kept := by
  simp [applyHome, State.kept_ite]

@[simp] theorem takeHome_kept (s : State) (q : HomeOp) : (takeHome s q).1.kept = s.kept :=
  by unfold takeHome; dsimp only; (repeat' split) <;> simp (disch := (intro s a; dsimp only; (repeat' split) <;> simp [State.kept_ite])) [foldl_kept, State.kept_ite]

@[simp] theorem drainReorder_kept (k src : Nat) (s : State) : (drainReorder k src s).kept = s.kept := by
  induction k generalizing s with
  | zero => rfl
  | succ k ih =>
    unfold drainReorder; dsimp only
    split
    · rfl
    · split
      all_goals (rename_i h; have hk := congrArg (fun p => State.kept p.1) h)
      · rw [ih]; simpa using hk.symm
      · simpa using hk.symm

@[simp] theorem State.openStream_kept (s : State) (p : Sys2Proof.FabPkt) : (State.openStream s p).kept = s.kept :=
  by simp [State.openStream, State.kept_ite]

@[simp] theorem sequence_kept (kind : HomeKind) (arg : Nat) (p : FabPkt) (s : State) : (sequence kind arg p s).kept = s.kept := by
  unfold sequence
  extract_lets s0 x q d out
  have h0 : s0.kept = s.kept := by simp [s0]
  have ho : ∀ s, (out s).kept = s.kept := fun s => by simp [out]
  have ht := takeHome_kept s0 q
  repeat' split
  all_goals first
    | (rename_i h; rw [h] at ht; simpa [h0] using ht)
    | exact (State.send_kept ..).trans ((State.bump_kept ..).trans ((ho _).trans h0))
    | simp [ho, h0]

@[simp] theorem arrive_kept (kind : HomeKind) (arg : ℕ) (p : Sys2Proof.FabPkt) (s : State) : (arrive kind arg p s).kept = s.kept := by
  unfold arrive; (try dsimp only); (repeat' split) <;> simp (disch := (intro s a; (try dsimp only); (repeat' split) <;> simp [State.kept_ite])) [foldl_kept, State.kept_ite]

@[simp] theorem admitHeld_kept (s : State) (unit : ℕ) (q : HomeOp) : (admitHeld s unit q).kept = s.kept := by
  unfold admitHeld; (try dsimp only); (repeat' split) <;> simp (disch := (intro s a; (try dsimp only); (repeat' split) <;> simp [State.kept_ite])) [foldl_kept, State.kept_ite]

@[simp] theorem homeEntryAdmit_kept (unit : ℕ) (s : State) : (homeEntryAdmit unit s).kept = s.kept :=
  by unfold homeEntryAdmit; (repeat' split) <;> simp [State.kept_ite]

@[simp] theorem State.revokeRegion_kept (s : State) (num : ℕ) (id : ℕ) : (State.revokeRegion s num id).kept = s.kept := by
  unfold State.revokeRegion; (try dsimp only); (repeat' split) <;> simp (disch := (intro s a; (try dsimp only); (repeat' split) <;> simp [State.kept_ite])) [foldl_kept, State.kept_ite]

@[simp] theorem revokeAccepted_kept (s : State) (c : Cmd) : (revokeAccepted s c).kept = s.kept :=
  by simp [revokeAccepted, State.kept_ite]

@[simp] theorem runFree_kept (s : State) (c : Cmd) : (runFree s c).kept = s.kept :=
  by unfold runFree; (try dsimp only); (repeat' split) <;> simp (disch := (intro s a; (try dsimp only); (repeat' split) <;> simp [State.kept_ite])) [foldl_kept, State.kept_ite]

@[simp] theorem answered_kept (s : State) (o : Outstanding) : (answered s o).kept = s.kept := by
  unfold answered; (try dsimp only); (repeat' split) <;> simp (disch := (intro s a; (try dsimp only); (repeat' split) <;> simp [State.kept_ite])) [foldl_kept, State.kept_ite]

@[simp] theorem acknowledgement_kept (node epoch seq : Nat) (s : State) : (acknowledgement node epoch seq s).kept = s.kept := by
  unfold acknowledgement
  exact State.fromMember_kept _ _ _ fun s => by
    split
    · rfl
    · split
      · rfl
      · dsimp only; rw [State.settle_kept, foldl_kept _ _ _ fun s o => by simp]; simp

@[simp] theorem refused_kept (s : State) (o : Outstanding) (kind : Sys2Proof.RefusalKind) : (refused s o kind).kept = s.kept := by
  unfold refused; (try dsimp only); (repeat' split) <;> simp (disch := (intro s a; (try dsimp only); (repeat' split) <;> simp [State.kept_ite])) [foldl_kept, State.kept_ite]

@[simp] theorem refusal_kept (node epoch seq : Nat) (kind : RefusalKind) (s : State) : (refusal node epoch seq kind s).kept = s.kept := by
  unfold refusal
  exact State.fromMember_kept _ _ _ fun s => by
    split
    · rfl
    · split
      · rfl
      · dsimp only; rw [State.settle_kept, foldl_kept _ _ _ fun s o => by simp]; simp

@[simp] theorem State.sendAgain_kept (s : State) (node : ℕ) (o : Outstanding) : (State.sendAgain s node o).kept = s.kept := by
  unfold State.sendAgain; (try dsimp only); (repeat' split) <;> simp (disch := (intro s a; (try dsimp only); (repeat' split) <;> simp [State.kept_ite])) [foldl_kept, State.kept_ite]

@[simp] theorem resend_kept (node : ℕ) (s : State) : (resend node s).kept = s.kept :=
  by unfold resend; (try dsimp only); (repeat' split) <;> simp (disch := (intro s a; (try dsimp only); (repeat' split) <;> simp [State.kept_ite])) [foldl_kept, State.kept_ite]

@[simp] theorem State.loseNode_kept (s : State) (t : ℕ) (c : ℕ) (node : ℕ) : (State.loseNode s t c node).kept = s.kept :=
  by simp [State.loseNode, State.kept_ite]

@[simp] theorem State.breakWaits_kept (s : State) (node : ℕ) : (State.breakWaits s node).kept = s.kept :=
  by simp [State.breakWaits, State.kept_ite]

@[simp] theorem streamBreak_kept (node : ℕ) (s : State) : (streamBreak node s).kept = s.kept :=
  by unfold streamBreak; (try dsimp only); (repeat' split) <;> simp (disch := (intro s a; (try dsimp only); (repeat' split) <;> simp [State.kept_ite])) [foldl_kept, State.kept_ite]

@[simp] theorem revokeWriteBackTimeout_kept (id : ℕ) (s : State) : (revokeWriteBackTimeout id s).kept = s.kept :=
  by unfold revokeWriteBackTimeout; (try dsimp only); (repeat' split) <;> simp (disch := (intro s a; (try dsimp only); (repeat' split) <;> simp [State.kept_ite])) [foldl_kept, State.kept_ite]

@[simp] theorem State.setToken_kept (s : State) (t : ℕ) (k : ℕ) (n : ℕ) : (State.setToken s t k n).kept = s.kept :=
  by simp [State.setToken, State.kept_ite]

@[simp] theorem State.signalToken_kept (s : State) (t : ℕ) (k : ℕ) (n : ℕ) : (State.signalToken s t k n).kept = s.kept :=
  by simp [State.signalToken, State.kept_ite]

@[simp] theorem State.takeTokens_kept (s : State) (c : Cmd) : (State.takeTokens s c).kept = s.kept :=
  by unfold State.takeTokens; (try dsimp only); (repeat' split) <;> simp (disch := (intro s a; (try dsimp only); (repeat' split) <;> simp [State.kept_ite])) [foldl_kept, State.kept_ite]

@[simp] theorem State.giveSignals_kept (s : State) (c : Cmd) : (State.giveSignals s c).kept = s.kept :=
  by unfold State.giveSignals; (try dsimp only); (repeat' split) <;> simp (disch := (intro s a; (try dsimp only); (repeat' split) <;> simp [State.kept_ite])) [foldl_kept, State.kept_ite]

@[simp] theorem runTokenSignal_kept (s : State) (c : Cmd) : (runTokenSignal s c).kept = s.kept :=
  by unfold runTokenSignal; (try dsimp only); (repeat' split) <;> simp (disch := (intro s a; (try dsimp only); (repeat' split) <;> simp [State.kept_ite])) [foldl_kept, State.kept_ite]

@[simp] theorem runTokenWait_kept (s : State) (c : Cmd) : (runTokenWait s c).kept = s.kept :=
  by simp [runTokenWait, State.kept_ite]

@[simp] theorem tokenWaitTimeout_kept (id : ℕ) (s : State) : (tokenWaitTimeout id s).kept = s.kept :=
  by unfold tokenWaitTimeout; (repeat' split) <;> simp [State.kept_ite]

@[simp] theorem fenceWaits_kept (s : State) : (fenceWaits s).kept = s.kept :=
  by unfold fenceWaits; (try dsimp only); (repeat' split) <;> simp (disch := (intro s a; (try dsimp only); (repeat' split) <;> simp [State.kept_ite])) [foldl_kept, State.kept_ite]

@[simp] theorem State.fenceSelf_kept (s : State) : (State.fenceSelf s).kept = s.kept :=
  by unfold State.fenceSelf; (try dsimp only); (repeat' split) <;> simp (disch := (intro s a; (try dsimp only); (repeat' split) <;> simp [State.kept_ite])) [foldl_kept, State.kept_ite]

@[simp] theorem leaseExpiry_kept (s : State) : (leaseExpiry s).kept = s.kept :=
  by unfold leaseExpiry; (repeat' split) <;> simp [State.kept_ite]

@[simp] theorem runLeaseSet_kept (s : State) (c : Cmd) : (runLeaseSet s c).kept = s.kept :=
  by simp [runLeaseSet, State.kept_ite]

@[simp] theorem countLease_kept (id : Nat) (before s : State) : (countLease id before s).kept = s.kept := by
  unfold countLease; (repeat' split) <;> simp

@[simp] theorem leaseForwardTimeout_kept (id : ℕ) (s : State) : (leaseForwardTimeout id s).kept = s.kept :=
  by unfold leaseForwardTimeout; (repeat' split) <;> simp [State.kept_ite]

@[simp] theorem State.present_kept (s : State) (p : ℕ) : (State.present s p).kept = s.kept := by
  unfold State.present; (try dsimp only); (repeat' split) <;> simp (disch := (intro s a; (try dsimp only); (repeat' split) <;> simp [State.kept_ite])) [foldl_kept, State.kept_ite]

@[simp] theorem runJoin_kept (s : State) (c : Cmd) : (runJoin s c).kept = s.kept :=
  by unfold runJoin; (try dsimp only); (repeat' split) <;> simp (disch := (intro s a; (try dsimp only); (repeat' split) <;> simp [State.kept_ite])) [foldl_kept, State.kept_ite]

@[simp] theorem runRoutes_kept (s : State) (c : Cmd) : (runRoutes s c).kept = s.kept :=
  by simp [runRoutes, State.kept_ite]

@[simp] theorem detachAccepted_kept (s : State) (c : Cmd) : (detachAccepted s c).kept = s.kept :=
  by unfold detachAccepted; (try dsimp only); (repeat' split) <;> simp (disch := (intro s a; (try dsimp only); (repeat' split) <;> simp [State.kept_ite])) [foldl_kept, State.kept_ite]

@[simp] theorem runPartitionSet_kept (s : State) (c : Cmd) : (runPartitionSet s c).kept = s.kept :=
  by unfold runPartitionSet; (repeat' split) <;> simp [State.kept_ite]

@[simp] theorem State.movePort_kept (s : State) (p : ℕ) (y : WfPort) : (State.movePort s p y).kept = s.kept :=
  by simp [State.movePort, State.kept_ite]

@[simp] theorem State.dropPort_kept (s : State) (p : Nat) (y : WfPort) : (s.dropPort p y).kept = s.kept := by
  unfold State.dropPort; dsimp only
  rw [foldl_kept _ _ _ fun s e => foldl_kept _ _ _ fun s q => by simp]; simp

@[simp] theorem portTraining_kept (p : ℕ) (n : Sys2Proof.Neighbour) (s : State) : (portTraining p n s).kept = s.kept :=
  by simp [portTraining, State.kept_ite]

@[simp] theorem portDown_kept (p : ℕ) (cause : Sys2Proof.DownCause) (s : State) : (portDown p cause s).kept = s.kept :=
  by unfold portDown; (try dsimp only); (repeat' split) <;> simp (disch := (intro s a; (try dsimp only); (repeat' split) <;> simp (disch := (intro s a; (try dsimp only); (repeat' split) <;> simp [State.kept_ite])) [foldl_kept, State.kept_ite])) [foldl_kept, State.kept_ite]

@[simp] theorem portRetrain_kept (p : ℕ) (s : State) : (portRetrain p s).kept = s.kept :=
  by simp [portRetrain, State.kept_ite]

@[simp] theorem fencedPortRetry_kept (p : ℕ) (s : State) : (fencedPortRetry p s).kept = s.kept :=
  by simp [fencedPortRetry, State.kept_ite]

@[simp] theorem State.transit_kept (s : State) (port : ℕ) (q : ℕ × ℕ × ℕ × ℕ) : (State.transit s port q).kept = s.kept :=
  by simp [State.transit, State.kept_ite]

@[simp] theorem linkFrameReceive_kept (p : ℕ) (f : Sys2Proof.LinkFrame) (s : State) : (linkFrameReceive p f s).kept = s.kept :=
  by unfold linkFrameReceive; (try dsimp only); (repeat' split) <;> simp (disch := (intro s a; (try dsimp only); (repeat' split) <;> simp [State.kept_ite])) [foldl_kept, State.kept_ite]

@[simp] theorem linkFrameTransmit_kept (p : ℕ) (s : State) : (linkFrameTransmit p s).kept = s.kept :=
  by unfold linkFrameTransmit; dsimp only; (repeat' split) <;> simp (disch := (intro s a; dsimp only; (repeat' split) <;> simp [State.kept_ite])) [foldl_kept, State.kept_ite]

@[simp] theorem receiveArrival_kept (s : State) (num : ℕ) (e : Export) (token : ℕ) : (receiveArrival s num e token).1.kept = s.kept :=
  by unfold receiveArrival; (repeat' split) <;> simp [State.kept_ite]

@[simp] theorem State.remoteFail_kept (s : State) (t : ℕ) (ctx : ℕ) (op : ℕ) (f : Fail) : (State.remoteFail s t ctx op f).kept = s.kept :=
  by simp [State.remoteFail, State.kept_ite]

@[simp] theorem receiveSignal_kept (p : FabPkt) (token after : Nat) (s : State) : (receiveSignal p token after s).kept = s.kept := by
  unfold receiveSignal; dsimp only
  (repeat' split) <;> try simp
  all_goals (rename_i h; have hk := congrArg (fun p => State.kept p.1) h; simpa using hk.symm)

@[simp] theorem ownOperation_kept (o : Outstanding) (s : State) : (ownOperation o s).kept = s.kept := by
  unfold ownOperation; (try dsimp only); (repeat' split) <;> simp (disch := (intro s a; (try dsimp only); (repeat' split) <;> simp [State.kept_ite])) [foldl_kept, State.kept_ite]

@[simp] theorem State.deliverOwn_kept (s : State) : (State.deliverOwn s).kept = s.kept := by
  unfold State.deliverOwn; (try dsimp only); (repeat' split) <;> simp (disch := (intro s a; (try dsimp only); (repeat' split) <;> simp [State.kept_ite])) [foldl_kept, State.kept_ite]

end Sys2Proof.Machine
end

