-- ==== Sys2Proof/Laws/KeptContexts.lean ====
section
/-! SUPPORT. What tenants, units, the dispatcher, replay and serving keep: the queue, the variant, the local counter and Steward's flash. -/
set_option linter.all false
namespace Sys2Proof.Machine

@[simp] theorem State.setSub_kept (s : State) (n : ℕ) (p : SubPort) : (State.setSub s n p).kept = s.kept :=
  by simp [State.setSub, State.kept_ite]

@[simp] theorem State.queueFrame_kept (s : State) (n : ℕ) (q : ℕ) (length : ℕ) (bytes : List Sys2Proof.Byte) : (State.queueFrame s n q length bytes).kept = s.kept :=
  by simp [State.queueFrame, State.kept_ite]

@[simp] theorem State.unbindQueue_kept (s : State) (n : ℕ) (q : ℕ) : (State.unbindQueue s n q).kept = s.kept :=
  by simp [State.unbindQueue, State.kept_ite]

@[simp] theorem State.unbindTenant_kept (s : State) (t : ℕ) : (State.unbindTenant s t).kept = s.kept :=
  by unfold State.unbindTenant; (try dsimp only); (repeat' split) <;> simp (disch := (intro s a; (try dsimp only); (repeat' split) <;> simp (disch := (intro s a; (try dsimp only); (repeat' split) <;> simp [State.kept_ite])) [foldl_kept, State.kept_ite])) [foldl_kept, State.kept_ite]

@[simp] theorem State.capture_kept (s : State) (src : ℕ) (second : Bool) (data : ℕ) : (State.capture s src second data).kept = s.kept :=
  by simp [State.capture, State.kept_ite]

@[simp] theorem State.captureFrame_kept (s : State) (n : ℕ) (sent : Bool) (etherType : ℕ) (data : ℕ) : (State.captureFrame s n sent etherType data).kept = s.kept :=
  by simp [State.captureFrame, State.kept_ite]

@[simp] theorem State.moveLink_kept (s : State) (n : ℕ) (up : Bool) : (State.moveLink s n up).kept = s.kept :=
  by simp [State.moveLink, State.kept_ite]

@[simp] theorem State.setCq_kept (s : State) (die : ℕ) (n : ℕ) : (State.setCq s die n).kept = s.kept :=
  by simp [State.setCq, State.kept_ite]

@[simp] theorem State.freeEntry_kept (s : State) (c : Cmd) : (State.freeEntry s c).kept = s.kept :=
  by unfold State.freeEntry; (repeat' split) <;> simp [State.kept_ite]

@[simp] theorem State.noCore_kept (s : State) (c : Cmd) : (State.noCore s c).kept = s.kept := by
  unfold State.noCore; (try dsimp only); (repeat' split) <;> simp (disch := (intro s a; (try dsimp only); (repeat' split) <;> simp [State.kept_ite])) [foldl_kept, State.kept_ite]

@[simp] theorem State.sweepPlacement_kept (s : State) : (State.sweepPlacement s).kept = s.kept :=
  by unfold State.sweepPlacement; (try dsimp only); (repeat' split) <;> simp (disch := (intro s a; (try dsimp only); (repeat' split) <;> simp [State.kept_ite])) [foldl_kept, State.kept_ite]

@[simp] theorem State.seat_kept (s : State) (k : ℕ) (c : Cmd) : (State.seat s k c).kept = s.kept := by
  unfold State.seat; (try dsimp only); (repeat' split) <;> simp (disch := (intro s a; (try dsimp only); (repeat' split) <;> simp [State.kept_ite])) [foldl_kept, State.kept_ite]

@[simp] theorem State.unseat_kept (s : State) (c : Cmd) : (State.unseat s c).kept = s.kept := by
  unfold State.unseat; (try dsimp only); (repeat' split) <;> simp (disch := (intro s a; (try dsimp only); (repeat' split) <;> simp [State.kept_ite])) [foldl_kept, State.kept_ite]

@[simp] theorem State.letGo_kept (s : State) (held : List (ℕ × ℕ)) : (State.letGo s held).kept = s.kept := by
  unfold State.letGo; (try dsimp only); (repeat' split) <;> simp (disch := (intro s a; (try dsimp only); (repeat' split) <;> simp [State.kept_ite])) [foldl_kept, State.kept_ite]

@[simp] theorem State.removeSequence_kept (s : State) (t : ℕ) (c : ℕ) (q : Sequence) : (State.removeSequence s t c q).kept = s.kept :=
  by simp [State.removeSequence, State.kept_ite]

@[simp] theorem State.endSequence_kept (s : State) (t : ℕ) (c : ℕ) (q : Sequence) (status : ℕ) (end_ : ℕ) (cause : ℕ) : (State.endSequence s t c q status end_ cause).kept = s.kept :=
  by simp [State.endSequence, State.kept_ite]

@[simp] theorem State.endSequences_kept (s : State) (t : ℕ) (c : ℕ) (status : ℕ) (end_ : ℕ) (cause : ℕ) : (State.endSequences s t c status end_ cause).kept = s.kept :=
  by unfold State.endSequences; (try dsimp only); (repeat' split) <;> simp (disch := (intro s a; (try dsimp only); (repeat' split) <;> simp [State.kept_ite])) [foldl_kept, State.kept_ite]

@[simp] theorem failStep_kept (s : State) (t : ℕ) (c : ℕ) (status : ℕ) (cause : ℕ) : (failStep s t c status cause).kept = s.kept :=
  by simp [failStep, State.kept_ite]

@[simp] theorem State.cancelSequences_kept (s : State) (t : ℕ) (c : ℕ) (stepLives : Bool) : (State.cancelSequences s t c stepLives).kept = s.kept :=
  by unfold State.cancelSequences; (try dsimp only); (repeat' split) <;> simp (disch := (intro s a; (try dsimp only); (repeat' split) <;> simp [State.kept_ite])) [foldl_kept, State.kept_ite]

@[simp] theorem State.dropResidency_kept (s : State) (p : Resident → Bool) : (State.dropResidency s p).kept = s.kept :=
  by simp [State.dropResidency, State.kept_ite]

@[simp] theorem State.endReplay_kept (s : State) (t : ℕ) (c : ℕ) : (State.endReplay s t c).kept = s.kept :=
  by unfold State.endReplay; (repeat' split) <;> simp [State.kept_ite]

@[simp] theorem State.clearArrivals_kept (s : State) (t : ℕ) (c : ℕ) : (State.clearArrivals s t c).kept = s.kept :=
  by simp [State.clearArrivals, State.kept_ite]

@[simp] theorem State.clearTier_kept (s : State) (t : ℕ) (c : ℕ) : (State.clearTier s t c).kept = s.kept := by
  unfold State.clearTier; (try dsimp only); (repeat' split) <;> simp (disch := (intro s a; (try dsimp only); (repeat' split) <;> simp [State.kept_ite])) [foldl_kept, State.kept_ite]

@[simp] theorem runContextOpen_kept (s : State) (c : Cmd) : (runContextOpen s c).kept = s.kept :=
  by simp [runContextOpen, State.kept_ite]

@[simp] theorem openAccepted_kept (s : State) (c : Cmd) : (openAccepted s c).kept = s.kept :=
  by simp [openAccepted, State.kept_ite]

@[simp] theorem closeAccepted_kept (s : State) (c : Cmd) : (closeAccepted s c).kept = s.kept :=
  by simp [closeAccepted, State.kept_ite]

@[simp] theorem settleClose_kept (s : State) (c : Cmd) : (settleClose s c).kept = s.kept :=
  by simp [settleClose, State.kept_ite]

@[simp] theorem runContextClose_kept (s : State) (c : Cmd) : (runContextClose s c).kept = s.kept :=
  by simp [runContextClose, State.kept_ite]

@[simp] theorem resetAccepted_kept (s : State) (c : Cmd) : (resetAccepted s c).kept = s.kept :=
  by simp [resetAccepted, State.kept_ite]

@[simp] theorem settleReset_kept (s : State) (c : Cmd) : (settleReset s c).kept = s.kept :=
  by simp [settleReset, State.kept_ite]

@[simp] theorem settleReplay_kept (s : State) (c : Cmd) : (settleReplay s c).kept = s.kept :=
  by unfold settleReplay; (repeat' split) <;> simp [State.kept_ite]

@[simp] theorem State.settleContexts_kept (s : State) : (State.settleContexts s).kept = s.kept :=
  by unfold State.settleContexts; (try dsimp only); (repeat' split) <;> simp (disch := (intro s a; (try dsimp only); (repeat' split) <;> simp [State.kept_ite])) [foldl_kept, State.kept_ite]

@[simp] theorem State.teardown_kept (s : State) (n : ℕ) : (State.teardown s n).kept = s.kept :=
  by unfold State.teardown; (try dsimp only); (repeat' split) <;> simp (disch := (intro s a; (try dsimp only); (repeat' split) <;> simp [State.kept_ite])) [foldl_kept, State.kept_ite]

@[simp] theorem State.flr_kept (s : State) (n : ℕ) : (State.flr s n).kept = s.kept :=
  by simp [State.flr, State.kept_ite]

@[simp] theorem State.unprovision_kept (s : State) (n : ℕ) : (State.unprovision s n).kept = s.kept :=
  by simp [State.unprovision, State.kept_ite]

@[simp] theorem virtualFunctionFlr_kept (fn : ℕ) (s : State) : (virtualFunctionFlr fn s).kept = s.kept :=
  by simp [virtualFunctionFlr, State.kept_ite]

@[simp] theorem runTenantProvision_kept (s : State) (c : Cmd) : (runTenantProvision s c).kept = s.kept :=
  by simp [runTenantProvision, State.kept_ite]

@[simp] theorem heartbeatExpiry_kept (t : ℕ) (s : State) : (heartbeatExpiry t s).kept = s.kept :=
  by unfold heartbeatExpiry; (try dsimp only); (repeat' split) <;> simp (disch := (intro s a; (try dsimp only); (repeat' split) <;> simp [State.kept_ite])) [foldl_kept, State.kept_ite]

@[simp] theorem State.cellsHoldover_kept (s : State) : (State.cellsHoldover s).kept = s.kept :=
  by simp [State.cellsHoldover, State.kept_ite]

@[simp] theorem State.hostLoss_kept (s : State) : (State.hostLoss s).kept = s.kept :=
  by unfold State.hostLoss; (try dsimp only); (repeat' split) <;> simp (disch := (intro s a; (try dsimp only); (repeat' split) <;> simp (disch := (intro s a; (try dsimp only); (repeat' split) <;> simp [State.kept_ite])) [foldl_kept, State.kept_ite])) [foldl_kept, State.kept_ite]

@[simp] theorem State.clearVfs_kept (s : State) : (State.clearVfs s).kept = s.kept :=
  by unfold State.clearVfs; (try dsimp only); (repeat' split) <;> simp (disch := (intro s a; (try dsimp only); (repeat' split) <;> simp [State.kept_ite])) [foldl_kept, State.kept_ite]

@[simp] theorem surpriseDown_kept (s : State) : (surpriseDown s).kept = s.kept :=
  by simp [surpriseDown, State.kept_ite]

@[simp] theorem holdoverExpiry_kept (s : State) : (holdoverExpiry s).kept = s.kept :=
  by unfold holdoverExpiry; (repeat' split) <;> simp [State.kept_ite]

@[simp] theorem linkReturn_kept (s : State) : (linkReturn s).kept = s.kept :=
  by unfold linkReturn; (try dsimp only); (repeat' split) <;> simp (disch := (intro s a; (try dsimp only); (repeat' split) <;> simp [State.kept_ite])) [foldl_kept, State.kept_ite]

@[simp] theorem State.quarantineCore_kept (s : State) (k : ℕ) (sticky : Bool) : (State.quarantineCore s k sticky).kept = s.kept :=
  by simp [State.quarantineCore, State.kept_ite]

@[simp] theorem State.testCore_kept (s : State) (t : Sys2Proof.SelfTest) (k : ℕ) : (State.testCore s t k).kept = s.kept :=
  by simp [State.testCore, State.kept_ite]

@[simp] theorem State.testSc_kept (s : State) (t : Sys2Proof.SelfTest) (n : ℕ) : (State.testSc s t n).kept = s.kept :=
  by simp [State.testSc, State.kept_ite]

@[simp] theorem State.testCluster_kept (s : State) (t : Sys2Proof.SelfTest) (k : ℕ) : (State.testCluster s t k).kept = s.kept :=
  by unfold State.testCluster; (try dsimp only); (repeat' split) <;> simp (disch := (intro s a; (try dsimp only); (repeat' split) <;> simp [State.kept_ite])) [foldl_kept, State.kept_ite]

@[simp] theorem State.testEngines_kept (s : State) (t : Sys2Proof.SelfTest) : (State.testEngines s t).kept = s.kept :=
  by unfold State.testEngines; (try dsimp only); (repeat' split) <;> simp (disch := (intro s a; (try dsimp only); (repeat' split) <;> simp [State.kept_ite])) [foldl_kept, State.kept_ite]

@[simp] theorem State.trainChannels_kept (s : State) (t : Sys2Proof.SelfTest) (die : ℕ) : (State.trainChannels s t die).kept = s.kept :=
  by simp [State.trainChannels, State.kept_ite]

@[simp] theorem State.powerUp_kept (s : State) (t : Sys2Proof.SelfTest) (d : ℕ) : (State.powerUp s t d).kept = s.kept :=
  by unfold State.powerUp; (try dsimp only); (repeat' split) <;> simp (disch := (intro s a; (try dsimp only); (repeat' split) <;> simp [State.kept_ite])) [foldl_kept, State.kept_ite]

@[simp] theorem State.coreOff_kept (s : State) (k : ℕ) : (State.coreOff s k).kept = s.kept :=
  by simp [State.coreOff, State.kept_ite]

@[simp] theorem State.clusterOff_kept (s : State) (k : ℕ) : (State.clusterOff s k).kept = s.kept :=
  by unfold State.clusterOff; (try dsimp only); (repeat' split) <;> simp (disch := (intro s a; (try dsimp only); (repeat' split) <;> simp [State.kept_ite])) [foldl_kept, State.kept_ite]

@[simp] theorem State.powerOff_kept (s : State) (d : Nat) : (s.powerOff d).kept = s.kept := by
  unfold State.powerOff
  extract_lets objs back r u back2 r2 u2 y z s1
  have hr : r.kept = s.kept := foldl_kept _ _ _ fun s e => by unfold back; (repeat' split) <;> simp
  have hu : u.kept = s.kept := by simp [u, hr]
  have hr2 : r2.kept = s.kept := foldl_kept _ _ _ fun s e => by unfold back2; (repeat' split) <;> simp
  have hu2 : u2.kept = s.kept := by simp [u2, hr2]
  have hy : y.kept = s.kept := by simp [y]
  have h1 : s1.kept = s.kept := by
    unfold s1; split
    · rw [foldl_kept _ _ _ fun s k => by simp]; simp
    · split
      · exact hu
      · exact hu2
      · exact foldl_kept _ _ _ fun s k => by simp
      · exact foldl_kept _ _ _ fun s k => by simp
      · exact hy
      · rfl
      · exact foldl_kept _ _ _ fun s k => by split <;> simp
      · rfl
  exact h1

@[simp] theorem State.grant_kept (s : State) (c : Cmd) : (State.grant s c).kept = s.kept :=
  by simp [State.grant, State.kept_ite]

@[simp] theorem commandGrant_kept (id : ℕ) (s : State) : (commandGrant id s).kept = s.kept :=
  by unfold commandGrant; (repeat' split) <;> simp [State.kept_ite]

@[simp] theorem State.bringIn_kept (s : State) (k : ℕ) (t : ℕ) (c : ℕ) : (State.bringIn s k t c).kept = s.kept :=
  by unfold State.bringIn; (repeat' split) <;> simp [State.kept_ite]

@[simp] theorem spillEnd_kept (k : ℕ) (s : State) : (spillEnd k s).kept = s.kept :=
  by unfold spillEnd; dsimp only; (repeat' split) <;> simp (disch := (intro s a; dsimp only; (repeat' split) <;> simp [State.kept_ite])) [foldl_kept, State.kept_ite]

@[simp] theorem fillEnd_kept (k : ℕ) (s : State) : (fillEnd k s).kept = s.kept :=
  by unfold fillEnd; dsimp only; (repeat' split) <;> simp (disch := (intro s a; dsimp only; (repeat' split) <;> simp [State.kept_ite])) [foldl_kept, State.kept_ite]

@[simp] theorem State.startOn_kept (s : State) (k : ℕ) (c : Cmd) : (State.startOn s k c).kept = s.kept :=
  by unfold State.startOn; (repeat' split) <;> simp [State.kept_ite]

@[simp] theorem State.settleOn_kept (s : State) (k : ℕ) (c : Cmd) : (State.settleOn s k c).kept = s.kept := by
  unfold State.settleOn; (try dsimp only); (repeat' split) <;> simp (disch := (intro s a; (try dsimp only); (repeat' split) <;> simp [State.kept_ite])) [foldl_kept, State.kept_ite]

@[simp] theorem State.place_kept (s : State) (k : ℕ) (c : Cmd) : (State.place s k c).kept = s.kept :=
  by unfold State.place; (repeat' split) <;> simp [State.kept_ite]

@[simp] theorem State.startRadio_kept (s : State) (k : ℕ) (r : RadioCmd) : (State.startRadio s k r).kept = s.kept :=
  by simp [State.startRadio, State.kept_ite]

@[simp] theorem commandStart_kept (k : ℕ) (s : State) : (commandStart k s).kept = s.kept := by
  unfold commandStart; (try dsimp only); (repeat' split) <;> simp (disch := (intro s a; (try dsimp only); (repeat' split) <;> simp [State.kept_ite])) [foldl_kept, State.kept_ite]

@[simp] theorem slotGuardLimit_kept (k : ℕ) (s : State) : (slotGuardLimit k s).kept = s.kept :=
  by unfold slotGuardLimit; (repeat' split) <;> simp [State.kept_ite]

@[simp] theorem contextWatchdog_kept (id : ℕ) (s : State) : (contextWatchdog id s).kept = s.kept :=
  by unfold contextWatchdog; (repeat' split) <;> simp [State.kept_ite]

@[simp] theorem radioCommandIssue_kept (cell : ℕ) (ns : ℕ) (disagree : Bool) (s : State) : (radioCommandIssue cell ns disagree s).kept = s.kept :=
  by simp [radioCommandIssue, State.kept_ite]

@[simp] theorem State.radioDispute_kept (s : State) (k : ℕ) : (State.radioDispute s k).kept = s.kept :=
  by simp [State.radioDispute, State.kept_ite]

@[simp] theorem State.postRadio_kept (s : State) (die : ℕ) (r : RadioCmd) (k : ℕ) : (State.postRadio s die r k).kept = s.kept :=
  by simp [State.postRadio, State.kept_ite]

@[simp] theorem State.programDone_kept (s : State) (c : Cmd) : (State.programDone s c).kept = s.kept := by
  unfold State.programDone; (try dsimp only); (repeat' split) <;> simp (disch := (intro s a; (try dsimp only); (repeat' split) <;> simp [State.kept_ite])) [foldl_kept, State.kept_ite]

@[simp] theorem State.answerLease_kept (s : State) (c : Cmd) : (State.answerLease s c).kept = s.kept :=
  by simp [State.answerLease, State.kept_ite]

@[simp] theorem State.postCmd_kept (s : State) (c : Cmd) : (State.postCmd s c).kept = s.kept :=
  by simp [State.postCmd, State.kept_ite]

@[simp] theorem completionPost_kept (die : ℕ) (s : State) : (completionPost die s).kept = s.kept :=
  by unfold completionPost; dsimp only; (repeat' split) <;> simp (disch := (intro s a; dsimp only; (repeat' split) <;> simp [State.kept_ite])) [foldl_kept, State.kept_ite]

@[simp] theorem runRadioReserve_kept (s : State) (c : Cmd) : (runRadioReserve s c).kept = s.kept :=
  by simp [runRadioReserve, State.kept_ite]

@[simp] theorem State.unresolved_kept (s : State) (c : Cmd) (k : ℕ) (replay : ℕ) (kind : ℕ) : (State.unresolved s c k replay kind).kept = s.kept :=
  by simp [State.unresolved, State.kept_ite]

@[simp] theorem State.resolved_kept (s : State) (c : Cmd) (outcome : ℕ) (k : ℕ) (replay : ℕ) (kind : ℕ) : (State.resolved s c outcome k replay kind).kept = s.kept :=
  by simp [State.resolved, State.kept_ite]

@[simp] theorem State.suspectCore_kept (s : State) (k : ℕ) : (State.suspectCore s k).kept = s.kept :=
  by simp [State.suspectCore, State.kept_ite]

@[simp] theorem State.startReplay_kept (s : State) (c : Cmd) (k : ℕ) (j : ℕ) : (State.startReplay s c k j).kept = s.kept := by
  unfold State.startReplay; (try dsimp only); (repeat' split) <;> simp (disch := (intro s a; (try dsimp only); (repeat' split) <;> simp [State.kept_ite])) [foldl_kept, State.kept_ite]

@[simp] theorem State.settleReplay_kept (s : State) (c : Cmd) (k : ℕ) (j : ℕ) (kind : ℕ) (o : Sys2Proof.ReplayObs) : (State.settleReplay s c k j kind o).kept = s.kept := by
  simp [State.settleReplay, State.kept_ite]

@[simp] theorem replay_kept (id : ℕ) (o : Sys2Proof.ReplayObs) (s : State) : (replay id o s).kept = s.kept :=
  by unfold replay; dsimp only; (repeat' split) <;> simp (disch := (intro s a; dsimp only; (repeat' split) <;> simp [State.kept_ite])) [foldl_kept, State.kept_ite]

@[simp] theorem State.setBarrier_kept (s : State) (b : ℕ) (x : Barrier) : (State.setBarrier s b x).kept = s.kept :=
  by simp [State.setBarrier, State.kept_ite]

@[simp] theorem State.sideband_kept (s : State) (p : ℕ) (kind : SentKind) (number : ℕ) (data : List Sys2Proof.Byte) : (State.sideband s p kind number data).kept = s.kept :=
  by simp [State.sideband, State.kept_ite]

@[simp] theorem State.sendRelease_kept (s : State) (b : ℕ) (remaining : ℤ) : (State.sendRelease s b remaining).kept = s.kept :=
  by unfold State.sendRelease; (try dsimp only); (repeat' split) <;> simp (disch := (intro s a; (try dsimp only); (repeat' split) <;> simp [State.kept_ite])) [foldl_kept, State.kept_ite]

@[simp] theorem State.passArm_kept (s : State) (b : ℕ) : (State.passArm s b).kept = s.kept :=
  by unfold State.passArm; dsimp only; (repeat' split) <;> simp (disch := (intro s a; dsimp only; (repeat' split) <;> simp [State.kept_ite])) [foldl_kept, State.kept_ite]

@[simp] theorem State.holdCommands_kept (s : State) (b : ℕ) (arm : Cmd) : (State.holdCommands s b arm).kept = s.kept :=
  by unfold State.holdCommands; (try dsimp only); (repeat' split) <;> simp (disch := (intro s a; (try dsimp only); (repeat' split) <;> simp [State.kept_ite])) [foldl_kept, State.kept_ite]

@[simp] theorem runBarrierArm_kept (s : State) (c : Cmd) : (runBarrierArm s c).kept = s.kept :=
  by simp [runBarrierArm, State.kept_ite]

@[simp] theorem barrierArmSignal_kept (b : ℕ) (p : ℕ) (s : State) : (barrierArmSignal b p s).kept = s.kept :=
  by simp [barrierArmSignal, State.kept_ite]

@[simp] theorem barrierRelease_kept (b : ℕ) (p : ℕ) (remaining : ℤ) (held : ℕ) (s : State) : (barrierRelease b p remaining held s).kept = s.kept :=
  by simp [barrierRelease, State.kept_ite]

@[simp] theorem State.startHeld_kept (s : State) (h : ℕ × ℕ) : (State.startHeld s h).kept = s.kept :=
  by unfold State.startHeld; (repeat' split) <;> simp [State.kept_ite]

@[simp] theorem barrierFire_kept (b : ℕ) (s : State) : (barrierFire b s).kept = s.kept :=
  by unfold barrierFire; (try dsimp only); (repeat' split) <;> simp (disch := (intro s a; (try dsimp only); (repeat' split) <;> simp [State.kept_ite])) [foldl_kept, State.kept_ite]

@[simp] theorem barrierTimeout_kept (id : ℕ) (s : State) : (barrierTimeout id s).kept = s.kept :=
  by unfold barrierTimeout; (repeat' split) <;> simp [State.kept_ite]

@[simp] theorem runReplayStart_kept (s : State) (c : Cmd) : (runReplayStart s c).kept = s.kept := by
  unfold runReplayStart; (try dsimp only); (repeat' split) <;> simp (disch := (intro s a; (try dsimp only); (repeat' split) <;> simp [State.kept_ite])) [foldl_kept, State.kept_ite]

@[simp] theorem runSeqSubmit_kept (s : State) (c : Cmd) : (runSeqSubmit s c).kept = s.kept :=
  by simp [runSeqSubmit, State.kept_ite]

@[simp] theorem runSeqCancel_kept (s : State) (c : Cmd) : (runSeqCancel s c).kept = s.kept :=
  by unfold runSeqCancel; dsimp only; (repeat' split) <;> simp (disch := (intro s a; dsimp only; (repeat' split) <;> simp [State.kept_ite])) [foldl_kept, State.kept_ite]

@[simp] theorem admitHead_kept (s : State) (t : ℕ) (c : ℕ) (cfg : Serving) : (admitHead s t c cfg).1.kept = s.kept :=
  by unfold admitHead; dsimp only; (repeat' split) <;> simp (disch := (intro s a; dsimp only; (repeat' split) <;> simp [State.kept_ite])) [foldl_kept, State.kept_ite]

@[simp] theorem admitAll_kept (t c : Nat) (cfg : Serving) (k : Nat) (s : State) : (admitAll t c cfg k s).kept = s.kept := by
  induction k generalizing s with
  | zero => rfl
  | succ k ih =>
    unfold admitAll
    have hk := admitHead_kept s t c cfg
    generalize admitHead s t c cfg = r at hk ⊢
    obtain ⟨s1, o⟩ := r
    cases o <;> simp_all

@[simp] theorem giveToken_kept (s : State) (t : ℕ) (c : ℕ) (q : Sequence) (token : ℕ) : (giveToken s t c q token).kept = s.kept :=
  by unfold giveToken; dsimp only; (repeat' split) <;> simp (disch := (intro s a; dsimp only; (repeat' split) <;> simp [State.kept_ite])) [foldl_kept, State.kept_ite]

@[simp] theorem sampleStep_kept (t c : Nat) (cfg : Serving) (l : List SampleRow) (s : State) : (sampleStep t c cfg l s).kept = s.kept := by
  induction l generalizing s with
  | nil => unfold sampleStep; dsimp only; rw [foldl_kept _ _ _ (fun s q => by simp)]; simp
  | cons a l ih => unfold sampleStep; dsimp only; (repeat' split) <;> simp [ih]

end Sys2Proof.Machine
end

