-- ==== Sys2Proof/Laws/KeptRadio.lean ====
section
/-! SUPPORT. What time, radio, Ethernet, signal cores and engines keep: the queue, the variant, the local counter and Steward's flash. -/
set_option linter.all false
namespace Sys2Proof.Machine

@[simp] theorem State.setDom_kept (s : State) (d : ℕ) (y : Domain) : (State.setDom s d y).kept = s.kept :=
  by simp [State.setDom, State.kept_ite]

@[simp] theorem State.sxNotice_kept (s : State) (cause : ℕ) (off : ℤ) : (State.sxNotice s cause off).kept = s.kept :=
  by simp [State.sxNotice, State.kept_ite]

@[simp] theorem State.follow_kept (s : State) (d : ℕ) (cause : ℕ) : (State.follow s d cause).kept = s.kept :=
  by simp [State.follow, State.kept_ite]

@[simp] theorem State.enterHoldover_kept (s : State) (cause : ℕ) : (State.enterHoldover s cause).kept = s.kept :=
  by simp [State.enterHoldover, State.kept_ite]

@[simp] theorem State.loseDomain_kept (s : State) (d : ℕ) : (State.loseDomain s d).kept = s.kept :=
  by simp [State.loseDomain, State.kept_ite]

@[simp] theorem State.lockDomain_kept (s : State) (d : ℕ) : (State.lockDomain s d).kept = s.kept :=
  by simp [State.lockDomain, State.kept_ite]

@[simp] theorem State.relock_kept (s : State) : (State.relock s).kept = s.kept := by
  unfold State.relock; (try dsimp only); (repeat' split) <;> simp (disch := (intro s a; (try dsimp only); (repeat' split) <;> simp [State.kept_ite])) [foldl_kept, State.kept_ite]

@[simp] theorem State.holdoverStart_kept (s : State) : (State.holdoverStart s).kept = s.kept :=
  by simp [State.holdoverStart, State.kept_ite]

@[simp] theorem State.toLost_kept (s : State) (d : ℕ) : (State.toLost s d).kept = s.kept :=
  by simp [State.toLost, State.kept_ite]

@[simp] theorem State.syncMessage_kept (s : State) (m : Sys2Proof.PtpMsg) : (State.syncMessage s m).kept = s.kept :=
  by simp [State.syncMessage, State.kept_ite]

@[simp] theorem ptpMessage_kept (m : Sys2Proof.PtpMsg) (s : State) : (ptpMessage m s).kept = s.kept :=
  by unfold ptpMessage; (repeat' split) <;> simp [State.kept_ite]

@[simp] theorem announceTimeout_kept (d : ℕ) (s : State) : (announceTimeout d s).kept = s.kept :=
  by simp [announceTimeout, State.kept_ite]

@[simp] theorem slewEnd_kept (s : State) : (slewEnd s).kept = s.kept :=
  by simp [slewEnd, State.kept_ite]

@[simp] theorem syncTransmit_kept (d : ℕ) (n : ℕ) (s : State) : (syncTransmit d n s).kept = s.kept :=
  by simp [syncTransmit, State.kept_ite]

@[simp] theorem State.setTrigger_kept (s : State) (j : ℕ) (g : Trigger) : (State.setTrigger s j g).kept = s.kept :=
  by unfold State.setTrigger; (repeat' split) <;> simp [State.kept_ite]

@[simp] theorem triggerEdge_kept (j : ℕ) (s : State) : (triggerEdge j s).kept = s.kept :=
  by simp [triggerEdge, State.kept_ite]

@[simp] theorem captureEdge_kept (src : ℕ) (falling : Bool) (s : State) : (captureEdge src falling s).kept = s.kept :=
  by simp [captureEdge, State.kept_ite]

@[simp] theorem domainAccepted_kept (s : State) (c : Cmd) : (domainAccepted s c).kept = s.kept :=
  by simp [domainAccepted, State.kept_ite]

@[simp] theorem runDomainSelect_kept (s : State) (c : Cmd) : (runDomainSelect s c).kept = s.kept :=
  by simp [runDomainSelect, State.kept_ite]

@[simp] theorem runTriggerSet_kept (s : State) (c : Cmd) : (runTriggerSet s c).kept = s.kept :=
  by simp [runTriggerSet, State.kept_ite]

@[simp] theorem runCaptureRead_kept (s : State) (c : Cmd) : (runCaptureRead s c).kept = s.kept :=
  by simp [runCaptureRead, State.kept_ite]

@[simp] theorem runTimeRead_kept (s : State) (c : Cmd) : (runTimeRead s c).kept = s.kept :=
  by simp [runTimeRead, State.kept_ite]

@[simp] theorem runCellConfig_kept (s : State) (c : Cmd) : (runCellConfig s c).kept = s.kept :=
  by simp [runCellConfig, State.kept_ite]

@[simp] theorem State.writeRing_kept (s : State) (base : ℕ) (size : ℕ) (at_ : ℕ) (bs : List Sys2Proof.Byte) : (State.writeRing s base size at_ bs).kept = s.kept :=
  by simp [State.writeRing, State.kept_ite]

@[simp] theorem State.batch_kept (s : State) (n : ℕ) (sfn : ℕ) (slot : ℕ) (late : Bool) (msgs : List (List Sys2Proof.Byte)) : (State.batch s n sfn slot late msgs).kept = s.kept :=
  by unfold State.batch; (repeat' split) <;> simp [State.kept_ite]

@[simp] theorem State.radioFlags_kept (s : State) : (State.radioFlags s).kept = s.kept :=
  by simp [State.radioFlags, State.kept_ite]

@[simp] theorem State.headSend_kept (s : State) (n : ℕ) (kind : ℕ) (antenna : ℕ) (sfn : ℕ) (slot : ℕ) (symbol : ℕ) (value : ℤ) : (State.headSend s n kind antenna sfn slot symbol value).kept = s.kept :=
  by unfold State.headSend; (repeat' split) <;> simp [State.kept_ite]

@[simp] theorem State.setHead_kept (s : State) (n : ℕ) (x : Cell) (h : Head) : (State.setHead s n x h).kept = s.kept :=
  by simp [State.setHead, State.kept_ite]

@[simp] theorem State.sendGains_kept (s : State) (n : ℕ) (sfn : ℕ) (slot : ℕ) (ws : List (ℕ × ℕ)) : (State.sendGains s n sfn slot ws).kept = s.kept :=
  by unfold State.sendGains; (try dsimp only); (repeat' split) <;> simp (disch := (intro s a; (try dsimp only); (repeat' split) <;> simp [State.kept_ite])) [foldl_kept, State.kept_ite]

@[simp] theorem State.sendManual_kept (s : State) (n : ℕ) (ws : List (ℕ × ℕ)) : (State.sendManual s n ws).kept = s.kept := by
  unfold State.sendManual; (try dsimp only); (repeat' split) <;> simp (disch := (intro s a; (try dsimp only); (repeat' split) <;> simp [State.kept_ite])) [foldl_kept, State.kept_ite]

@[simp] theorem State.startCell_kept (s : State) (n : ℕ) (id : ℕ) (holdover : Bool) : (State.startCell s n id holdover).kept = s.kept :=
  by unfold State.startCell; (repeat' split) <;> simp [State.kept_ite]

@[simp] theorem State.stopCell_kept (s : State) (n : ℕ) (x : Cell) : (State.stopCell s n x).kept = s.kept :=
  by unfold State.stopCell; (try dsimp only); (repeat' split) <;> simp (disch := (intro s a; (try dsimp only); (repeat' split) <;> simp [State.kept_ite])) [foldl_kept, State.kept_ite]

@[simp] theorem State.stopRequest_kept (s : State) (n : ℕ) (id : ℕ) : (State.stopRequest s n id).kept = s.kept :=
  by unfold State.stopRequest; (repeat' split) <;> simp [State.kept_ite]

@[simp] theorem State.fapiFails_kept (s : State) (c : Cmd) (f : Fail) : (State.fapiFails s c f).kept = s.kept := by
  unfold State.fapiFails; (try dsimp only); (repeat' split) <;> simp (disch := (intro s a; (try dsimp only); (repeat' split) <;> simp [State.kept_ite])) [foldl_kept, State.kept_ite]

@[simp] theorem State.fapiP5_kept (n : Nat) (r : State × List (List Byte)) (m : List Byte) : (State.fapiP5 n r m).1.kept = r.1.kept := by
  unfold State.fapiP5; dsimp only; (repeat' split) <;> simp

@[simp] theorem runFapiP5_kept (s : State) (c : Cmd) : (runFapiP5 s c).kept = s.kept := by
  unfold runFapiP5; dsimp only; split <;> simp
  exact foldl_kept_fst _ _ _ fun r m => by simp

@[simp] theorem State.fapiP7_kept (n : Nat) (r : State × List (List Byte)) (m : List Byte) : (State.fapiP7 n r m).1.kept = r.1.kept := by
  unfold State.fapiP7; dsimp only; (repeat' split) <;> simp

@[simp] theorem runFapiP7_kept (s : State) (c : Cmd) : (runFapiP7 s c).kept = s.kept := by
  unfold runFapiP7; dsimp only; split <;> simp
  rw [foldl_kept_fst _ _ _ fun r m => by simp]; exact foldl_kept _ _ _ fun r m => by simp

@[simp] theorem requestDeadline_kept (n : ℕ) (s : State) : (requestDeadline n s).kept = s.kept :=
  by unfold requestDeadline; (repeat' split) <;> simp [State.kept_ite]

@[simp] theorem State.tellWindows_kept (s : State) (x : Cell) : (State.tellWindows s x).kept = s.kept :=
  by simp [State.tellWindows, State.kept_ite]

@[simp] theorem fronthaulWindow_kept (n : ℕ) (symbol : ℕ) (uplink : Bool) (opening : Bool) (ready : Bool) (s : State) : (fronthaulWindow n symbol uplink opening ready s).kept = s.kept :=
  by unfold fronthaulWindow; (repeat' split) <;> simp [State.kept_ite]

@[simp] theorem State.controlPlane_kept (s : State) (x : Cell) (d : Sys2Proof.DeadlineObs) : (State.controlPlane s x d).kept = s.kept := by
  unfold State.controlPlane; (try dsimp only); (repeat' split) <;> simp (disch := (intro s a; (try dsimp only); (repeat' split) <;> simp [State.kept_ite])) [foldl_kept, State.kept_ite]

@[simp] theorem slotDeadline_kept (n : ℕ) (d : Sys2Proof.DeadlineObs) (s : State) : (slotDeadline n d s).kept = s.kept :=
  by unfold slotDeadline; (repeat' split) <;> simp [State.kept_ite]

@[simp] theorem agcMeasurement_kept (n : ℕ) (a : ℕ) (power : ℤ) (prach : Bool) (s : State) : (agcMeasurement n a power prach s).kept = s.kept :=
  by unfold agcMeasurement; (repeat' split) <;> simp [State.kept_ite]

@[simp] theorem roundHalf_kept (s : State) (f : ℤ) (a : ℕ) : (roundHalf s f a).2.kept = s.kept :=
  by unfold roundHalf; (repeat' split) <;> simp [State.kept_ite]

@[simp] theorem frequencyEstimate_kept (n : ℕ) (offset : ℤ) (quality : ℤ) (s : State) : (frequencyEstimate n offset quality s).kept = s.kept :=
  by unfold frequencyEstimate; (repeat' split) <;> simp [State.kept_ite]

@[simp] theorem runHeadControl_kept (s : State) (c : Cmd) : (runHeadControl s c).kept = s.kept :=
  by unfold runHeadControl; dsimp only; (repeat' split) <;> simp (disch := (intro s a; dsimp only; (repeat' split) <;> simp [State.kept_ite])) [foldl_kept, State.kept_ite]

@[simp] theorem State.headBoundary_kept (s : State) (n : ℕ) (sfn : ℕ) (slot : ℕ) : (State.headBoundary s n sfn slot).kept = s.kept :=
  by unfold State.headBoundary; (repeat' split) <;> simp [State.kept_ite]

@[simp] theorem slotBoundary_kept (n : ℕ) (s : State) : (slotBoundary n s).kept = s.kept :=
  by unfold slotBoundary; (repeat' split) <;> simp [State.kept_ite]

@[simp] theorem State.powerRadio_kept (s : State) : (State.powerRadio s).kept = s.kept :=
  by unfold State.powerRadio; (try dsimp only); (repeat' split) <;> simp (disch := (intro s a; (try dsimp only); (repeat' split) <;> simp [State.kept_ite])) [foldl_kept, State.kept_ite]

@[simp] theorem cellBecomesRunning_kept (n : ℕ) (s : State) : (cellBecomesRunning n s).kept = s.kept :=
  by unfold cellBecomesRunning; (try dsimp only); (repeat' split) <;> simp (disch := (intro s a; (try dsimp only); (repeat' split) <;> simp [State.kept_ite])) [foldl_kept, State.kept_ite]

@[simp] theorem State.loseLink_kept (s : State) (n : ℕ) : (State.loseLink s n).kept = s.kept := by
  unfold State.loseLink; (try dsimp only); (repeat' split) <;> simp (disch := (intro s a; (try dsimp only); (repeat' split) <;> simp [State.kept_ite])) [foldl_kept, State.kept_ite]

@[simp] theorem State.clearSub_kept (s : State) (n : ℕ) : (State.clearSub s n).kept = s.kept := by
  unfold State.clearSub; (try dsimp only); (repeat' split) <;> simp (disch := (intro s a; (try dsimp only); (repeat' split) <;> simp [State.kept_ite])) [foldl_kept, State.kept_ite]

@[simp] theorem State.configureSub_kept (c : Cmd) (s : State) (n : ℕ) : (State.configureSub c s n).kept = s.kept := by
  unfold State.configureSub; (try dsimp only); (repeat' split) <;> simp (disch := (intro s a; (try dsimp only); (repeat' split) <;> simp [State.kept_ite])) [foldl_kept, State.kept_ite]

@[simp] theorem runPortConfig_kept (s : State) (c : Cmd) : (runPortConfig s c).kept = s.kept := by
  unfold runPortConfig
  extract_lets p mode changed u s1
  have hu : u.kept = s.kept := foldl_kept _ _ _ State.clearSub_kept
  have h1 : s1.kept = s.kept := by
    unfold s1; split
    · rw [State.kept_mk, State.kept_eta, hu]
    · rfl
  rw [State.ok_kept, foldl_kept _ _ _ (State.configureSub_kept c), h1]

@[simp] theorem runQueueConfig_kept (s : State) (c : Cmd) : (runQueueConfig s c).kept = s.kept :=
  by simp [runQueueConfig, State.kept_ite]

@[simp] theorem runShaperConfig_kept (s : State) (c : Cmd) : (runShaperConfig s c).kept = s.kept :=
  by simp [runShaperConfig, State.kept_ite]

@[simp] theorem runPolicerConfig_kept (s : State) (c : Cmd) : (runPolicerConfig s c).kept = s.kept :=
  by simp [runPolicerConfig, State.kept_ite]

@[simp] theorem State.police_kept (s : State) (f : Sys2Proof.EthFrame) : (State.police s f).1.kept = s.kept :=
  by unfold State.police; dsimp only; (repeat' split) <;> simp (disch := (intro s a; dsimp only; (repeat' split) <;> simp [State.kept_ite])) [foldl_kept, State.kept_ite]

@[simp] theorem State.ringPut_kept (s : State) (t : ℕ) (r : ℕ) (o : ℕ) (bs : List Sys2Proof.Byte) : (State.ringPut s t r o bs).kept = s.kept :=
  by simp [State.ringPut, State.kept_ite]

@[simp] theorem State.deliver_kept (s : State) (n : Nat) (q : Queue) (bs : List Byte) : (s.deliver n q bs).kept = s.kept := by
  unfold State.deliver; dsimp only
  (repeat' split) <;> try simp
  all_goals (rename_i h; have hk := congrArg (fun p => State.kept p.1) h; simpa using hk.symm)

@[simp] theorem transmitRingPoll_kept (n : ℕ) (q : ℕ) (s : State) : (transmitRingPoll n q s).kept = s.kept :=
  by unfold transmitRingPoll; dsimp only; (repeat' split) <;> simp (disch := (intro s a; dsimp only; (repeat' split) <;> simp [State.kept_ite])) [foldl_kept, State.kept_ite]

@[simp] theorem State.consumed_kept (s : State) (x : Queue) : (State.consumed s x).kept = s.kept :=
  by unfold State.consumed; (repeat' split) <;> simp [State.kept_ite]

@[simp] theorem frameTransmit_kept (n : ℕ) (s : State) : (frameTransmit n s).kept = s.kept :=
  by unfold frameTransmit; dsimp only; (repeat' split) <;> simp (disch := (intro s a; dsimp only; (repeat' split) <;> simp [State.kept_ite])) [foldl_kept, State.kept_ite]

@[simp] theorem State.setShare_kept (s : State) (n : ℕ) (k : ℕ) (v : ℕ) : (State.setShare s n k v).kept = s.kept :=
  by simp [State.setShare, State.kept_ite]

@[simp] theorem State.drainShare_kept (s : State) (n : ℕ) (k : ℕ) : (State.drainShare s n k).kept = s.kept :=
  by simp [State.drainShare, State.kept_ite]

@[simp] theorem pfcRefresh_kept (n : ℕ) (k : ℕ) (s : State) : (pfcRefresh n k s).kept = s.kept :=
  by simp [pfcRefresh, State.kept_ite]

@[simp] theorem State.pause_kept (s : State) (n : ℕ) (k : ℕ) (quanta : ℕ) : (State.pause s n k quanta).kept = s.kept :=
  by simp [State.pause, State.kept_ite]

@[simp] theorem pfcPauseExpiry_kept (n : ℕ) (k : ℕ) (s : State) : (pfcPauseExpiry n k s).kept = s.kept :=
  by simp [pfcPauseExpiry, State.kept_ite]

@[simp] theorem State.pfcFrame_kept (s : State) (f : Sys2Proof.EthFrame) : (State.pfcFrame s f).kept = s.kept :=
  by unfold State.pfcFrame; (try dsimp only); (repeat' split) <;> simp (disch := (intro s a; (try dsimp only); (repeat' split) <;> simp (disch := (intro s a; (try dsimp only); (repeat' split) <;> simp [State.kept_ite])) [foldl_kept, State.kept_ite])) [foldl_kept, State.kept_ite]

@[simp] theorem State.classify_kept (s : State) (f : EthFrame) : (s.classify f).kept = s.kept := by
  unfold State.classify
  split; · rfl
  split
  · cases uplinkPayload f <;> simp
  split
  · have hk := State.police_kept s f
    split
    all_goals (rename_i h; rw [h] at hk; simpa using hk)
  · simp

@[simp] theorem ethernetFrameReceive_kept (f : Sys2Proof.EthFrame) (s : State) : (ethernetFrameReceive f s).kept = s.kept :=
  by simp [ethernetFrameReceive, State.kept_ite]

@[simp] theorem ethernetLinkChange_kept (n : ℕ) (up : Bool) (s : State) : (ethernetLinkChange n up s).kept = s.kept :=
  by simp [ethernetLinkChange, State.kept_ite]

@[simp] theorem State.scWrite_kept (s : State) (n : ℕ) (a : ℕ) (k : ℕ) (v : ℕ) : (State.scWrite s n a k v).kept = s.kept :=
  by simp [State.scWrite, State.kept_ite]

@[simp] theorem State.sharedStall_kept (s : State) (a : ℕ) : (State.sharedStall s a).2.kept = s.kept :=
  by unfold State.sharedStall; (repeat' split) <;> simp [State.kept_ite]

@[simp] theorem State.scFault_kept (s : State) (n : ℕ) (cause : ℕ) : (State.scFault s n cause).kept = s.kept :=
  by simp [State.scFault, State.kept_ite]

@[simp] theorem State.scDone_kept (s : State) (n : ℕ) : (State.scDone s n).kept = s.kept :=
  by simp [State.scDone, State.kept_ite]

theorem scStep_kept (k : Nat) (sf : Option Bool) (body : Word → State → Nat → ScRegs → ScOut) (n : Nat) (w : Word) (s : State)
    (hb : ∀ r t, body w s n r = .ok t → t.1.kept = s.kept) : (scStep k sf body n w s).kept = s.kept := by
  unfold scStep; dsimp only
  split; · rfl
  split; · rfl
  split; · simp
  split; · rfl
  split; · simp
  split; · simp
  split
  · simp
  · rename_i hx
    have hk := hb _ _ hx
    dsimp only at hk
    (repeat' split) <;> simp [hk]

@[simp] theorem scAlu_kept (k : Nat) (f : Bool → Word → Word → Nat → Word × Bool) (n : Nat) (w : Word) (s : State) : (scAlu k f n w s).kept = s.kept := by
  unfold scAlu; apply scStep_kept; intro r t h; cases h; rfl

@[simp] theorem scAccOp_kept (k : Nat) (f : Word → ScRegs → Int × Int) (n : Nat) (w : Word) (s : State) : (scAccOp k f n w s).kept = s.kept := by
  unfold scAccOp; apply scStep_kept; intro r t h; cases h; rfl

theorem macLoads_kept (w : Word) (s : State) (n : Nat) (r : ScRegs) (y : Bool) (t : State × ScRegs × Nat) (h : macLoads w s n r y = .ok t) :
    t.1.kept = s.kept := by
  unfold macLoads at h
  extract_lets xs ys x at h
  clear_value x
  rcases x with e | ⟨ax, vx, r1⟩
  · cases h
  dsimp -zeta only at h
  extract_lets y1 at h
  clear_value y1
  rcases y1 with e | ⟨ay, vy, r2⟩
  · cases h
  dsimp -zeta only at h
  extract_lets r3 r4 z sx sy at h
  cases h
  have hz : z.1.kept = s.kept := foldl_kept_fst _ _ _ fun q i => State.draw_kept _
  have hx : sx.2.kept = z.1.kept := by unfold sx; split <;> simp
  have hy : sy.2.kept = sx.2.kept := by unfold sy; split <;> simp
  rw [hy, hx, hz]

@[simp] theorem scMac_kept (k : Nat) (f : Word → ScRegs → ScRegs) (n : Nat) (w : Word) (s : State) : (scMac k f n w s).kept = s.kept := by
  unfold scMac; apply scStep_kept; intro r t h
  dsimp only at h; split at h
  · cases h
  · rename_i hm; cases h; exact macLoads_kept _ _ _ _ _ _ hm

@[simp] theorem movrRead_kept (s : State) (r : ScRegs) (cls : ℕ) (idx : ℕ) : (movrRead s r cls idx).2.kept = s.kept :=
  by unfold movrRead; (repeat' split) <;> simp [State.kept_ite]

@[simp] theorem jobStart_kept (n : ℕ) (j : Sys2Proof.Job) (s : State) : (jobStart n j s).kept = s.kept :=
  by simp [jobStart, State.kept_ite]

@[simp] theorem jobCycleLimit_kept (n : ℕ) (s : State) : (jobCycleLimit n s).kept = s.kept :=
  by simp [jobCycleLimit, State.kept_ite]

@[simp] theorem scClHalt_kept (k : ℕ) (h : Bool) (s : State) : (scClHalt k h s).kept = s.kept :=
  by simp [scClHalt, State.kept_ite]

@[simp] theorem scWindowWrite_kept (k : ℕ) (i : ℕ) (v : Sys2Proof.Word) (s : State) : (scWindowWrite k i v s).kept = s.kept :=
  by simp [scWindowWrite, State.kept_ite]

@[simp] theorem scFaultRead_kept (n : ℕ) (s : State) : (scFaultRead n s).kept = s.kept :=
  by simp [scFaultRead, State.kept_ite]

@[simp] theorem State.itemDone_kept (s : State) (e : ℕ) (h : Sys2Proof.DescHdr) (status : ℕ) (summary : ℕ) : (State.itemDone s e h status summary).kept = s.kept :=
  by simp [State.itemDone, State.kept_ite]

@[simp] theorem State.itemFault_kept (s : State) (e : ℕ) (h : Sys2Proof.DescHdr) (status : ℕ) : (State.itemFault s e h status).kept = s.kept :=
  by simp [State.itemFault, State.kept_ite]

theorem runItem_kept (e lo hi : Nat) (h : DescHdr) (ok : Bool) (body : State → Except Nat (State × Nat)) (s : State)
    (hb : ∀ t x, body s = .ok (t, x) → t.kept = s.kept) : (runItem e lo hi h ok body s).kept = s.kept := by
  unfold runItem
  split; · rfl
  split; · simp
  split; · simp
  split; · simp
  · rename_i hx; simpa using hb _ _ hx

end Sys2Proof.Machine
end

