-- ==== Sys2Proof/Laws/KeptSystem.lean ====
section
/-! SUPPORT. What events, reliability, power, Steward, registers and acceptance keep: the queue, the variant, the local counter and Steward's flash. -/
set_option linter.all false
namespace Sys2Proof.Machine

@[simp] theorem State.completeSource_kept (s : State) (n : ℕ) : (State.completeSource s n).kept = s.kept :=
  by simp [State.completeSource, State.kept_ite]

@[simp] theorem State.completeOwned_kept (s : State) (t : ℕ) : (State.completeOwned s t).kept = s.kept :=
  by unfold State.completeOwned; (try dsimp only); (repeat' split) <;> simp (disch := (intro s a; (try dsimp only); (repeat' split) <;> simp [State.kept_ite])) [foldl_kept, State.kept_ite]

@[simp] theorem helloAccepted_kept (offer : ℕ) (s : State) (c : Cmd) : (helloAccepted offer s c).kept = s.kept :=
  by simp [helloAccepted, State.kept_ite]

@[simp] theorem runHello_kept (s : State) (c : Cmd) : (runHello s c).kept = s.kept :=
  by simp [runHello, State.kept_ite]

@[simp] theorem capsAccepted_kept (s : State) (c : Cmd) : (capsAccepted s c).kept = s.kept :=
  by simp [capsAccepted, State.kept_ite]

@[simp] theorem State.writeBlock_kept (s : State) (c : Cmd) (iova : ℕ) (bs : List Sys2Proof.Byte) : (State.writeBlock s c iova bs).kept = s.kept :=
  by simp [State.writeBlock, State.kept_ite]

@[simp] theorem runCaps_kept (s : State) (c : Cmd) : (runCaps s c).kept = s.kept :=
  by simp [runCaps, State.kept_ite]

@[simp] theorem runCreditQuery_kept (s : State) (c : Cmd) : (runCreditQuery s c).kept = s.kept :=
  by simp [runCreditQuery, State.kept_ite]

@[simp] theorem runNop_kept (s : State) (c : Cmd) : (runNop s c).kept = s.kept :=
  by simp [runNop, State.kept_ite]

@[simp] theorem runErrorLogRead_kept (s : State) (c : Cmd) : (runErrorLogRead s c).kept = s.kept :=
  by simp [runErrorLogRead, State.kept_ite]

@[simp] theorem runCheckConfig_kept (s : State) (c : Cmd) : (runCheckConfig s c).kept = s.kept :=
  by simp [runCheckConfig, State.kept_ite]

@[simp] theorem runScrub_kept (s : State) (c : Cmd) : (runScrub s c).kept = s.kept :=
  by unfold runScrub; (try dsimp only); (repeat' split) <;> simp (disch := (intro s a; (try dsimp only); (repeat' split) <;> simp [State.kept_ite])) [foldl_kept, State.kept_ite]

@[simp] theorem runInject_kept (s : State) (c : Cmd) : (runInject s c).kept = s.kept :=
  by unfold runInject; (repeat' split) <;> simp [State.kept_ite]

@[simp] theorem quarantineAccepted_kept (s : State) (c : Cmd) : (quarantineAccepted s c).kept = s.kept :=
  by simp [quarantineAccepted, State.kept_ite]

@[simp] theorem runQuarantineQuery_kept (s : State) (c : Cmd) : (runQuarantineQuery s c).kept = s.kept :=
  by simp [runQuarantineQuery, State.kept_ite]

@[simp] theorem clerkWatchdog_kept (d : ℕ) (s : State) : (clerkWatchdog d s).kept = s.kept :=
  by simp [clerkWatchdog, State.kept_ite]

@[simp] theorem controlCoreWatchdog_kept (k : ℕ) (s : State) : (controlCoreWatchdog k s).kept = s.kept :=
  by simp [controlCoreWatchdog, State.kept_ite]

@[simp] theorem stewardWatchdog_kept (k : ℕ) (s : State) : (stewardWatchdog k s).kept = s.kept :=
  by unfold stewardWatchdog; (repeat' split) <;> simp [State.kept_ite]

theorem State.resetModule_rises (s : State) : s.rises s.resetModule := ⟨rfl, rfl, Nat.le_refl _, Nat.le_refl _⟩

theorem State.trip_rises (s : State) : s.rises s.trip := by
  unfold State.trip; split
  · exact s.rises_refl
  · exact s.resetModule_rises

theorem inputValid_rises (o : BootObs) (s : State) : s.rises (inputValid o s) := by
  unfold inputValid; dsimp only
  (repeat' split) <;> first
    | exact s.rises_refl
    | exact ⟨rfl, rfl, Nat.le_refl _, Nat.le_refl _⟩
    | exact State.kept_rises (State.logRecord_kept ..) ⟨rfl, rfl, Nat.le_refl _, Nat.le_refl _⟩

theorem State.raiseSecurity_rises (s : State) : s.rises s.raiseSecurity := ⟨rfl, rfl, Nat.le_max_left _ _, Nat.le_refl _⟩

theorem startupComplete_rises (t : SelfTest) (s : State) : s.rises (startupComplete t s) := by
  unfold startupComplete
  split
  · refine State.rises_trans (State.rises_of_kept ?_) (State.raiseSecurity_rises _)
    rw [State.kept_mk, State.kept_eta]
    exact foldl_kept _ _ _ fun s d => State.powerUp_kept ..
  · exact s.rises_refl

@[simp] theorem windowReady_kept (s : State) : (windowReady s).kept = s.kept :=
  by simp [windowReady, State.kept_ite]

theorem brownoutWarning_rises (tenMv : Nat) (s : State) : s.rises (brownoutWarning tenMv s) := by
  unfold brownoutWarning
  split
  · exact s.rises_refl
  · exact s.resetModule_rises
  · exact s.resetModule_rises
  · split <;> exact State.rises_of_kept (by simp)

@[simp] theorem brownoutClear_kept (s : State) : (brownoutClear s).kept = s.kept :=
  by unfold brownoutClear; (repeat' split) <;> simp [State.kept_ite]

@[simp] theorem powerMeasurement_kept (o : Sys2Proof.PowerObs) (s : State) : (powerMeasurement o s).kept = s.kept :=
  by unfold powerMeasurement; (repeat' split) <;> simp [State.kept_ite]

@[simp] theorem powerAccepted_kept (s : State) (c : Cmd) : (powerAccepted s c).kept = s.kept :=
  by simp [powerAccepted, State.kept_ite]

@[simp] theorem State.removeCores_kept (s : State) (target : ℕ) : (State.removeCores s target).kept = s.kept :=
  by unfold State.removeCores; (try dsimp only); (repeat' split) <;> simp (disch := (intro s a; (try dsimp only); (repeat' split) <;> simp [State.kept_ite])) [foldl_kept, State.kept_ite]

@[simp] theorem runPowerPolicy_kept (s : State) (c : Cmd) : (runPowerPolicy s c).kept = s.kept :=
  by unfold runPowerPolicy; (repeat' split) <;> simp [State.kept_ite]

@[simp] theorem domainSwitchDone_kept (t : SelfTest) (s : State) : (domainSwitchDone t s).kept = s.kept := by
  unfold domainSwitchDone
  split; · rfl
  extract_lets leaving coming
  split; · rfl
  rw [State.ok_kept, State.kept_mk, State.kept_eta]
  exact (foldl_kept _ _ _ fun s d => State.powerUp_kept ..).trans (foldl_kept _ _ _ fun s d => State.powerOff_kept ..)

@[simp] theorem State.ethReferenceLost_kept (s : State) : (State.ethReferenceLost s).kept = s.kept :=
  by unfold State.ethReferenceLost; (try dsimp only); (repeat' split) <;> simp (disch := (intro s a; (try dsimp only); (repeat' split) <;> simp [State.kept_ite])) [foldl_kept, State.kept_ite]

@[simp] theorem referenceLoss_kept (r : ℕ) (s : State) : (referenceLoss r s).kept = s.kept :=
  by unfold referenceLoss; (repeat' split) <;> simp [State.kept_ite]

@[simp] theorem referenceReturn_kept (r : ℕ) (s : State) : (referenceReturn r s).kept = s.kept :=
  by simp [referenceReturn, State.kept_ite]

@[simp] theorem State.endpointReset_kept (s : State) (aer : ℕ) : (State.endpointReset s aer).kept = s.kept :=
  by simp [State.endpointReset, State.kept_ite]

theorem State.pw_kept (s : State) (x : Power) : State.kept { s with pw := x } = s.kept := rfl

@[simp] theorem perstAssertion_kept (s : State) : (perstAssertion s).kept = s.kept := by
  unfold perstAssertion; split
  · rfl
  · exact (State.pw_kept ..).trans (State.endpointReset_kept ..)

@[simp] theorem State.linkReset_kept (s : State) : (State.linkReset s).kept = s.kept :=
  by simp [State.linkReset, State.kept_ite]

@[simp] theorem physicalFunctionFlr_kept (s : State) : (physicalFunctionFlr s).kept = s.kept :=
  by simp [physicalFunctionFlr, State.kept_ite]

@[simp] theorem configurationRequest_kept (q : Sys2Proof.CfgReq) (s : State) : (configurationRequest q s).kept = s.kept :=
  by unfold configurationRequest; (try dsimp only); (repeat' split) <;> simp (disch := (intro s a; (try dsimp only); (repeat' split) <;> simp [State.kept_ite])) [foldl_kept, State.kept_ite]

@[simp] theorem State.readFailed_kept (s : State) (id : ℕ) : (State.readFailed s id).kept = s.kept :=
  by unfold State.readFailed; (repeat' split) <;> simp [State.kept_ite]

@[simp] theorem dmaReadCompletion_kept (id : ℕ) (fn : ℕ) (iova : ℕ) (o : Sys2Proof.DmaObs) (s : State) : (dmaReadCompletion id fn iova o s).kept = s.kept :=
  by unfold dmaReadCompletion; (repeat' split) <;> simp [State.kept_ite]

theorem Steward.putSpare_security (x : Steward) (y : FwSlot) : (x.putSpare y).security = x.security := rfl
theorem Steward.putSpare_sigIndex (x : Steward) (y : FwSlot) : (x.putSpare y).sigIndex = x.sigIndex := rfl

theorem runFwStage_rises (s : State) (c : Cmd) : s.rises (runFwStage s c) := by
  unfold runFwStage
  extract_lets bs old y good x st s1
  have h1 : s.rises s1 := ⟨rfl, rfl, Nat.le_refl _, Nat.le_refl _⟩
  (repeat' split)
  · exact State.rises_kept h1 (State.ok_kept ..)
  · exact State.rises_kept h1 (State.finish_kept ..)
  · exact State.rises_kept h1 (State.finish_kept ..)
  · exact State.rises_kept h1 (State.ok_kept ..)

@[simp] theorem State.stewardRestart_kept (s : State) : (State.stewardRestart s).kept = s.kept :=
  by unfold State.stewardRestart; (try dsimp only); (repeat' split) <;> simp (disch := (intro s a; (try dsimp only); (repeat' split) <;> simp [State.kept_ite])) [foldl_kept, State.kept_ite]

theorem runFwActivate_rises (s : State) (c : Cmd) : s.rises (runFwActivate s c) := by
  unfold runFwActivate
  split
  · exact State.kept_rises (State.ok_kept ..) ⟨rfl, rfl, Nat.le_refl _, Nat.le_refl _⟩
  · split
    · refine State.kept_rises (State.await_kept ..) ?_
      exact State.rises_st (State.stewardRestart_kept s) _ (Nat.le_refl _) (Nat.le_refl _)
    · exact State.kept_rises (State.ok_kept ..) ⟨rfl, rfl, Nat.le_refl _, Nat.le_refl _⟩

theorem hotRestartResume_rises (s : State) : s.rises (hotRestartResume s) := by
  unfold hotRestartResume
  split; · exact s.rises_refl
  split; · exact s.rises_refl
  refine State.kept_rises (State.ok_kept ..) (State.rises_trans ?_ (State.raiseSecurity_rises _))
  exact ⟨rfl, rfl, Nat.le_refl _, Nat.le_refl _⟩

theorem hotRestartTimeout_rises (s : State) : s.rises (hotRestartTimeout s) := by
  unfold hotRestartTimeout
  split; · exact s.rises_refl
  split; · exact s.rises_refl
  refine State.kept_rises (State.finish_kept ..) (State.kept_rises (State.logRecord_kept ..) ?_)
  exact State.rises_st (State.stewardRestart_kept s) _ (Nat.le_refl _) (Nat.le_refl _)

@[simp] theorem runAttestKey_kept (s : State) (c : Cmd) : (runAttestKey s c).kept = s.kept :=
  by simp [runAttestKey, State.kept_ite]

theorem runAttest_rises (s : State) (c : Cmd) : s.rises (runAttest s c) := by
  unfold runAttest
  split
  · exact State.rises_of_kept (runAttestKey_kept ..)
  · refine State.kept_rises (State.ok_kept ..) (State.kept_rises (State.writeBlock_kept ..) ?_)
    exact ⟨rfl, rfl, Nat.le_refl _, Nat.le_succ _⟩

@[simp] theorem State.regRead_kept (s : State) (a : ℕ) : (State.regRead s a).2.kept = s.kept :=
  by unfold State.regRead; dsimp only; (repeat' split) <;> simp (disch := (intro s a; dsimp only; (repeat' split) <;> simp [State.kept_ite])) [foldl_kept, State.kept_ite]

@[simp] theorem clearMc_kept (k : ℕ) (s : State) : (clearMc k s).kept = s.kept :=
  by simp [clearMc, State.kept_ite]

@[simp] theorem clearVe_kept (k : ℕ) (s : State) : (clearVe k s).kept = s.kept :=
  by simp [clearVe, State.kept_ite]

@[simp] theorem clearDp_kept (d : ℕ) (s : State) : (clearDp d s).kept = s.kept :=
  by simp [clearDp, State.kept_ite]

@[simp] theorem clearWf_kept (s : State) : (clearWf s).kept = s.kept :=
  by simp [clearWf, State.kept_ite]

@[simp] theorem clearTm_kept (n : ℕ) (s : State) : (clearTm n s).kept = s.kept :=
  by simp [clearTm, State.kept_ite]

@[simp] theorem clearSx_kept (s : State) : (clearSx s).kept = s.kept :=
  by simp [clearSx, State.kept_ite]

theorem State.regEffect_rises (s : State) (b : Block) (o : Nat) (v : Word) : s.rises (s.regEffect b o v) := by
  unfold State.regEffect; dsimp only
  split
  all_goals first
    | exact ⟨rfl, rfl, Nat.le_refl _, Nat.le_refl _⟩
    | ((repeat' split) <;> exact State.rises_of_kept (by simp [after, execPwCtlClear]))

theorem State.regWrite_rises (s : State) (a : Nat) (v : Word) : s.rises (s.regWrite a v) := by
  unfold State.regWrite; dsimp only
  split
  · exact s.rises_refl
  · split
    · exact State.regEffect_rises ..
    · exact s.rises_refl

@[simp] theorem counterLoRead_kept (a : ℕ) (s : State) : (counterLoRead a s).kept = s.kept :=
  by simp [counterLoRead, State.kept_ite]

@[simp] theorem hwNoticeDropRead_kept (fn : ℕ) (s : State) : (hwNoticeDropRead fn s).kept = s.kept :=
  by simp [hwNoticeDropRead, State.kept_ite]

@[simp] theorem barWrite_kept (fn : ℕ) (off : ℕ) (v : Sys2Proof.Word) (s : State) : (barWrite fn off v s).kept = s.kept :=
  by unfold barWrite; (repeat' split) <;> simp [State.kept_ite]

@[simp] theorem readWords_kept (l : List Nat) (s : State) : (readWords l s).2.kept = s.kept := by
  induction l generalizing s with
  | nil => rfl
  | cons a l ih => unfold readWords; rw [ih]; simp

@[simp] theorem runRegRead_kept (s : State) (c : Cmd) : (runRegRead s c).kept = s.kept :=
  by simp [runRegRead, State.kept_ite]

theorem runRegWrite_rises (s : State) (c : Cmd) : s.rises (runRegWrite s c) := State.kept_rises (State.ok_kept ..) (State.regWrite_rises ..)

@[simp] theorem runStepCompose_kept (s : State) (c : Cmd) : (runStepCompose s c).kept = s.kept := by
  unfold runStepCompose; (try dsimp only); (repeat' split) <;> simp (disch := (intro s a; (try dsimp only); (repeat' split) <;> simp [State.kept_ite])) [foldl_kept, State.kept_ite]

@[simp] theorem issueProgram_kept (t c : Nat) (l : List (List Byte)) (s : State) : (issueProgram t c l s).kept = s.kept := by
  induction l generalizing s with
  | nil => rfl
  | cons a l ih => unfold issueProgram; dsimp only; (repeat' split) <;> simp [ih]

@[simp] theorem stepWrites_kept (s : State) (t : ℕ) (c : ℕ) (cfg : Serving) (table : List Sys2Proof.Byte) (mask : List Sys2Proof.Byte) : (stepWrites s t c cfg table mask).kept = s.kept := by
  unfold stepWrites; (try dsimp only); (repeat' split) <;> simp (disch := (intro s a; (try dsimp only); (repeat' split) <;> simp [State.kept_ite])) [foldl_kept, State.kept_ite]

@[simp] theorem beginStep_kept (s : State) (t : ℕ) (c : ℕ) (cfg : Serving) : (beginStep s t c cfg).kept = s.kept :=
  by unfold beginStep; dsimp only; (repeat' split) <;> simp (disch := (intro s a; dsimp only; (repeat' split) <;> simp [State.kept_ite])) [foldl_kept, State.kept_ite]

@[simp] theorem servingStep_kept (t : ℕ) (c : ℕ) (s : State) : (servingStep t c s).kept = s.kept :=
  by unfold servingStep; dsimp only; (repeat' split) <;> simp (disch := (intro s a; dsimp only; (repeat' split) <;> simp [State.kept_ite])) [foldl_kept, State.kept_ite]

@[simp] theorem stepWatchdog_kept (t : ℕ) (c : ℕ) (s : State) : (stepWatchdog t c s).kept = s.kept :=
  by unfold stepWatchdog; dsimp only; (repeat' split) <;> simp (disch := (intro s a; dsimp only; (repeat' split) <;> simp [State.kept_ite])) [foldl_kept, State.kept_ite]

@[simp] theorem opAccepted_kept (bs : List Sys2Proof.Byte) (s : State) (c : Cmd) : (opAccepted bs s c).kept = s.kept :=
  by unfold opAccepted; (repeat' split) <;> simp [State.kept_ite]

@[simp] theorem State.enqueue_kept (s : State) (c : Cmd) : (State.enqueue s c).kept = s.kept :=
  by simp [State.enqueue, State.kept_ite]

@[simp] theorem State.noteLast_kept (s : State) (c : Cmd) (id : Option ℕ) : (State.noteLast s c id).kept = s.kept :=
  by simp [State.noteLast, State.kept_ite]

@[simp] theorem State.recordPacket_kept (s : State) (c : Cmd) (bs : List Sys2Proof.Byte) : (State.recordPacket s c bs).kept = s.kept :=
  by simp [State.recordPacket, State.kept_ite]

@[simp] theorem State.accept_kept (s : State) (c : Cmd) (bs : List Sys2Proof.Byte) : (State.accept s c bs).kept = s.kept :=
  by simp [State.accept, State.kept_ite]

@[simp] theorem acceptPacket_kept (n : ℕ) (bs : List Sys2Proof.Byte) (s : State) : (acceptPacket n bs s).kept = s.kept :=
  by unfold acceptPacket; dsimp only; (repeat' split) <;> simp (disch := (intro s a; dsimp only; (repeat' split) <;> simp [State.kept_ite])) [foldl_kept, State.kept_ite]

@[simp] theorem packetAccept_kept (n : ℕ) (s : State) : (packetAccept n s).kept = s.kept :=
  by unfold packetAccept; dsimp only; (repeat' split) <;> simp (disch := (intro s a; dsimp only; (repeat' split) <;> simp [State.kept_ite])) [foldl_kept, State.kept_ite]

@[simp] theorem State.respondFail_kept (s : State) (bs : List Sys2Proof.Byte) (f : Fail) : (State.respondFail s bs f).kept = s.kept :=
  by simp [State.respondFail, State.kept_ite]

@[simp] theorem mctpMessage_kept (bs : List Sys2Proof.Byte) (s : State) : (mctpMessage bs s).kept = s.kept :=
  by unfold mctpMessage; dsimp only; (repeat' split) <;> simp (disch := (intro s a; dsimp only; (repeat' split) <;> simp [State.kept_ite])) [foldl_kept, State.kept_ite]

@[simp] theorem State.leaseFail_kept (s : State) (src : ℕ) (f : Fail) : (State.leaseFail s src f).kept = s.kept :=
  by simp [State.leaseFail, State.kept_ite]

@[simp] theorem remoteLease_kept (r : Sys2Proof.RemotePkt) (s : State) : (remoteLease r s).kept = s.kept :=
  by unfold remoteLease; dsimp only; (repeat' split) <;> simp (disch := (intro s a; dsimp only; (repeat' split) <;> simp [State.kept_ite])) [foldl_kept, State.kept_ite]

@[simp] theorem remoteRegion_kept (r : RemotePkt) (num : Nat) (e : Export) (s : State) : (remoteRegion r num e s).kept = s.kept := by
  unfold remoteRegion; dsimp only
  (repeat' split) <;> try simp
  all_goals (rename_i h; have hk := congrArg (fun p => State.kept p.1) h; simpa using hk.symm)

@[simp] theorem takenCommand_kept (r : Sys2Proof.RemotePkt) (op : ℕ) (p : Sys2Proof.FabPkt) (s : State) : (takenCommand r op p s).kept = s.kept := by
  unfold takenCommand; (try dsimp only); (repeat' split) <;> simp (disch := (intro s a; (try dsimp only); (repeat' split) <;> simp [State.kept_ite])) [foldl_kept, State.kept_ite]

@[simp] theorem remoteCommand_kept (r : Sys2Proof.RemotePkt) (s : State) : (remoteCommand r s).kept = s.kept :=
  by unfold remoteCommand; dsimp only; (repeat' split) <;> simp (disch := (intro s a; dsimp only; (repeat' split) <;> simp [State.kept_ite])) [foldl_kept, State.kept_ite]

@[simp] theorem replayPacket_kept (t : ℕ) (c : ℕ) (bs : List Sys2Proof.Byte) (s : State) : (replayPacket t c bs s).kept = s.kept :=
  by unfold replayPacket; dsimp only; (repeat' split) <;> simp (disch := (intro s a; dsimp only; (repeat' split) <;> simp [State.kept_ite])) [foldl_kept, State.kept_ite]

@[simp] theorem replayInbound_kept (t : ℕ) (c : ℕ) (bs : List Sys2Proof.Byte) (poison : Bool) (s : State) : (replayInbound t c bs poison s).kept = s.kept :=
  by unfold replayInbound; (repeat' split) <;> simp [State.kept_ite]

@[simp] theorem replayFronthaul_kept (bs : List Sys2Proof.Byte) (s : State) : (replayFronthaul bs s).kept = s.kept :=
  by unfold replayFronthaul; dsimp only; (repeat' split) <;> simp (disch := (intro s a; dsimp only; (repeat' split) <;> simp [State.kept_ite])) [foldl_kept, State.kept_ite]

@[simp] theorem replayEntry_kept (t : ℕ) (c : ℕ) (s : State) : (replayEntry t c s).kept = s.kept :=
  by unfold replayEntry; dsimp only; (repeat' split) <;> simp (disch := (intro s a; dsimp only; (repeat' split) <;> simp [State.kept_ite])) [foldl_kept, State.kept_ite]

@[simp] theorem State.stepGains_kept (s : State) (e : ℕ × ℕ) (n : ℕ) : (State.stepGains s e n).kept = s.kept := by
  unfold State.stepGains; (try dsimp only); (repeat' split) <;> simp (disch := (intro s a; (try dsimp only); (repeat' split) <;> simp [State.kept_ite])) [foldl_kept, State.kept_ite]

@[simp] theorem State.slowDown_kept (s : State) : (State.slowDown s).kept = s.kept :=
  by unfold State.slowDown; (try dsimp only); (repeat' split) <;> simp (disch := (intro s a; (try dsimp only); (repeat' split) <;> simp [State.kept_ite])) [foldl_kept, State.kept_ite]

@[simp] theorem State.stallTime_kept (s : State) : s.stallTime.kept = s.kept := by
  unfold State.stallTime
  exact foldl_kept _ _ _ fun s t => foldl_kept _ _ _ fun s c => by simp

@[simp] theorem State.powerTime_kept (s : State) : (State.powerTime s).kept = s.kept :=
  by simp [State.powerTime, State.kept_ite]

@[simp] theorem State.releaseClerk_kept (s : State) (d : ℕ) (held : List LogRec) (lost : Sys2Proof.NMap ℕ) : (State.releaseClerk s d held lost).kept = s.kept :=
  by unfold State.releaseClerk; (try dsimp only); (repeat' split) <;> simp (disch := (intro s a; (try dsimp only); (repeat' split) <;> simp [State.kept_ite])) [foldl_kept, State.kept_ite]

@[simp] theorem State.clerksBack_kept (s : State) : (State.clerksBack s).kept = s.kept :=
  by unfold State.clerksBack; (try dsimp only); (repeat' split) <;> simp (disch := (intro s a; (try dsimp only); (repeat' split) <;> simp [State.kept_ite])) [foldl_kept, State.kept_ite]

theorem tick_rises (s : State) : s.rises (tick s) := by
  unfold tick
  extract_lets s1
  have h1 : s.rises s1 := ⟨rfl, rfl, Nat.le_refl _, Nat.le_refl _⟩
  exact State.rises_kept h1 (by simp)

end Sys2Proof.Machine
end

