-- ==== Sys2Proof/Laws/Signal.lean ====
section
/-! SUPPORT. What the shared step of a signal core does: it does nothing, faults, runs out of cycles, or takes the instruction. -/
namespace Sys2Proof.Machine

/-- The prefix of a step on an issued word: only the body's answer is left to look at. -/
theorem scStep_issued {s : State} {n k : Nat} {w : Word} {r : ScRegs} (h : ScIssues s n k w r) (sf : Option Bool)
    (hsf : (sf.map (· != r.sfmode)).getD false = false) (body : Word → State → Nat → ScRegs → ScOut) :
    scStep k sf body n w s = match body w s n r with
      | .error e => s.scFault n e
      | .ok o =>
        if scCost r w o > (s.sc n).left then s.scStopped n w r o
        else if k = 193 then (s.scIssued n w r o).scDone n
        else s.scTaken n w r o := by
  obtain ⟨hj, hn, hl, hw, hk, hg, hf⟩ := h
  have h1 : (decide (n > 127) || decide ((s.sc n).left = 0) || decide ((s.cluster (n / 16)).word r.pc ≠ w)) = false := by
    simp [hl, hw]; omega
  have h2 : (decide (k ≠ k) || (sf.map (· != r.sfmode)).getD false) = false := by simp [hsf]
  have h3 : (decide (k ≥ 193) && (r.loops.head?.map fun l => decide (l.2.1 = r.pc)) == some true) = false := by
    by_cases hk' : 193 ≤ k
    · cases hd : r.loops.head? with
      | none => simp
      | some l => have := hf hk' l hd; simp [this]
    · simp [hk']
  unfold scStep State.scStopped
  simp only [hj]
  rw [if_neg (by simpa using h1)]
  simp only [hk]
  rw [if_neg (by simpa using h2), if_neg (by simp [hg]), if_neg (by simpa using h3)]
  cases body w s n r with
  | error e => rfl
  | ok o =>
    obtain ⟨s1, r1, next, stall, shared⟩ := o
    have e1 : decide (k = 200) = decide (scKind w = some 200) := by simp [hk]
    have e2 : decide (k = 68) = decide (scKind w = some 68) := by simp [hk]
    cases next <;> simp only [e1, e2] <;> rfl

/-- A word that is taken. -/
theorem scStep_taken {s : State} {n k : Nat} {w : Word} {r : ScRegs} (h : ScIssues s n k w r) {sf : Option Bool}
    (hsf : (sf.map (· != r.sfmode)).getD false = false) {body : Word → State → Nat → ScRegs → ScOut} {o} (hb : body w s n r = .ok o)
    (hk : k ≠ 193) (hc : scCost r w o ≤ (s.sc n).left) : scStep k sf body n w s = s.scTaken n w r o := by
  rw [scStep_issued h sf hsf, hb]
  simp only
  rw [if_neg (by omega), if_neg hk]

/-- A word whose cycles go beyond the limit. -/
theorem scStep_late {s : State} {n k : Nat} {w : Word} {r : ScRegs} (h : ScIssues s n k w r) {sf : Option Bool}
    (hsf : (sf.map (· != r.sfmode)).getD false = false) {body : Word → State → Nat → ScRegs → ScOut} {o} (hb : body w s n r = .ok o)
    (hc : (s.sc n).left < scCost r w o) :
    scStep k sf body n w s = s.scStopped n w r o := by
  rw [scStep_issued h sf hsf, hb]
  simp only
  rw [if_pos hc]

/-- A word that faults. -/
theorem scStep_faults {s : State} {n k : Nat} {w : Word} {r : ScRegs} (h : ScIssues s n k w r) {sf : Option Bool}
    (hsf : (sf.map (· != r.sfmode)).getD false = false) {body : Word → State → Nat → ScRegs → ScOut} {e} (hb : body w s n r = .error e) :
    scStep k sf body n w s = s.scFault n e := by
  rw [scStep_issued h sf hsf, hb]

/-- A core with no job does nothing. -/
theorem scStep_idle {s : State} {n k : Nat} {w : Word} {sf : Option Bool} {body : Word → State → Nat → ScRegs → ScOut}
    (h : (s.sc n).job = none) : scStep k sf body n w s = s := by
  unfold scStep; simp only [h]

/-- An undefined word faults ILLEGAL. -/
theorem scStep_undefined {s : State} {n k : Nat} {w : Word} {r : ScRegs} {sf : Option Bool} {body : Word → State → Nat → ScRegs → ScOut}
    (hj : (s.sc n).job = some r) (hn : n ≤ 127) (hl : (s.sc n).left ≠ 0) (hw : (s.cluster (n / 16)).word r.pc = w)
    (hk : scKind w = none) : scStep k sf body n w s = s.scFault n 1 := by
  have h1 : (decide (n > 127) || decide ((s.sc n).left = 0) || decide ((s.cluster (n / 16)).word r.pc ≠ w)) = false := by
    simp [hl, hw]; omega
  unfold scStep
  simp only [hj]
  rw [if_neg (by simpa using h1)]
  simp only [hk]

end Sys2Proof.Machine
end

