-- ==== Sys2Proof/Laws/State.lean ====
section
/-! SUPPORT. Each named update of the state, field by field: what the field it writes holds, and that every other field is as before. -/
namespace Sys2Proof.Machine.State

/-! ### setFn -/

@[simp] theorem setFn_fns (s : State) (n : Nat) (f : Fn) : (s.setFn n f).fns = NMap.set Fn.init s.fns n f := rfl
@[simp] theorem setFn_pending (s : State) (n : Nat) (f : Fn) : (s.setFn n f).pending = s.pending := rfl
@[simp] theorem setFn_variant (s : State) (n : Nat) (f : Fn) : (s.setFn n f).variant = s.variant := rfl
@[simp] theorem setFn_now (s : State) (n : Nat) (f : Fn) : (s.setFn n f).now = s.now := rfl
@[simp] theorem setFn_free (s : State) (n : Nat) (f : Fn) : (s.setFn n f).free = s.free := rfl
@[simp] theorem setFn_nextId (s : State) (n : Nat) (f : Fn) : (s.setFn n f).nextId = s.nextId := rfl
@[simp] theorem setFn_readData (s : State) (n : Nat) (f : Fn) : (s.setFn n f).readData = s.readData := rfl
@[simp] theorem setFn_ctr (s : State) (n : Nat) (f : Fn) : (s.setFn n f).ctr = s.ctr := rfl
@[simp] theorem setFn_cap (s : State) (n : Nat) (f : Fn) : (s.setFn n f).cap = s.cap := rfl
@[simp] theorem setFn_regs (s : State) (n : Nat) (f : Fn) : (s.setFn n f).regs = s.regs := rfl
@[simp] theorem setFn_host (s : State) (n : Nat) (f : Fn) : (s.setFn n f).host = s.host := rfl
@[simp] theorem setFn_hostPoison (s : State) (n : Nat) (f : Fn) : (s.setFn n f).hostPoison = s.hostPoison := rfl
@[simp] theorem setFn_mctp (s : State) (n : Nat) (f : Fn) : (s.setFn n f).mctp = s.mctp := rfl
@[simp] theorem setFn_tenants (s : State) (n : Nat) (f : Fn) : (s.setFn n f).tenants = s.tenants := rfl
@[simp] theorem setFn_mgmtVersion (s : State) (n : Nat) (f : Fn) : (s.setFn n f).mgmtVersion = s.mgmtVersion := rfl
@[simp] theorem setFn_cmds (s : State) (n : Nat) (f : Fn) : (s.setFn n f).cmds = s.cmds := rfl
@[simp] theorem setFn_radioCmds (s : State) (n : Nat) (f : Fn) : (s.setFn n f).radioCmds = s.radioCmds := rfl
@[simp] theorem setFn_radioSet (s : State) (n : Nat) (f : Fn) : (s.setFn n f).radioSet = s.radioSet := rfl
@[simp] theorem setFn_guard (s : State) (n : Nat) (f : Fn) : (s.setFn n f).guard = s.guard := rfl
@[simp] theorem setFn_cqUsed (s : State) (n : Nat) (f : Fn) : (s.setFn n f).cqUsed = s.cqUsed := rfl
@[simp] theorem setFn_cqPeak (s : State) (n : Nat) (f : Fn) : (s.setFn n f).cqPeak = s.cqPeak := rfl
@[simp] theorem setFn_spilled (s : State) (n : Nat) (f : Fn) : (s.setFn n f).spilled = s.spilled := rfl
@[simp] theorem setFn_cores (s : State) (n : Nat) (f : Fn) : (s.setFn n f).cores = s.cores := rfl
@[simp] theorem setFn_coopers (s : State) (n : Nat) (f : Fn) : (s.setFn n f).coopers = s.coopers := rfl
@[simp] theorem setFn_trackers (s : State) (n : Nat) (f : Fn) : (s.setFn n f).trackers = s.trackers := rfl
@[simp] theorem setFn_fabric (s : State) (n : Nat) (f : Fn) : (s.setFn n f).fabric = s.fabric := rfl
@[simp] theorem setFn_cells (s : State) (n : Nat) (f : Fn) : (s.setFn n f).cells = s.cells := rfl
@[simp] theorem setFn_scs (s : State) (n : Nat) (f : Fn) : (s.setFn n f).scs = s.scs := rfl
@[simp] theorem setFn_clusters (s : State) (n : Nat) (f : Fn) : (s.setFn n f).clusters = s.clusters := rfl
@[simp] theorem setFn_engineStatus (s : State) (n : Nat) (f : Fn) : (s.setFn n f).engineStatus = s.engineStatus := rfl
@[simp] theorem setFn_ethMode (s : State) (n : Nat) (f : Fn) : (s.setFn n f).ethMode = s.ethMode := rfl
@[simp] theorem setFn_eth (s : State) (n : Nat) (f : Fn) : (s.setFn n f).eth = s.eth := rfl
@[simp] theorem setFn_sx (s : State) (n : Nat) (f : Fn) : (s.setFn n f).sx = s.sx := rfl
@[simp] theorem setFn_ev (s : State) (n : Nat) (f : Fn) : (s.setFn n f).ev = s.ev := rfl
@[simp] theorem setFn_rel (s : State) (n : Nat) (f : Fn) : (s.setFn n f).rel = s.rel := rfl
@[simp] theorem setFn_pw (s : State) (n : Nat) (f : Fn) : (s.setFn n f).pw = s.pw := rfl
@[simp] theorem setFn_link (s : State) (n : Nat) (f : Fn) : (s.setFn n f).link = s.link := rfl
@[simp] theorem setFn_st (s : State) (n : Nat) (f : Fn) : (s.setFn n f).st = s.st := rfl

/-! ### setTenant -/

@[simp] theorem setTenant_tenants (s : State) (t : Nat) (x : Tenant) : (s.setTenant t x).tenants = NMap.set Tenant.init s.tenants t x := rfl
@[simp] theorem setTenant_pending (s : State) (t : Nat) (x : Tenant) : (s.setTenant t x).pending = s.pending := rfl
@[simp] theorem setTenant_variant (s : State) (t : Nat) (x : Tenant) : (s.setTenant t x).variant = s.variant := rfl
@[simp] theorem setTenant_now (s : State) (t : Nat) (x : Tenant) : (s.setTenant t x).now = s.now := rfl
@[simp] theorem setTenant_free (s : State) (t : Nat) (x : Tenant) : (s.setTenant t x).free = s.free := rfl
@[simp] theorem setTenant_nextId (s : State) (t : Nat) (x : Tenant) : (s.setTenant t x).nextId = s.nextId := rfl
@[simp] theorem setTenant_readData (s : State) (t : Nat) (x : Tenant) : (s.setTenant t x).readData = s.readData := rfl
@[simp] theorem setTenant_ctr (s : State) (t : Nat) (x : Tenant) : (s.setTenant t x).ctr = s.ctr := rfl
@[simp] theorem setTenant_cap (s : State) (t : Nat) (x : Tenant) : (s.setTenant t x).cap = s.cap := rfl
@[simp] theorem setTenant_regs (s : State) (t : Nat) (x : Tenant) : (s.setTenant t x).regs = s.regs := rfl
@[simp] theorem setTenant_host (s : State) (t : Nat) (x : Tenant) : (s.setTenant t x).host = s.host := rfl
@[simp] theorem setTenant_hostPoison (s : State) (t : Nat) (x : Tenant) : (s.setTenant t x).hostPoison = s.hostPoison := rfl
@[simp] theorem setTenant_mctp (s : State) (t : Nat) (x : Tenant) : (s.setTenant t x).mctp = s.mctp := rfl
@[simp] theorem setTenant_fns (s : State) (t : Nat) (x : Tenant) : (s.setTenant t x).fns = s.fns := rfl
@[simp] theorem setTenant_mgmtVersion (s : State) (t : Nat) (x : Tenant) : (s.setTenant t x).mgmtVersion = s.mgmtVersion := rfl
@[simp] theorem setTenant_cmds (s : State) (t : Nat) (x : Tenant) : (s.setTenant t x).cmds = s.cmds := rfl
@[simp] theorem setTenant_radioCmds (s : State) (t : Nat) (x : Tenant) : (s.setTenant t x).radioCmds = s.radioCmds := rfl
@[simp] theorem setTenant_radioSet (s : State) (t : Nat) (x : Tenant) : (s.setTenant t x).radioSet = s.radioSet := rfl
@[simp] theorem setTenant_guard (s : State) (t : Nat) (x : Tenant) : (s.setTenant t x).guard = s.guard := rfl
@[simp] theorem setTenant_cqUsed (s : State) (t : Nat) (x : Tenant) : (s.setTenant t x).cqUsed = s.cqUsed := rfl
@[simp] theorem setTenant_cqPeak (s : State) (t : Nat) (x : Tenant) : (s.setTenant t x).cqPeak = s.cqPeak := rfl
@[simp] theorem setTenant_spilled (s : State) (t : Nat) (x : Tenant) : (s.setTenant t x).spilled = s.spilled := rfl
@[simp] theorem setTenant_cores (s : State) (t : Nat) (x : Tenant) : (s.setTenant t x).cores = s.cores := rfl
@[simp] theorem setTenant_coopers (s : State) (t : Nat) (x : Tenant) : (s.setTenant t x).coopers = s.coopers := rfl
@[simp] theorem setTenant_trackers (s : State) (t : Nat) (x : Tenant) : (s.setTenant t x).trackers = s.trackers := rfl
@[simp] theorem setTenant_fabric (s : State) (t : Nat) (x : Tenant) : (s.setTenant t x).fabric = s.fabric := rfl
@[simp] theorem setTenant_cells (s : State) (t : Nat) (x : Tenant) : (s.setTenant t x).cells = s.cells := rfl
@[simp] theorem setTenant_scs (s : State) (t : Nat) (x : Tenant) : (s.setTenant t x).scs = s.scs := rfl
@[simp] theorem setTenant_clusters (s : State) (t : Nat) (x : Tenant) : (s.setTenant t x).clusters = s.clusters := rfl
@[simp] theorem setTenant_engineStatus (s : State) (t : Nat) (x : Tenant) : (s.setTenant t x).engineStatus = s.engineStatus := rfl
@[simp] theorem setTenant_ethMode (s : State) (t : Nat) (x : Tenant) : (s.setTenant t x).ethMode = s.ethMode := rfl
@[simp] theorem setTenant_eth (s : State) (t : Nat) (x : Tenant) : (s.setTenant t x).eth = s.eth := rfl
@[simp] theorem setTenant_sx (s : State) (t : Nat) (x : Tenant) : (s.setTenant t x).sx = s.sx := rfl
@[simp] theorem setTenant_ev (s : State) (t : Nat) (x : Tenant) : (s.setTenant t x).ev = s.ev := rfl
@[simp] theorem setTenant_rel (s : State) (t : Nat) (x : Tenant) : (s.setTenant t x).rel = s.rel := rfl
@[simp] theorem setTenant_pw (s : State) (t : Nat) (x : Tenant) : (s.setTenant t x).pw = s.pw := rfl
@[simp] theorem setTenant_link (s : State) (t : Nat) (x : Tenant) : (s.setTenant t x).link = s.link := rfl
@[simp] theorem setTenant_st (s : State) (t : Nat) (x : Tenant) : (s.setTenant t x).st = s.st := rfl

/-! ### setCtx -/

@[simp] theorem setCtx_tenants (s : State) (t c : Nat) (x : Ctx) : (s.setCtx t c x).tenants = NMap.set Tenant.init s.tenants t { s.tenant t with ctxs := NMap.set Ctx.init (s.tenant t).ctxs c x } := rfl
@[simp] theorem setCtx_pending (s : State) (t c : Nat) (x : Ctx) : (s.setCtx t c x).pending = s.pending := rfl
@[simp] theorem setCtx_variant (s : State) (t c : Nat) (x : Ctx) : (s.setCtx t c x).variant = s.variant := rfl
@[simp] theorem setCtx_now (s : State) (t c : Nat) (x : Ctx) : (s.setCtx t c x).now = s.now := rfl
@[simp] theorem setCtx_free (s : State) (t c : Nat) (x : Ctx) : (s.setCtx t c x).free = s.free := rfl
@[simp] theorem setCtx_nextId (s : State) (t c : Nat) (x : Ctx) : (s.setCtx t c x).nextId = s.nextId := rfl
@[simp] theorem setCtx_readData (s : State) (t c : Nat) (x : Ctx) : (s.setCtx t c x).readData = s.readData := rfl
@[simp] theorem setCtx_ctr (s : State) (t c : Nat) (x : Ctx) : (s.setCtx t c x).ctr = s.ctr := rfl
@[simp] theorem setCtx_cap (s : State) (t c : Nat) (x : Ctx) : (s.setCtx t c x).cap = s.cap := rfl
@[simp] theorem setCtx_regs (s : State) (t c : Nat) (x : Ctx) : (s.setCtx t c x).regs = s.regs := rfl
@[simp] theorem setCtx_host (s : State) (t c : Nat) (x : Ctx) : (s.setCtx t c x).host = s.host := rfl
@[simp] theorem setCtx_hostPoison (s : State) (t c : Nat) (x : Ctx) : (s.setCtx t c x).hostPoison = s.hostPoison := rfl
@[simp] theorem setCtx_mctp (s : State) (t c : Nat) (x : Ctx) : (s.setCtx t c x).mctp = s.mctp := rfl
@[simp] theorem setCtx_fns (s : State) (t c : Nat) (x : Ctx) : (s.setCtx t c x).fns = s.fns := rfl
@[simp] theorem setCtx_mgmtVersion (s : State) (t c : Nat) (x : Ctx) : (s.setCtx t c x).mgmtVersion = s.mgmtVersion := rfl
@[simp] theorem setCtx_cmds (s : State) (t c : Nat) (x : Ctx) : (s.setCtx t c x).cmds = s.cmds := rfl
@[simp] theorem setCtx_radioCmds (s : State) (t c : Nat) (x : Ctx) : (s.setCtx t c x).radioCmds = s.radioCmds := rfl
@[simp] theorem setCtx_radioSet (s : State) (t c : Nat) (x : Ctx) : (s.setCtx t c x).radioSet = s.radioSet := rfl
@[simp] theorem setCtx_guard (s : State) (t c : Nat) (x : Ctx) : (s.setCtx t c x).guard = s.guard := rfl
@[simp] theorem setCtx_cqUsed (s : State) (t c : Nat) (x : Ctx) : (s.setCtx t c x).cqUsed = s.cqUsed := rfl
@[simp] theorem setCtx_cqPeak (s : State) (t c : Nat) (x : Ctx) : (s.setCtx t c x).cqPeak = s.cqPeak := rfl
@[simp] theorem setCtx_spilled (s : State) (t c : Nat) (x : Ctx) : (s.setCtx t c x).spilled = s.spilled := rfl
@[simp] theorem setCtx_cores (s : State) (t c : Nat) (x : Ctx) : (s.setCtx t c x).cores = s.cores := rfl
@[simp] theorem setCtx_coopers (s : State) (t c : Nat) (x : Ctx) : (s.setCtx t c x).coopers = s.coopers := rfl
@[simp] theorem setCtx_trackers (s : State) (t c : Nat) (x : Ctx) : (s.setCtx t c x).trackers = s.trackers := rfl
@[simp] theorem setCtx_fabric (s : State) (t c : Nat) (x : Ctx) : (s.setCtx t c x).fabric = s.fabric := rfl
@[simp] theorem setCtx_cells (s : State) (t c : Nat) (x : Ctx) : (s.setCtx t c x).cells = s.cells := rfl
@[simp] theorem setCtx_scs (s : State) (t c : Nat) (x : Ctx) : (s.setCtx t c x).scs = s.scs := rfl
@[simp] theorem setCtx_clusters (s : State) (t c : Nat) (x : Ctx) : (s.setCtx t c x).clusters = s.clusters := rfl
@[simp] theorem setCtx_engineStatus (s : State) (t c : Nat) (x : Ctx) : (s.setCtx t c x).engineStatus = s.engineStatus := rfl
@[simp] theorem setCtx_ethMode (s : State) (t c : Nat) (x : Ctx) : (s.setCtx t c x).ethMode = s.ethMode := rfl
@[simp] theorem setCtx_eth (s : State) (t c : Nat) (x : Ctx) : (s.setCtx t c x).eth = s.eth := rfl
@[simp] theorem setCtx_sx (s : State) (t c : Nat) (x : Ctx) : (s.setCtx t c x).sx = s.sx := rfl
@[simp] theorem setCtx_ev (s : State) (t c : Nat) (x : Ctx) : (s.setCtx t c x).ev = s.ev := rfl
@[simp] theorem setCtx_rel (s : State) (t c : Nat) (x : Ctx) : (s.setCtx t c x).rel = s.rel := rfl
@[simp] theorem setCtx_pw (s : State) (t c : Nat) (x : Ctx) : (s.setCtx t c x).pw = s.pw := rfl
@[simp] theorem setCtx_link (s : State) (t c : Nat) (x : Ctx) : (s.setCtx t c x).link = s.link := rfl
@[simp] theorem setCtx_st (s : State) (t c : Nat) (x : Ctx) : (s.setCtx t c x).st = s.st := rfl

/-! ### setObj -/

@[simp] theorem setObj_tenants (s : State) (t h : Nat) (o : Option Obj) : (s.setObj t h o).tenants = NMap.set Tenant.init s.tenants t { s.tenant t with objs := NMap.set none (s.tenant t).objs h o } := rfl
@[simp] theorem setObj_pending (s : State) (t h : Nat) (o : Option Obj) : (s.setObj t h o).pending = s.pending := rfl
@[simp] theorem setObj_variant (s : State) (t h : Nat) (o : Option Obj) : (s.setObj t h o).variant = s.variant := rfl
@[simp] theorem setObj_now (s : State) (t h : Nat) (o : Option Obj) : (s.setObj t h o).now = s.now := rfl
@[simp] theorem setObj_free (s : State) (t h : Nat) (o : Option Obj) : (s.setObj t h o).free = s.free := rfl
@[simp] theorem setObj_nextId (s : State) (t h : Nat) (o : Option Obj) : (s.setObj t h o).nextId = s.nextId := rfl
@[simp] theorem setObj_readData (s : State) (t h : Nat) (o : Option Obj) : (s.setObj t h o).readData = s.readData := rfl
@[simp] theorem setObj_ctr (s : State) (t h : Nat) (o : Option Obj) : (s.setObj t h o).ctr = s.ctr := rfl
@[simp] theorem setObj_cap (s : State) (t h : Nat) (o : Option Obj) : (s.setObj t h o).cap = s.cap := rfl
@[simp] theorem setObj_regs (s : State) (t h : Nat) (o : Option Obj) : (s.setObj t h o).regs = s.regs := rfl
@[simp] theorem setObj_host (s : State) (t h : Nat) (o : Option Obj) : (s.setObj t h o).host = s.host := rfl
@[simp] theorem setObj_hostPoison (s : State) (t h : Nat) (o : Option Obj) : (s.setObj t h o).hostPoison = s.hostPoison := rfl
@[simp] theorem setObj_mctp (s : State) (t h : Nat) (o : Option Obj) : (s.setObj t h o).mctp = s.mctp := rfl
@[simp] theorem setObj_fns (s : State) (t h : Nat) (o : Option Obj) : (s.setObj t h o).fns = s.fns := rfl
@[simp] theorem setObj_mgmtVersion (s : State) (t h : Nat) (o : Option Obj) : (s.setObj t h o).mgmtVersion = s.mgmtVersion := rfl
@[simp] theorem setObj_cmds (s : State) (t h : Nat) (o : Option Obj) : (s.setObj t h o).cmds = s.cmds := rfl
@[simp] theorem setObj_radioCmds (s : State) (t h : Nat) (o : Option Obj) : (s.setObj t h o).radioCmds = s.radioCmds := rfl
@[simp] theorem setObj_radioSet (s : State) (t h : Nat) (o : Option Obj) : (s.setObj t h o).radioSet = s.radioSet := rfl
@[simp] theorem setObj_guard (s : State) (t h : Nat) (o : Option Obj) : (s.setObj t h o).guard = s.guard := rfl
@[simp] theorem setObj_cqUsed (s : State) (t h : Nat) (o : Option Obj) : (s.setObj t h o).cqUsed = s.cqUsed := rfl
@[simp] theorem setObj_cqPeak (s : State) (t h : Nat) (o : Option Obj) : (s.setObj t h o).cqPeak = s.cqPeak := rfl
@[simp] theorem setObj_spilled (s : State) (t h : Nat) (o : Option Obj) : (s.setObj t h o).spilled = s.spilled := rfl
@[simp] theorem setObj_cores (s : State) (t h : Nat) (o : Option Obj) : (s.setObj t h o).cores = s.cores := rfl
@[simp] theorem setObj_coopers (s : State) (t h : Nat) (o : Option Obj) : (s.setObj t h o).coopers = s.coopers := rfl
@[simp] theorem setObj_trackers (s : State) (t h : Nat) (o : Option Obj) : (s.setObj t h o).trackers = s.trackers := rfl
@[simp] theorem setObj_fabric (s : State) (t h : Nat) (o : Option Obj) : (s.setObj t h o).fabric = s.fabric := rfl
@[simp] theorem setObj_cells (s : State) (t h : Nat) (o : Option Obj) : (s.setObj t h o).cells = s.cells := rfl
@[simp] theorem setObj_scs (s : State) (t h : Nat) (o : Option Obj) : (s.setObj t h o).scs = s.scs := rfl
@[simp] theorem setObj_clusters (s : State) (t h : Nat) (o : Option Obj) : (s.setObj t h o).clusters = s.clusters := rfl
@[simp] theorem setObj_engineStatus (s : State) (t h : Nat) (o : Option Obj) : (s.setObj t h o).engineStatus = s.engineStatus := rfl
@[simp] theorem setObj_ethMode (s : State) (t h : Nat) (o : Option Obj) : (s.setObj t h o).ethMode = s.ethMode := rfl
@[simp] theorem setObj_eth (s : State) (t h : Nat) (o : Option Obj) : (s.setObj t h o).eth = s.eth := rfl
@[simp] theorem setObj_sx (s : State) (t h : Nat) (o : Option Obj) : (s.setObj t h o).sx = s.sx := rfl
@[simp] theorem setObj_ev (s : State) (t h : Nat) (o : Option Obj) : (s.setObj t h o).ev = s.ev := rfl
@[simp] theorem setObj_rel (s : State) (t h : Nat) (o : Option Obj) : (s.setObj t h o).rel = s.rel := rfl
@[simp] theorem setObj_pw (s : State) (t h : Nat) (o : Option Obj) : (s.setObj t h o).pw = s.pw := rfl
@[simp] theorem setObj_link (s : State) (t h : Nat) (o : Option Obj) : (s.setObj t h o).link = s.link := rfl
@[simp] theorem setObj_st (s : State) (t h : Nat) (o : Option Obj) : (s.setObj t h o).st = s.st := rfl

/-! ### setToken -/

@[simp] theorem setToken_tenants (s : State) (t k n : Nat) : (s.setToken t k n).tenants = NMap.set Tenant.init s.tenants t { s.tenant t with tokens := NMap.set 0 (s.tenant t).tokens k n } := rfl
@[simp] theorem setToken_pending (s : State) (t k n : Nat) : (s.setToken t k n).pending = s.pending := rfl
@[simp] theorem setToken_variant (s : State) (t k n : Nat) : (s.setToken t k n).variant = s.variant := rfl
@[simp] theorem setToken_now (s : State) (t k n : Nat) : (s.setToken t k n).now = s.now := rfl
@[simp] theorem setToken_free (s : State) (t k n : Nat) : (s.setToken t k n).free = s.free := rfl
@[simp] theorem setToken_nextId (s : State) (t k n : Nat) : (s.setToken t k n).nextId = s.nextId := rfl
@[simp] theorem setToken_readData (s : State) (t k n : Nat) : (s.setToken t k n).readData = s.readData := rfl
@[simp] theorem setToken_ctr (s : State) (t k n : Nat) : (s.setToken t k n).ctr = s.ctr := rfl
@[simp] theorem setToken_cap (s : State) (t k n : Nat) : (s.setToken t k n).cap = s.cap := rfl
@[simp] theorem setToken_regs (s : State) (t k n : Nat) : (s.setToken t k n).regs = s.regs := rfl
@[simp] theorem setToken_host (s : State) (t k n : Nat) : (s.setToken t k n).host = s.host := rfl
@[simp] theorem setToken_hostPoison (s : State) (t k n : Nat) : (s.setToken t k n).hostPoison = s.hostPoison := rfl
@[simp] theorem setToken_mctp (s : State) (t k n : Nat) : (s.setToken t k n).mctp = s.mctp := rfl
@[simp] theorem setToken_fns (s : State) (t k n : Nat) : (s.setToken t k n).fns = s.fns := rfl
@[simp] theorem setToken_mgmtVersion (s : State) (t k n : Nat) : (s.setToken t k n).mgmtVersion = s.mgmtVersion := rfl
@[simp] theorem setToken_cmds (s : State) (t k n : Nat) : (s.setToken t k n).cmds = s.cmds := rfl
@[simp] theorem setToken_radioCmds (s : State) (t k n : Nat) : (s.setToken t k n).radioCmds = s.radioCmds := rfl
@[simp] theorem setToken_radioSet (s : State) (t k n : Nat) : (s.setToken t k n).radioSet = s.radioSet := rfl
@[simp] theorem setToken_guard (s : State) (t k n : Nat) : (s.setToken t k n).guard = s.guard := rfl
@[simp] theorem setToken_cqUsed (s : State) (t k n : Nat) : (s.setToken t k n).cqUsed = s.cqUsed := rfl
@[simp] theorem setToken_cqPeak (s : State) (t k n : Nat) : (s.setToken t k n).cqPeak = s.cqPeak := rfl
@[simp] theorem setToken_spilled (s : State) (t k n : Nat) : (s.setToken t k n).spilled = s.spilled := rfl
@[simp] theorem setToken_cores (s : State) (t k n : Nat) : (s.setToken t k n).cores = s.cores := rfl
@[simp] theorem setToken_coopers (s : State) (t k n : Nat) : (s.setToken t k n).coopers = s.coopers := rfl
@[simp] theorem setToken_trackers (s : State) (t k n : Nat) : (s.setToken t k n).trackers = s.trackers := rfl
@[simp] theorem setToken_fabric (s : State) (t k n : Nat) : (s.setToken t k n).fabric = s.fabric := rfl
@[simp] theorem setToken_cells (s : State) (t k n : Nat) : (s.setToken t k n).cells = s.cells := rfl
@[simp] theorem setToken_scs (s : State) (t k n : Nat) : (s.setToken t k n).scs = s.scs := rfl
@[simp] theorem setToken_clusters (s : State) (t k n : Nat) : (s.setToken t k n).clusters = s.clusters := rfl
@[simp] theorem setToken_engineStatus (s : State) (t k n : Nat) : (s.setToken t k n).engineStatus = s.engineStatus := rfl
@[simp] theorem setToken_ethMode (s : State) (t k n : Nat) : (s.setToken t k n).ethMode = s.ethMode := rfl
@[simp] theorem setToken_eth (s : State) (t k n : Nat) : (s.setToken t k n).eth = s.eth := rfl
@[simp] theorem setToken_sx (s : State) (t k n : Nat) : (s.setToken t k n).sx = s.sx := rfl
@[simp] theorem setToken_ev (s : State) (t k n : Nat) : (s.setToken t k n).ev = s.ev := rfl
@[simp] theorem setToken_rel (s : State) (t k n : Nat) : (s.setToken t k n).rel = s.rel := rfl
@[simp] theorem setToken_pw (s : State) (t k n : Nat) : (s.setToken t k n).pw = s.pw := rfl
@[simp] theorem setToken_link (s : State) (t k n : Nat) : (s.setToken t k n).link = s.link := rfl
@[simp] theorem setToken_st (s : State) (t k n : Nat) : (s.setToken t k n).st = s.st := rfl

/-! ### setCore -/

@[simp] theorem setCore_cores (s : State) (k : Nat) (x : Core) : (s.setCore k x).cores = NMap.set Core.init s.cores k x := rfl
@[simp] theorem setCore_pending (s : State) (k : Nat) (x : Core) : (s.setCore k x).pending = s.pending := rfl
@[simp] theorem setCore_variant (s : State) (k : Nat) (x : Core) : (s.setCore k x).variant = s.variant := rfl
@[simp] theorem setCore_now (s : State) (k : Nat) (x : Core) : (s.setCore k x).now = s.now := rfl
@[simp] theorem setCore_free (s : State) (k : Nat) (x : Core) : (s.setCore k x).free = s.free := rfl
@[simp] theorem setCore_nextId (s : State) (k : Nat) (x : Core) : (s.setCore k x).nextId = s.nextId := rfl
@[simp] theorem setCore_readData (s : State) (k : Nat) (x : Core) : (s.setCore k x).readData = s.readData := rfl
@[simp] theorem setCore_ctr (s : State) (k : Nat) (x : Core) : (s.setCore k x).ctr = s.ctr := rfl
@[simp] theorem setCore_cap (s : State) (k : Nat) (x : Core) : (s.setCore k x).cap = s.cap := rfl
@[simp] theorem setCore_regs (s : State) (k : Nat) (x : Core) : (s.setCore k x).regs = s.regs := rfl
@[simp] theorem setCore_host (s : State) (k : Nat) (x : Core) : (s.setCore k x).host = s.host := rfl
@[simp] theorem setCore_hostPoison (s : State) (k : Nat) (x : Core) : (s.setCore k x).hostPoison = s.hostPoison := rfl
@[simp] theorem setCore_mctp (s : State) (k : Nat) (x : Core) : (s.setCore k x).mctp = s.mctp := rfl
@[simp] theorem setCore_fns (s : State) (k : Nat) (x : Core) : (s.setCore k x).fns = s.fns := rfl
@[simp] theorem setCore_tenants (s : State) (k : Nat) (x : Core) : (s.setCore k x).tenants = s.tenants := rfl
@[simp] theorem setCore_mgmtVersion (s : State) (k : Nat) (x : Core) : (s.setCore k x).mgmtVersion = s.mgmtVersion := rfl
@[simp] theorem setCore_cmds (s : State) (k : Nat) (x : Core) : (s.setCore k x).cmds = s.cmds := rfl
@[simp] theorem setCore_radioCmds (s : State) (k : Nat) (x : Core) : (s.setCore k x).radioCmds = s.radioCmds := rfl
@[simp] theorem setCore_radioSet (s : State) (k : Nat) (x : Core) : (s.setCore k x).radioSet = s.radioSet := rfl
@[simp] theorem setCore_guard (s : State) (k : Nat) (x : Core) : (s.setCore k x).guard = s.guard := rfl
@[simp] theorem setCore_cqUsed (s : State) (k : Nat) (x : Core) : (s.setCore k x).cqUsed = s.cqUsed := rfl
@[simp] theorem setCore_cqPeak (s : State) (k : Nat) (x : Core) : (s.setCore k x).cqPeak = s.cqPeak := rfl
@[simp] theorem setCore_spilled (s : State) (k : Nat) (x : Core) : (s.setCore k x).spilled = s.spilled := rfl
@[simp] theorem setCore_coopers (s : State) (k : Nat) (x : Core) : (s.setCore k x).coopers = s.coopers := rfl
@[simp] theorem setCore_trackers (s : State) (k : Nat) (x : Core) : (s.setCore k x).trackers = s.trackers := rfl
@[simp] theorem setCore_fabric (s : State) (k : Nat) (x : Core) : (s.setCore k x).fabric = s.fabric := rfl
@[simp] theorem setCore_cells (s : State) (k : Nat) (x : Core) : (s.setCore k x).cells = s.cells := rfl
@[simp] theorem setCore_scs (s : State) (k : Nat) (x : Core) : (s.setCore k x).scs = s.scs := rfl
@[simp] theorem setCore_clusters (s : State) (k : Nat) (x : Core) : (s.setCore k x).clusters = s.clusters := rfl
@[simp] theorem setCore_engineStatus (s : State) (k : Nat) (x : Core) : (s.setCore k x).engineStatus = s.engineStatus := rfl
@[simp] theorem setCore_ethMode (s : State) (k : Nat) (x : Core) : (s.setCore k x).ethMode = s.ethMode := rfl
@[simp] theorem setCore_eth (s : State) (k : Nat) (x : Core) : (s.setCore k x).eth = s.eth := rfl
@[simp] theorem setCore_sx (s : State) (k : Nat) (x : Core) : (s.setCore k x).sx = s.sx := rfl
@[simp] theorem setCore_ev (s : State) (k : Nat) (x : Core) : (s.setCore k x).ev = s.ev := rfl
@[simp] theorem setCore_rel (s : State) (k : Nat) (x : Core) : (s.setCore k x).rel = s.rel := rfl
@[simp] theorem setCore_pw (s : State) (k : Nat) (x : Core) : (s.setCore k x).pw = s.pw := rfl
@[simp] theorem setCore_link (s : State) (k : Nat) (x : Core) : (s.setCore k x).link = s.link := rfl
@[simp] theorem setCore_st (s : State) (k : Nat) (x : Core) : (s.setCore k x).st = s.st := rfl

/-! ### setVe -/

@[simp] theorem setVe_cores (s : State) (k : Nat) (v : Ve) : (s.setVe k v).cores = NMap.set Core.init s.cores k { s.core k with ve := some v } := rfl
@[simp] theorem setVe_pending (s : State) (k : Nat) (v : Ve) : (s.setVe k v).pending = s.pending := rfl
@[simp] theorem setVe_variant (s : State) (k : Nat) (v : Ve) : (s.setVe k v).variant = s.variant := rfl
@[simp] theorem setVe_now (s : State) (k : Nat) (v : Ve) : (s.setVe k v).now = s.now := rfl
@[simp] theorem setVe_free (s : State) (k : Nat) (v : Ve) : (s.setVe k v).free = s.free := rfl
@[simp] theorem setVe_nextId (s : State) (k : Nat) (v : Ve) : (s.setVe k v).nextId = s.nextId := rfl
@[simp] theorem setVe_readData (s : State) (k : Nat) (v : Ve) : (s.setVe k v).readData = s.readData := rfl
@[simp] theorem setVe_ctr (s : State) (k : Nat) (v : Ve) : (s.setVe k v).ctr = s.ctr := rfl
@[simp] theorem setVe_cap (s : State) (k : Nat) (v : Ve) : (s.setVe k v).cap = s.cap := rfl
@[simp] theorem setVe_regs (s : State) (k : Nat) (v : Ve) : (s.setVe k v).regs = s.regs := rfl
@[simp] theorem setVe_host (s : State) (k : Nat) (v : Ve) : (s.setVe k v).host = s.host := rfl
@[simp] theorem setVe_hostPoison (s : State) (k : Nat) (v : Ve) : (s.setVe k v).hostPoison = s.hostPoison := rfl
@[simp] theorem setVe_mctp (s : State) (k : Nat) (v : Ve) : (s.setVe k v).mctp = s.mctp := rfl
@[simp] theorem setVe_fns (s : State) (k : Nat) (v : Ve) : (s.setVe k v).fns = s.fns := rfl
@[simp] theorem setVe_tenants (s : State) (k : Nat) (v : Ve) : (s.setVe k v).tenants = s.tenants := rfl
@[simp] theorem setVe_mgmtVersion (s : State) (k : Nat) (v : Ve) : (s.setVe k v).mgmtVersion = s.mgmtVersion := rfl
@[simp] theorem setVe_cmds (s : State) (k : Nat) (v : Ve) : (s.setVe k v).cmds = s.cmds := rfl
@[simp] theorem setVe_radioCmds (s : State) (k : Nat) (v : Ve) : (s.setVe k v).radioCmds = s.radioCmds := rfl
@[simp] theorem setVe_radioSet (s : State) (k : Nat) (v : Ve) : (s.setVe k v).radioSet = s.radioSet := rfl
@[simp] theorem setVe_guard (s : State) (k : Nat) (v : Ve) : (s.setVe k v).guard = s.guard := rfl
@[simp] theorem setVe_cqUsed (s : State) (k : Nat) (v : Ve) : (s.setVe k v).cqUsed = s.cqUsed := rfl
@[simp] theorem setVe_cqPeak (s : State) (k : Nat) (v : Ve) : (s.setVe k v).cqPeak = s.cqPeak := rfl
@[simp] theorem setVe_spilled (s : State) (k : Nat) (v : Ve) : (s.setVe k v).spilled = s.spilled := rfl
@[simp] theorem setVe_coopers (s : State) (k : Nat) (v : Ve) : (s.setVe k v).coopers = s.coopers := rfl
@[simp] theorem setVe_trackers (s : State) (k : Nat) (v : Ve) : (s.setVe k v).trackers = s.trackers := rfl
@[simp] theorem setVe_fabric (s : State) (k : Nat) (v : Ve) : (s.setVe k v).fabric = s.fabric := rfl
@[simp] theorem setVe_cells (s : State) (k : Nat) (v : Ve) : (s.setVe k v).cells = s.cells := rfl
@[simp] theorem setVe_scs (s : State) (k : Nat) (v : Ve) : (s.setVe k v).scs = s.scs := rfl
@[simp] theorem setVe_clusters (s : State) (k : Nat) (v : Ve) : (s.setVe k v).clusters = s.clusters := rfl
@[simp] theorem setVe_engineStatus (s : State) (k : Nat) (v : Ve) : (s.setVe k v).engineStatus = s.engineStatus := rfl
@[simp] theorem setVe_ethMode (s : State) (k : Nat) (v : Ve) : (s.setVe k v).ethMode = s.ethMode := rfl
@[simp] theorem setVe_eth (s : State) (k : Nat) (v : Ve) : (s.setVe k v).eth = s.eth := rfl
@[simp] theorem setVe_sx (s : State) (k : Nat) (v : Ve) : (s.setVe k v).sx = s.sx := rfl
@[simp] theorem setVe_ev (s : State) (k : Nat) (v : Ve) : (s.setVe k v).ev = s.ev := rfl
@[simp] theorem setVe_rel (s : State) (k : Nat) (v : Ve) : (s.setVe k v).rel = s.rel := rfl
@[simp] theorem setVe_pw (s : State) (k : Nat) (v : Ve) : (s.setVe k v).pw = s.pw := rfl
@[simp] theorem setVe_link (s : State) (k : Nat) (v : Ve) : (s.setVe k v).link = s.link := rfl
@[simp] theorem setVe_st (s : State) (k : Nat) (v : Ve) : (s.setVe k v).st = s.st := rfl

/-! ### setCell -/

@[simp] theorem setCell_cells (s : State) (n : Nat) (x : Option Cell) : (s.setCell n x).cells = NMap.set none s.cells n x := rfl
@[simp] theorem setCell_pending (s : State) (n : Nat) (x : Option Cell) : (s.setCell n x).pending = s.pending := rfl
@[simp] theorem setCell_variant (s : State) (n : Nat) (x : Option Cell) : (s.setCell n x).variant = s.variant := rfl
@[simp] theorem setCell_now (s : State) (n : Nat) (x : Option Cell) : (s.setCell n x).now = s.now := rfl
@[simp] theorem setCell_free (s : State) (n : Nat) (x : Option Cell) : (s.setCell n x).free = s.free := rfl
@[simp] theorem setCell_nextId (s : State) (n : Nat) (x : Option Cell) : (s.setCell n x).nextId = s.nextId := rfl
@[simp] theorem setCell_readData (s : State) (n : Nat) (x : Option Cell) : (s.setCell n x).readData = s.readData := rfl
@[simp] theorem setCell_ctr (s : State) (n : Nat) (x : Option Cell) : (s.setCell n x).ctr = s.ctr := rfl
@[simp] theorem setCell_cap (s : State) (n : Nat) (x : Option Cell) : (s.setCell n x).cap = s.cap := rfl
@[simp] theorem setCell_regs (s : State) (n : Nat) (x : Option Cell) : (s.setCell n x).regs = s.regs := rfl
@[simp] theorem setCell_host (s : State) (n : Nat) (x : Option Cell) : (s.setCell n x).host = s.host := rfl
@[simp] theorem setCell_hostPoison (s : State) (n : Nat) (x : Option Cell) : (s.setCell n x).hostPoison = s.hostPoison := rfl
@[simp] theorem setCell_mctp (s : State) (n : Nat) (x : Option Cell) : (s.setCell n x).mctp = s.mctp := rfl
@[simp] theorem setCell_fns (s : State) (n : Nat) (x : Option Cell) : (s.setCell n x).fns = s.fns := rfl
@[simp] theorem setCell_tenants (s : State) (n : Nat) (x : Option Cell) : (s.setCell n x).tenants = s.tenants := rfl
@[simp] theorem setCell_mgmtVersion (s : State) (n : Nat) (x : Option Cell) : (s.setCell n x).mgmtVersion = s.mgmtVersion := rfl
@[simp] theorem setCell_cmds (s : State) (n : Nat) (x : Option Cell) : (s.setCell n x).cmds = s.cmds := rfl
@[simp] theorem setCell_radioCmds (s : State) (n : Nat) (x : Option Cell) : (s.setCell n x).radioCmds = s.radioCmds := rfl
@[simp] theorem setCell_radioSet (s : State) (n : Nat) (x : Option Cell) : (s.setCell n x).radioSet = s.radioSet := rfl
@[simp] theorem setCell_guard (s : State) (n : Nat) (x : Option Cell) : (s.setCell n x).guard = s.guard := rfl
@[simp] theorem setCell_cqUsed (s : State) (n : Nat) (x : Option Cell) : (s.setCell n x).cqUsed = s.cqUsed := rfl
@[simp] theorem setCell_cqPeak (s : State) (n : Nat) (x : Option Cell) : (s.setCell n x).cqPeak = s.cqPeak := rfl
@[simp] theorem setCell_spilled (s : State) (n : Nat) (x : Option Cell) : (s.setCell n x).spilled = s.spilled := rfl
@[simp] theorem setCell_cores (s : State) (n : Nat) (x : Option Cell) : (s.setCell n x).cores = s.cores := rfl
@[simp] theorem setCell_coopers (s : State) (n : Nat) (x : Option Cell) : (s.setCell n x).coopers = s.coopers := rfl
@[simp] theorem setCell_trackers (s : State) (n : Nat) (x : Option Cell) : (s.setCell n x).trackers = s.trackers := rfl
@[simp] theorem setCell_fabric (s : State) (n : Nat) (x : Option Cell) : (s.setCell n x).fabric = s.fabric := rfl
@[simp] theorem setCell_scs (s : State) (n : Nat) (x : Option Cell) : (s.setCell n x).scs = s.scs := rfl
@[simp] theorem setCell_clusters (s : State) (n : Nat) (x : Option Cell) : (s.setCell n x).clusters = s.clusters := rfl
@[simp] theorem setCell_engineStatus (s : State) (n : Nat) (x : Option Cell) : (s.setCell n x).engineStatus = s.engineStatus := rfl
@[simp] theorem setCell_ethMode (s : State) (n : Nat) (x : Option Cell) : (s.setCell n x).ethMode = s.ethMode := rfl
@[simp] theorem setCell_eth (s : State) (n : Nat) (x : Option Cell) : (s.setCell n x).eth = s.eth := rfl
@[simp] theorem setCell_sx (s : State) (n : Nat) (x : Option Cell) : (s.setCell n x).sx = s.sx := rfl
@[simp] theorem setCell_ev (s : State) (n : Nat) (x : Option Cell) : (s.setCell n x).ev = s.ev := rfl
@[simp] theorem setCell_rel (s : State) (n : Nat) (x : Option Cell) : (s.setCell n x).rel = s.rel := rfl
@[simp] theorem setCell_pw (s : State) (n : Nat) (x : Option Cell) : (s.setCell n x).pw = s.pw := rfl
@[simp] theorem setCell_link (s : State) (n : Nat) (x : Option Cell) : (s.setCell n x).link = s.link := rfl
@[simp] theorem setCell_st (s : State) (n : Nat) (x : Option Cell) : (s.setCell n x).st = s.st := rfl

/-! ### setSc -/

@[simp] theorem setSc_scs (s : State) (n : Nat) (x : Sc) : (s.setSc n x).scs = NMap.set Sc.init s.scs n x := rfl
@[simp] theorem setSc_pending (s : State) (n : Nat) (x : Sc) : (s.setSc n x).pending = s.pending := rfl
@[simp] theorem setSc_variant (s : State) (n : Nat) (x : Sc) : (s.setSc n x).variant = s.variant := rfl
@[simp] theorem setSc_now (s : State) (n : Nat) (x : Sc) : (s.setSc n x).now = s.now := rfl
@[simp] theorem setSc_free (s : State) (n : Nat) (x : Sc) : (s.setSc n x).free = s.free := rfl
@[simp] theorem setSc_nextId (s : State) (n : Nat) (x : Sc) : (s.setSc n x).nextId = s.nextId := rfl
@[simp] theorem setSc_readData (s : State) (n : Nat) (x : Sc) : (s.setSc n x).readData = s.readData := rfl
@[simp] theorem setSc_ctr (s : State) (n : Nat) (x : Sc) : (s.setSc n x).ctr = s.ctr := rfl
@[simp] theorem setSc_cap (s : State) (n : Nat) (x : Sc) : (s.setSc n x).cap = s.cap := rfl
@[simp] theorem setSc_regs (s : State) (n : Nat) (x : Sc) : (s.setSc n x).regs = s.regs := rfl
@[simp] theorem setSc_host (s : State) (n : Nat) (x : Sc) : (s.setSc n x).host = s.host := rfl
@[simp] theorem setSc_hostPoison (s : State) (n : Nat) (x : Sc) : (s.setSc n x).hostPoison = s.hostPoison := rfl
@[simp] theorem setSc_mctp (s : State) (n : Nat) (x : Sc) : (s.setSc n x).mctp = s.mctp := rfl
@[simp] theorem setSc_fns (s : State) (n : Nat) (x : Sc) : (s.setSc n x).fns = s.fns := rfl
@[simp] theorem setSc_tenants (s : State) (n : Nat) (x : Sc) : (s.setSc n x).tenants = s.tenants := rfl
@[simp] theorem setSc_mgmtVersion (s : State) (n : Nat) (x : Sc) : (s.setSc n x).mgmtVersion = s.mgmtVersion := rfl
@[simp] theorem setSc_cmds (s : State) (n : Nat) (x : Sc) : (s.setSc n x).cmds = s.cmds := rfl
@[simp] theorem setSc_radioCmds (s : State) (n : Nat) (x : Sc) : (s.setSc n x).radioCmds = s.radioCmds := rfl
@[simp] theorem setSc_radioSet (s : State) (n : Nat) (x : Sc) : (s.setSc n x).radioSet = s.radioSet := rfl
@[simp] theorem setSc_guard (s : State) (n : Nat) (x : Sc) : (s.setSc n x).guard = s.guard := rfl
@[simp] theorem setSc_cqUsed (s : State) (n : Nat) (x : Sc) : (s.setSc n x).cqUsed = s.cqUsed := rfl
@[simp] theorem setSc_cqPeak (s : State) (n : Nat) (x : Sc) : (s.setSc n x).cqPeak = s.cqPeak := rfl
@[simp] theorem setSc_spilled (s : State) (n : Nat) (x : Sc) : (s.setSc n x).spilled = s.spilled := rfl
@[simp] theorem setSc_cores (s : State) (n : Nat) (x : Sc) : (s.setSc n x).cores = s.cores := rfl
@[simp] theorem setSc_coopers (s : State) (n : Nat) (x : Sc) : (s.setSc n x).coopers = s.coopers := rfl
@[simp] theorem setSc_trackers (s : State) (n : Nat) (x : Sc) : (s.setSc n x).trackers = s.trackers := rfl
@[simp] theorem setSc_fabric (s : State) (n : Nat) (x : Sc) : (s.setSc n x).fabric = s.fabric := rfl
@[simp] theorem setSc_cells (s : State) (n : Nat) (x : Sc) : (s.setSc n x).cells = s.cells := rfl
@[simp] theorem setSc_clusters (s : State) (n : Nat) (x : Sc) : (s.setSc n x).clusters = s.clusters := rfl
@[simp] theorem setSc_engineStatus (s : State) (n : Nat) (x : Sc) : (s.setSc n x).engineStatus = s.engineStatus := rfl
@[simp] theorem setSc_ethMode (s : State) (n : Nat) (x : Sc) : (s.setSc n x).ethMode = s.ethMode := rfl
@[simp] theorem setSc_eth (s : State) (n : Nat) (x : Sc) : (s.setSc n x).eth = s.eth := rfl
@[simp] theorem setSc_sx (s : State) (n : Nat) (x : Sc) : (s.setSc n x).sx = s.sx := rfl
@[simp] theorem setSc_ev (s : State) (n : Nat) (x : Sc) : (s.setSc n x).ev = s.ev := rfl
@[simp] theorem setSc_rel (s : State) (n : Nat) (x : Sc) : (s.setSc n x).rel = s.rel := rfl
@[simp] theorem setSc_pw (s : State) (n : Nat) (x : Sc) : (s.setSc n x).pw = s.pw := rfl
@[simp] theorem setSc_link (s : State) (n : Nat) (x : Sc) : (s.setSc n x).link = s.link := rfl
@[simp] theorem setSc_st (s : State) (n : Nat) (x : Sc) : (s.setSc n x).st = s.st := rfl

/-! ### setCluster -/

@[simp] theorem setCluster_clusters (s : State) (k : Nat) (x : Cluster) : (s.setCluster k x).clusters = NMap.set Cluster.init s.clusters k x := rfl
@[simp] theorem setCluster_pending (s : State) (k : Nat) (x : Cluster) : (s.setCluster k x).pending = s.pending := rfl
@[simp] theorem setCluster_variant (s : State) (k : Nat) (x : Cluster) : (s.setCluster k x).variant = s.variant := rfl
@[simp] theorem setCluster_now (s : State) (k : Nat) (x : Cluster) : (s.setCluster k x).now = s.now := rfl
@[simp] theorem setCluster_free (s : State) (k : Nat) (x : Cluster) : (s.setCluster k x).free = s.free := rfl
@[simp] theorem setCluster_nextId (s : State) (k : Nat) (x : Cluster) : (s.setCluster k x).nextId = s.nextId := rfl
@[simp] theorem setCluster_readData (s : State) (k : Nat) (x : Cluster) : (s.setCluster k x).readData = s.readData := rfl
@[simp] theorem setCluster_ctr (s : State) (k : Nat) (x : Cluster) : (s.setCluster k x).ctr = s.ctr := rfl
@[simp] theorem setCluster_cap (s : State) (k : Nat) (x : Cluster) : (s.setCluster k x).cap = s.cap := rfl
@[simp] theorem setCluster_regs (s : State) (k : Nat) (x : Cluster) : (s.setCluster k x).regs = s.regs := rfl
@[simp] theorem setCluster_host (s : State) (k : Nat) (x : Cluster) : (s.setCluster k x).host = s.host := rfl
@[simp] theorem setCluster_hostPoison (s : State) (k : Nat) (x : Cluster) : (s.setCluster k x).hostPoison = s.hostPoison := rfl
@[simp] theorem setCluster_mctp (s : State) (k : Nat) (x : Cluster) : (s.setCluster k x).mctp = s.mctp := rfl
@[simp] theorem setCluster_fns (s : State) (k : Nat) (x : Cluster) : (s.setCluster k x).fns = s.fns := rfl
@[simp] theorem setCluster_tenants (s : State) (k : Nat) (x : Cluster) : (s.setCluster k x).tenants = s.tenants := rfl
@[simp] theorem setCluster_mgmtVersion (s : State) (k : Nat) (x : Cluster) : (s.setCluster k x).mgmtVersion = s.mgmtVersion := rfl
@[simp] theorem setCluster_cmds (s : State) (k : Nat) (x : Cluster) : (s.setCluster k x).cmds = s.cmds := rfl
@[simp] theorem setCluster_radioCmds (s : State) (k : Nat) (x : Cluster) : (s.setCluster k x).radioCmds = s.radioCmds := rfl
@[simp] theorem setCluster_radioSet (s : State) (k : Nat) (x : Cluster) : (s.setCluster k x).radioSet = s.radioSet := rfl
@[simp] theorem setCluster_guard (s : State) (k : Nat) (x : Cluster) : (s.setCluster k x).guard = s.guard := rfl
@[simp] theorem setCluster_cqUsed (s : State) (k : Nat) (x : Cluster) : (s.setCluster k x).cqUsed = s.cqUsed := rfl
@[simp] theorem setCluster_cqPeak (s : State) (k : Nat) (x : Cluster) : (s.setCluster k x).cqPeak = s.cqPeak := rfl
@[simp] theorem setCluster_spilled (s : State) (k : Nat) (x : Cluster) : (s.setCluster k x).spilled = s.spilled := rfl
@[simp] theorem setCluster_cores (s : State) (k : Nat) (x : Cluster) : (s.setCluster k x).cores = s.cores := rfl
@[simp] theorem setCluster_coopers (s : State) (k : Nat) (x : Cluster) : (s.setCluster k x).coopers = s.coopers := rfl
@[simp] theorem setCluster_trackers (s : State) (k : Nat) (x : Cluster) : (s.setCluster k x).trackers = s.trackers := rfl
@[simp] theorem setCluster_fabric (s : State) (k : Nat) (x : Cluster) : (s.setCluster k x).fabric = s.fabric := rfl
@[simp] theorem setCluster_cells (s : State) (k : Nat) (x : Cluster) : (s.setCluster k x).cells = s.cells := rfl
@[simp] theorem setCluster_scs (s : State) (k : Nat) (x : Cluster) : (s.setCluster k x).scs = s.scs := rfl
@[simp] theorem setCluster_engineStatus (s : State) (k : Nat) (x : Cluster) : (s.setCluster k x).engineStatus = s.engineStatus := rfl
@[simp] theorem setCluster_ethMode (s : State) (k : Nat) (x : Cluster) : (s.setCluster k x).ethMode = s.ethMode := rfl
@[simp] theorem setCluster_eth (s : State) (k : Nat) (x : Cluster) : (s.setCluster k x).eth = s.eth := rfl
@[simp] theorem setCluster_sx (s : State) (k : Nat) (x : Cluster) : (s.setCluster k x).sx = s.sx := rfl
@[simp] theorem setCluster_ev (s : State) (k : Nat) (x : Cluster) : (s.setCluster k x).ev = s.ev := rfl
@[simp] theorem setCluster_rel (s : State) (k : Nat) (x : Cluster) : (s.setCluster k x).rel = s.rel := rfl
@[simp] theorem setCluster_pw (s : State) (k : Nat) (x : Cluster) : (s.setCluster k x).pw = s.pw := rfl
@[simp] theorem setCluster_link (s : State) (k : Nat) (x : Cluster) : (s.setCluster k x).link = s.link := rfl
@[simp] theorem setCluster_st (s : State) (k : Nat) (x : Cluster) : (s.setCluster k x).st = s.st := rfl

/-! ### setSub -/

@[simp] theorem setSub_eth (s : State) (n : Nat) (p : SubPort) : (s.setSub n p).eth = NMap.set SubPort.init s.eth n p := rfl
@[simp] theorem setSub_pending (s : State) (n : Nat) (p : SubPort) : (s.setSub n p).pending = s.pending := rfl
@[simp] theorem setSub_variant (s : State) (n : Nat) (p : SubPort) : (s.setSub n p).variant = s.variant := rfl
@[simp] theorem setSub_now (s : State) (n : Nat) (p : SubPort) : (s.setSub n p).now = s.now := rfl
@[simp] theorem setSub_free (s : State) (n : Nat) (p : SubPort) : (s.setSub n p).free = s.free := rfl
@[simp] theorem setSub_nextId (s : State) (n : Nat) (p : SubPort) : (s.setSub n p).nextId = s.nextId := rfl
@[simp] theorem setSub_readData (s : State) (n : Nat) (p : SubPort) : (s.setSub n p).readData = s.readData := rfl
@[simp] theorem setSub_ctr (s : State) (n : Nat) (p : SubPort) : (s.setSub n p).ctr = s.ctr := rfl
@[simp] theorem setSub_cap (s : State) (n : Nat) (p : SubPort) : (s.setSub n p).cap = s.cap := rfl
@[simp] theorem setSub_regs (s : State) (n : Nat) (p : SubPort) : (s.setSub n p).regs = s.regs := rfl
@[simp] theorem setSub_host (s : State) (n : Nat) (p : SubPort) : (s.setSub n p).host = s.host := rfl
@[simp] theorem setSub_hostPoison (s : State) (n : Nat) (p : SubPort) : (s.setSub n p).hostPoison = s.hostPoison := rfl
@[simp] theorem setSub_mctp (s : State) (n : Nat) (p : SubPort) : (s.setSub n p).mctp = s.mctp := rfl
@[simp] theorem setSub_fns (s : State) (n : Nat) (p : SubPort) : (s.setSub n p).fns = s.fns := rfl
@[simp] theorem setSub_tenants (s : State) (n : Nat) (p : SubPort) : (s.setSub n p).tenants = s.tenants := rfl
@[simp] theorem setSub_mgmtVersion (s : State) (n : Nat) (p : SubPort) : (s.setSub n p).mgmtVersion = s.mgmtVersion := rfl
@[simp] theorem setSub_cmds (s : State) (n : Nat) (p : SubPort) : (s.setSub n p).cmds = s.cmds := rfl
@[simp] theorem setSub_radioCmds (s : State) (n : Nat) (p : SubPort) : (s.setSub n p).radioCmds = s.radioCmds := rfl
@[simp] theorem setSub_radioSet (s : State) (n : Nat) (p : SubPort) : (s.setSub n p).radioSet = s.radioSet := rfl
@[simp] theorem setSub_guard (s : State) (n : Nat) (p : SubPort) : (s.setSub n p).guard = s.guard := rfl
@[simp] theorem setSub_cqUsed (s : State) (n : Nat) (p : SubPort) : (s.setSub n p).cqUsed = s.cqUsed := rfl
@[simp] theorem setSub_cqPeak (s : State) (n : Nat) (p : SubPort) : (s.setSub n p).cqPeak = s.cqPeak := rfl
@[simp] theorem setSub_spilled (s : State) (n : Nat) (p : SubPort) : (s.setSub n p).spilled = s.spilled := rfl
@[simp] theorem setSub_cores (s : State) (n : Nat) (p : SubPort) : (s.setSub n p).cores = s.cores := rfl
@[simp] theorem setSub_coopers (s : State) (n : Nat) (p : SubPort) : (s.setSub n p).coopers = s.coopers := rfl
@[simp] theorem setSub_trackers (s : State) (n : Nat) (p : SubPort) : (s.setSub n p).trackers = s.trackers := rfl
@[simp] theorem setSub_fabric (s : State) (n : Nat) (p : SubPort) : (s.setSub n p).fabric = s.fabric := rfl
@[simp] theorem setSub_cells (s : State) (n : Nat) (p : SubPort) : (s.setSub n p).cells = s.cells := rfl
@[simp] theorem setSub_scs (s : State) (n : Nat) (p : SubPort) : (s.setSub n p).scs = s.scs := rfl
@[simp] theorem setSub_clusters (s : State) (n : Nat) (p : SubPort) : (s.setSub n p).clusters = s.clusters := rfl
@[simp] theorem setSub_engineStatus (s : State) (n : Nat) (p : SubPort) : (s.setSub n p).engineStatus = s.engineStatus := rfl
@[simp] theorem setSub_ethMode (s : State) (n : Nat) (p : SubPort) : (s.setSub n p).ethMode = s.ethMode := rfl
@[simp] theorem setSub_sx (s : State) (n : Nat) (p : SubPort) : (s.setSub n p).sx = s.sx := rfl
@[simp] theorem setSub_ev (s : State) (n : Nat) (p : SubPort) : (s.setSub n p).ev = s.ev := rfl
@[simp] theorem setSub_rel (s : State) (n : Nat) (p : SubPort) : (s.setSub n p).rel = s.rel := rfl
@[simp] theorem setSub_pw (s : State) (n : Nat) (p : SubPort) : (s.setSub n p).pw = s.pw := rfl
@[simp] theorem setSub_link (s : State) (n : Nat) (p : SubPort) : (s.setSub n p).link = s.link := rfl
@[simp] theorem setSub_st (s : State) (n : Nat) (p : SubPort) : (s.setSub n p).st = s.st := rfl

/-! ### setWfPort -/

@[simp] theorem setWfPort_fabric (s : State) (p : Nat) (x : WfPort) : (s.setWfPort p x).fabric = { s.fabric with ports := NMap.set WfPort.init s.fabric.ports p x } := rfl
@[simp] theorem setWfPort_pending (s : State) (p : Nat) (x : WfPort) : (s.setWfPort p x).pending = s.pending := rfl
@[simp] theorem setWfPort_variant (s : State) (p : Nat) (x : WfPort) : (s.setWfPort p x).variant = s.variant := rfl
@[simp] theorem setWfPort_now (s : State) (p : Nat) (x : WfPort) : (s.setWfPort p x).now = s.now := rfl
@[simp] theorem setWfPort_free (s : State) (p : Nat) (x : WfPort) : (s.setWfPort p x).free = s.free := rfl
@[simp] theorem setWfPort_nextId (s : State) (p : Nat) (x : WfPort) : (s.setWfPort p x).nextId = s.nextId := rfl
@[simp] theorem setWfPort_readData (s : State) (p : Nat) (x : WfPort) : (s.setWfPort p x).readData = s.readData := rfl
@[simp] theorem setWfPort_ctr (s : State) (p : Nat) (x : WfPort) : (s.setWfPort p x).ctr = s.ctr := rfl
@[simp] theorem setWfPort_cap (s : State) (p : Nat) (x : WfPort) : (s.setWfPort p x).cap = s.cap := rfl
@[simp] theorem setWfPort_regs (s : State) (p : Nat) (x : WfPort) : (s.setWfPort p x).regs = s.regs := rfl
@[simp] theorem setWfPort_host (s : State) (p : Nat) (x : WfPort) : (s.setWfPort p x).host = s.host := rfl
@[simp] theorem setWfPort_hostPoison (s : State) (p : Nat) (x : WfPort) : (s.setWfPort p x).hostPoison = s.hostPoison := rfl
@[simp] theorem setWfPort_mctp (s : State) (p : Nat) (x : WfPort) : (s.setWfPort p x).mctp = s.mctp := rfl
@[simp] theorem setWfPort_fns (s : State) (p : Nat) (x : WfPort) : (s.setWfPort p x).fns = s.fns := rfl
@[simp] theorem setWfPort_tenants (s : State) (p : Nat) (x : WfPort) : (s.setWfPort p x).tenants = s.tenants := rfl
@[simp] theorem setWfPort_mgmtVersion (s : State) (p : Nat) (x : WfPort) : (s.setWfPort p x).mgmtVersion = s.mgmtVersion := rfl
@[simp] theorem setWfPort_cmds (s : State) (p : Nat) (x : WfPort) : (s.setWfPort p x).cmds = s.cmds := rfl
@[simp] theorem setWfPort_radioCmds (s : State) (p : Nat) (x : WfPort) : (s.setWfPort p x).radioCmds = s.radioCmds := rfl
@[simp] theorem setWfPort_radioSet (s : State) (p : Nat) (x : WfPort) : (s.setWfPort p x).radioSet = s.radioSet := rfl
@[simp] theorem setWfPort_guard (s : State) (p : Nat) (x : WfPort) : (s.setWfPort p x).guard = s.guard := rfl
@[simp] theorem setWfPort_cqUsed (s : State) (p : Nat) (x : WfPort) : (s.setWfPort p x).cqUsed = s.cqUsed := rfl
@[simp] theorem setWfPort_cqPeak (s : State) (p : Nat) (x : WfPort) : (s.setWfPort p x).cqPeak = s.cqPeak := rfl
@[simp] theorem setWfPort_spilled (s : State) (p : Nat) (x : WfPort) : (s.setWfPort p x).spilled = s.spilled := rfl
@[simp] theorem setWfPort_cores (s : State) (p : Nat) (x : WfPort) : (s.setWfPort p x).cores = s.cores := rfl
@[simp] theorem setWfPort_coopers (s : State) (p : Nat) (x : WfPort) : (s.setWfPort p x).coopers = s.coopers := rfl
@[simp] theorem setWfPort_trackers (s : State) (p : Nat) (x : WfPort) : (s.setWfPort p x).trackers = s.trackers := rfl
@[simp] theorem setWfPort_cells (s : State) (p : Nat) (x : WfPort) : (s.setWfPort p x).cells = s.cells := rfl
@[simp] theorem setWfPort_scs (s : State) (p : Nat) (x : WfPort) : (s.setWfPort p x).scs = s.scs := rfl
@[simp] theorem setWfPort_clusters (s : State) (p : Nat) (x : WfPort) : (s.setWfPort p x).clusters = s.clusters := rfl
@[simp] theorem setWfPort_engineStatus (s : State) (p : Nat) (x : WfPort) : (s.setWfPort p x).engineStatus = s.engineStatus := rfl
@[simp] theorem setWfPort_ethMode (s : State) (p : Nat) (x : WfPort) : (s.setWfPort p x).ethMode = s.ethMode := rfl
@[simp] theorem setWfPort_eth (s : State) (p : Nat) (x : WfPort) : (s.setWfPort p x).eth = s.eth := rfl
@[simp] theorem setWfPort_sx (s : State) (p : Nat) (x : WfPort) : (s.setWfPort p x).sx = s.sx := rfl
@[simp] theorem setWfPort_ev (s : State) (p : Nat) (x : WfPort) : (s.setWfPort p x).ev = s.ev := rfl
@[simp] theorem setWfPort_rel (s : State) (p : Nat) (x : WfPort) : (s.setWfPort p x).rel = s.rel := rfl
@[simp] theorem setWfPort_pw (s : State) (p : Nat) (x : WfPort) : (s.setWfPort p x).pw = s.pw := rfl
@[simp] theorem setWfPort_link (s : State) (p : Nat) (x : WfPort) : (s.setWfPort p x).link = s.link := rfl
@[simp] theorem setWfPort_st (s : State) (p : Nat) (x : WfPort) : (s.setWfPort p x).st = s.st := rfl

/-! ### setExport -/

@[simp] theorem setExport_fabric (s : State) (n : Nat) (e : Option Export) : (s.setExport n e).fabric = { s.fabric with exports := NMap.set none s.fabric.exports n e } := rfl
@[simp] theorem setExport_pending (s : State) (n : Nat) (e : Option Export) : (s.setExport n e).pending = s.pending := rfl
@[simp] theorem setExport_variant (s : State) (n : Nat) (e : Option Export) : (s.setExport n e).variant = s.variant := rfl
@[simp] theorem setExport_now (s : State) (n : Nat) (e : Option Export) : (s.setExport n e).now = s.now := rfl
@[simp] theorem setExport_free (s : State) (n : Nat) (e : Option Export) : (s.setExport n e).free = s.free := rfl
@[simp] theorem setExport_nextId (s : State) (n : Nat) (e : Option Export) : (s.setExport n e).nextId = s.nextId := rfl
@[simp] theorem setExport_readData (s : State) (n : Nat) (e : Option Export) : (s.setExport n e).readData = s.readData := rfl
@[simp] theorem setExport_ctr (s : State) (n : Nat) (e : Option Export) : (s.setExport n e).ctr = s.ctr := rfl
@[simp] theorem setExport_cap (s : State) (n : Nat) (e : Option Export) : (s.setExport n e).cap = s.cap := rfl
@[simp] theorem setExport_regs (s : State) (n : Nat) (e : Option Export) : (s.setExport n e).regs = s.regs := rfl
@[simp] theorem setExport_host (s : State) (n : Nat) (e : Option Export) : (s.setExport n e).host = s.host := rfl
@[simp] theorem setExport_hostPoison (s : State) (n : Nat) (e : Option Export) : (s.setExport n e).hostPoison = s.hostPoison := rfl
@[simp] theorem setExport_mctp (s : State) (n : Nat) (e : Option Export) : (s.setExport n e).mctp = s.mctp := rfl
@[simp] theorem setExport_fns (s : State) (n : Nat) (e : Option Export) : (s.setExport n e).fns = s.fns := rfl
@[simp] theorem setExport_tenants (s : State) (n : Nat) (e : Option Export) : (s.setExport n e).tenants = s.tenants := rfl
@[simp] theorem setExport_mgmtVersion (s : State) (n : Nat) (e : Option Export) : (s.setExport n e).mgmtVersion = s.mgmtVersion := rfl
@[simp] theorem setExport_cmds (s : State) (n : Nat) (e : Option Export) : (s.setExport n e).cmds = s.cmds := rfl
@[simp] theorem setExport_radioCmds (s : State) (n : Nat) (e : Option Export) : (s.setExport n e).radioCmds = s.radioCmds := rfl
@[simp] theorem setExport_radioSet (s : State) (n : Nat) (e : Option Export) : (s.setExport n e).radioSet = s.radioSet := rfl
@[simp] theorem setExport_guard (s : State) (n : Nat) (e : Option Export) : (s.setExport n e).guard = s.guard := rfl
@[simp] theorem setExport_cqUsed (s : State) (n : Nat) (e : Option Export) : (s.setExport n e).cqUsed = s.cqUsed := rfl
@[simp] theorem setExport_cqPeak (s : State) (n : Nat) (e : Option Export) : (s.setExport n e).cqPeak = s.cqPeak := rfl
@[simp] theorem setExport_spilled (s : State) (n : Nat) (e : Option Export) : (s.setExport n e).spilled = s.spilled := rfl
@[simp] theorem setExport_cores (s : State) (n : Nat) (e : Option Export) : (s.setExport n e).cores = s.cores := rfl
@[simp] theorem setExport_coopers (s : State) (n : Nat) (e : Option Export) : (s.setExport n e).coopers = s.coopers := rfl
@[simp] theorem setExport_trackers (s : State) (n : Nat) (e : Option Export) : (s.setExport n e).trackers = s.trackers := rfl
@[simp] theorem setExport_cells (s : State) (n : Nat) (e : Option Export) : (s.setExport n e).cells = s.cells := rfl
@[simp] theorem setExport_scs (s : State) (n : Nat) (e : Option Export) : (s.setExport n e).scs = s.scs := rfl
@[simp] theorem setExport_clusters (s : State) (n : Nat) (e : Option Export) : (s.setExport n e).clusters = s.clusters := rfl
@[simp] theorem setExport_engineStatus (s : State) (n : Nat) (e : Option Export) : (s.setExport n e).engineStatus = s.engineStatus := rfl
@[simp] theorem setExport_ethMode (s : State) (n : Nat) (e : Option Export) : (s.setExport n e).ethMode = s.ethMode := rfl
@[simp] theorem setExport_eth (s : State) (n : Nat) (e : Option Export) : (s.setExport n e).eth = s.eth := rfl
@[simp] theorem setExport_sx (s : State) (n : Nat) (e : Option Export) : (s.setExport n e).sx = s.sx := rfl
@[simp] theorem setExport_ev (s : State) (n : Nat) (e : Option Export) : (s.setExport n e).ev = s.ev := rfl
@[simp] theorem setExport_rel (s : State) (n : Nat) (e : Option Export) : (s.setExport n e).rel = s.rel := rfl
@[simp] theorem setExport_pw (s : State) (n : Nat) (e : Option Export) : (s.setExport n e).pw = s.pw := rfl
@[simp] theorem setExport_link (s : State) (n : Nat) (e : Option Export) : (s.setExport n e).link = s.link := rfl
@[simp] theorem setExport_st (s : State) (n : Nat) (e : Option Export) : (s.setExport n e).st = s.st := rfl

/-! ### setImport -/

@[simp] theorem setImport_fabric (s : State) (n : Nat) (i : Option Import) : (s.setImport n i).fabric = { s.fabric with imports := NMap.set none s.fabric.imports n i } := rfl
@[simp] theorem setImport_pending (s : State) (n : Nat) (i : Option Import) : (s.setImport n i).pending = s.pending := rfl
@[simp] theorem setImport_variant (s : State) (n : Nat) (i : Option Import) : (s.setImport n i).variant = s.variant := rfl
@[simp] theorem setImport_now (s : State) (n : Nat) (i : Option Import) : (s.setImport n i).now = s.now := rfl
@[simp] theorem setImport_free (s : State) (n : Nat) (i : Option Import) : (s.setImport n i).free = s.free := rfl
@[simp] theorem setImport_nextId (s : State) (n : Nat) (i : Option Import) : (s.setImport n i).nextId = s.nextId := rfl
@[simp] theorem setImport_readData (s : State) (n : Nat) (i : Option Import) : (s.setImport n i).readData = s.readData := rfl
@[simp] theorem setImport_ctr (s : State) (n : Nat) (i : Option Import) : (s.setImport n i).ctr = s.ctr := rfl
@[simp] theorem setImport_cap (s : State) (n : Nat) (i : Option Import) : (s.setImport n i).cap = s.cap := rfl
@[simp] theorem setImport_regs (s : State) (n : Nat) (i : Option Import) : (s.setImport n i).regs = s.regs := rfl
@[simp] theorem setImport_host (s : State) (n : Nat) (i : Option Import) : (s.setImport n i).host = s.host := rfl
@[simp] theorem setImport_hostPoison (s : State) (n : Nat) (i : Option Import) : (s.setImport n i).hostPoison = s.hostPoison := rfl
@[simp] theorem setImport_mctp (s : State) (n : Nat) (i : Option Import) : (s.setImport n i).mctp = s.mctp := rfl
@[simp] theorem setImport_fns (s : State) (n : Nat) (i : Option Import) : (s.setImport n i).fns = s.fns := rfl
@[simp] theorem setImport_tenants (s : State) (n : Nat) (i : Option Import) : (s.setImport n i).tenants = s.tenants := rfl
@[simp] theorem setImport_mgmtVersion (s : State) (n : Nat) (i : Option Import) : (s.setImport n i).mgmtVersion = s.mgmtVersion := rfl
@[simp] theorem setImport_cmds (s : State) (n : Nat) (i : Option Import) : (s.setImport n i).cmds = s.cmds := rfl
@[simp] theorem setImport_radioCmds (s : State) (n : Nat) (i : Option Import) : (s.setImport n i).radioCmds = s.radioCmds := rfl
@[simp] theorem setImport_radioSet (s : State) (n : Nat) (i : Option Import) : (s.setImport n i).radioSet = s.radioSet := rfl
@[simp] theorem setImport_guard (s : State) (n : Nat) (i : Option Import) : (s.setImport n i).guard = s.guard := rfl
@[simp] theorem setImport_cqUsed (s : State) (n : Nat) (i : Option Import) : (s.setImport n i).cqUsed = s.cqUsed := rfl
@[simp] theorem setImport_cqPeak (s : State) (n : Nat) (i : Option Import) : (s.setImport n i).cqPeak = s.cqPeak := rfl
@[simp] theorem setImport_spilled (s : State) (n : Nat) (i : Option Import) : (s.setImport n i).spilled = s.spilled := rfl
@[simp] theorem setImport_cores (s : State) (n : Nat) (i : Option Import) : (s.setImport n i).cores = s.cores := rfl
@[simp] theorem setImport_coopers (s : State) (n : Nat) (i : Option Import) : (s.setImport n i).coopers = s.coopers := rfl
@[simp] theorem setImport_trackers (s : State) (n : Nat) (i : Option Import) : (s.setImport n i).trackers = s.trackers := rfl
@[simp] theorem setImport_cells (s : State) (n : Nat) (i : Option Import) : (s.setImport n i).cells = s.cells := rfl
@[simp] theorem setImport_scs (s : State) (n : Nat) (i : Option Import) : (s.setImport n i).scs = s.scs := rfl
@[simp] theorem setImport_clusters (s : State) (n : Nat) (i : Option Import) : (s.setImport n i).clusters = s.clusters := rfl
@[simp] theorem setImport_engineStatus (s : State) (n : Nat) (i : Option Import) : (s.setImport n i).engineStatus = s.engineStatus := rfl
@[simp] theorem setImport_ethMode (s : State) (n : Nat) (i : Option Import) : (s.setImport n i).ethMode = s.ethMode := rfl
@[simp] theorem setImport_eth (s : State) (n : Nat) (i : Option Import) : (s.setImport n i).eth = s.eth := rfl
@[simp] theorem setImport_sx (s : State) (n : Nat) (i : Option Import) : (s.setImport n i).sx = s.sx := rfl
@[simp] theorem setImport_ev (s : State) (n : Nat) (i : Option Import) : (s.setImport n i).ev = s.ev := rfl
@[simp] theorem setImport_rel (s : State) (n : Nat) (i : Option Import) : (s.setImport n i).rel = s.rel := rfl
@[simp] theorem setImport_pw (s : State) (n : Nat) (i : Option Import) : (s.setImport n i).pw = s.pw := rfl
@[simp] theorem setImport_link (s : State) (n : Nat) (i : Option Import) : (s.setImport n i).link = s.link := rfl
@[simp] theorem setImport_st (s : State) (n : Nat) (i : Option Import) : (s.setImport n i).st = s.st := rfl

/-! ### setOut -/

@[simp] theorem setOut_fabric (s : State) (n : Nat) (x : Option StreamOut) : (s.setOut n x).fabric = { s.fabric with out := NMap.set none s.fabric.out n x } := rfl
@[simp] theorem setOut_pending (s : State) (n : Nat) (x : Option StreamOut) : (s.setOut n x).pending = s.pending := rfl
@[simp] theorem setOut_variant (s : State) (n : Nat) (x : Option StreamOut) : (s.setOut n x).variant = s.variant := rfl
@[simp] theorem setOut_now (s : State) (n : Nat) (x : Option StreamOut) : (s.setOut n x).now = s.now := rfl
@[simp] theorem setOut_free (s : State) (n : Nat) (x : Option StreamOut) : (s.setOut n x).free = s.free := rfl
@[simp] theorem setOut_nextId (s : State) (n : Nat) (x : Option StreamOut) : (s.setOut n x).nextId = s.nextId := rfl
@[simp] theorem setOut_readData (s : State) (n : Nat) (x : Option StreamOut) : (s.setOut n x).readData = s.readData := rfl
@[simp] theorem setOut_ctr (s : State) (n : Nat) (x : Option StreamOut) : (s.setOut n x).ctr = s.ctr := rfl
@[simp] theorem setOut_cap (s : State) (n : Nat) (x : Option StreamOut) : (s.setOut n x).cap = s.cap := rfl
@[simp] theorem setOut_regs (s : State) (n : Nat) (x : Option StreamOut) : (s.setOut n x).regs = s.regs := rfl
@[simp] theorem setOut_host (s : State) (n : Nat) (x : Option StreamOut) : (s.setOut n x).host = s.host := rfl
@[simp] theorem setOut_hostPoison (s : State) (n : Nat) (x : Option StreamOut) : (s.setOut n x).hostPoison = s.hostPoison := rfl
@[simp] theorem setOut_mctp (s : State) (n : Nat) (x : Option StreamOut) : (s.setOut n x).mctp = s.mctp := rfl
@[simp] theorem setOut_fns (s : State) (n : Nat) (x : Option StreamOut) : (s.setOut n x).fns = s.fns := rfl
@[simp] theorem setOut_tenants (s : State) (n : Nat) (x : Option StreamOut) : (s.setOut n x).tenants = s.tenants := rfl
@[simp] theorem setOut_mgmtVersion (s : State) (n : Nat) (x : Option StreamOut) : (s.setOut n x).mgmtVersion = s.mgmtVersion := rfl
@[simp] theorem setOut_cmds (s : State) (n : Nat) (x : Option StreamOut) : (s.setOut n x).cmds = s.cmds := rfl
@[simp] theorem setOut_radioCmds (s : State) (n : Nat) (x : Option StreamOut) : (s.setOut n x).radioCmds = s.radioCmds := rfl
@[simp] theorem setOut_radioSet (s : State) (n : Nat) (x : Option StreamOut) : (s.setOut n x).radioSet = s.radioSet := rfl
@[simp] theorem setOut_guard (s : State) (n : Nat) (x : Option StreamOut) : (s.setOut n x).guard = s.guard := rfl
@[simp] theorem setOut_cqUsed (s : State) (n : Nat) (x : Option StreamOut) : (s.setOut n x).cqUsed = s.cqUsed := rfl
@[simp] theorem setOut_cqPeak (s : State) (n : Nat) (x : Option StreamOut) : (s.setOut n x).cqPeak = s.cqPeak := rfl
@[simp] theorem setOut_spilled (s : State) (n : Nat) (x : Option StreamOut) : (s.setOut n x).spilled = s.spilled := rfl
@[simp] theorem setOut_cores (s : State) (n : Nat) (x : Option StreamOut) : (s.setOut n x).cores = s.cores := rfl
@[simp] theorem setOut_coopers (s : State) (n : Nat) (x : Option StreamOut) : (s.setOut n x).coopers = s.coopers := rfl
@[simp] theorem setOut_trackers (s : State) (n : Nat) (x : Option StreamOut) : (s.setOut n x).trackers = s.trackers := rfl
@[simp] theorem setOut_cells (s : State) (n : Nat) (x : Option StreamOut) : (s.setOut n x).cells = s.cells := rfl
@[simp] theorem setOut_scs (s : State) (n : Nat) (x : Option StreamOut) : (s.setOut n x).scs = s.scs := rfl
@[simp] theorem setOut_clusters (s : State) (n : Nat) (x : Option StreamOut) : (s.setOut n x).clusters = s.clusters := rfl
@[simp] theorem setOut_engineStatus (s : State) (n : Nat) (x : Option StreamOut) : (s.setOut n x).engineStatus = s.engineStatus := rfl
@[simp] theorem setOut_ethMode (s : State) (n : Nat) (x : Option StreamOut) : (s.setOut n x).ethMode = s.ethMode := rfl
@[simp] theorem setOut_eth (s : State) (n : Nat) (x : Option StreamOut) : (s.setOut n x).eth = s.eth := rfl
@[simp] theorem setOut_sx (s : State) (n : Nat) (x : Option StreamOut) : (s.setOut n x).sx = s.sx := rfl
@[simp] theorem setOut_ev (s : State) (n : Nat) (x : Option StreamOut) : (s.setOut n x).ev = s.ev := rfl
@[simp] theorem setOut_rel (s : State) (n : Nat) (x : Option StreamOut) : (s.setOut n x).rel = s.rel := rfl
@[simp] theorem setOut_pw (s : State) (n : Nat) (x : Option StreamOut) : (s.setOut n x).pw = s.pw := rfl
@[simp] theorem setOut_link (s : State) (n : Nat) (x : Option StreamOut) : (s.setOut n x).link = s.link := rfl
@[simp] theorem setOut_st (s : State) (n : Nat) (x : Option StreamOut) : (s.setOut n x).st = s.st := rfl

/-! ### setInto -/

@[simp] theorem setInto_fabric (s : State) (n : Nat) (x : StreamIn) : (s.setInto n x).fabric = { s.fabric with into := NMap.set none s.fabric.into n (some x) } := rfl
@[simp] theorem setInto_pending (s : State) (n : Nat) (x : StreamIn) : (s.setInto n x).pending = s.pending := rfl
@[simp] theorem setInto_variant (s : State) (n : Nat) (x : StreamIn) : (s.setInto n x).variant = s.variant := rfl
@[simp] theorem setInto_now (s : State) (n : Nat) (x : StreamIn) : (s.setInto n x).now = s.now := rfl
@[simp] theorem setInto_free (s : State) (n : Nat) (x : StreamIn) : (s.setInto n x).free = s.free := rfl
@[simp] theorem setInto_nextId (s : State) (n : Nat) (x : StreamIn) : (s.setInto n x).nextId = s.nextId := rfl
@[simp] theorem setInto_readData (s : State) (n : Nat) (x : StreamIn) : (s.setInto n x).readData = s.readData := rfl
@[simp] theorem setInto_ctr (s : State) (n : Nat) (x : StreamIn) : (s.setInto n x).ctr = s.ctr := rfl
@[simp] theorem setInto_cap (s : State) (n : Nat) (x : StreamIn) : (s.setInto n x).cap = s.cap := rfl
@[simp] theorem setInto_regs (s : State) (n : Nat) (x : StreamIn) : (s.setInto n x).regs = s.regs := rfl
@[simp] theorem setInto_host (s : State) (n : Nat) (x : StreamIn) : (s.setInto n x).host = s.host := rfl
@[simp] theorem setInto_hostPoison (s : State) (n : Nat) (x : StreamIn) : (s.setInto n x).hostPoison = s.hostPoison := rfl
@[simp] theorem setInto_mctp (s : State) (n : Nat) (x : StreamIn) : (s.setInto n x).mctp = s.mctp := rfl
@[simp] theorem setInto_fns (s : State) (n : Nat) (x : StreamIn) : (s.setInto n x).fns = s.fns := rfl
@[simp] theorem setInto_tenants (s : State) (n : Nat) (x : StreamIn) : (s.setInto n x).tenants = s.tenants := rfl
@[simp] theorem setInto_mgmtVersion (s : State) (n : Nat) (x : StreamIn) : (s.setInto n x).mgmtVersion = s.mgmtVersion := rfl
@[simp] theorem setInto_cmds (s : State) (n : Nat) (x : StreamIn) : (s.setInto n x).cmds = s.cmds := rfl
@[simp] theorem setInto_radioCmds (s : State) (n : Nat) (x : StreamIn) : (s.setInto n x).radioCmds = s.radioCmds := rfl
@[simp] theorem setInto_radioSet (s : State) (n : Nat) (x : StreamIn) : (s.setInto n x).radioSet = s.radioSet := rfl
@[simp] theorem setInto_guard (s : State) (n : Nat) (x : StreamIn) : (s.setInto n x).guard = s.guard := rfl
@[simp] theorem setInto_cqUsed (s : State) (n : Nat) (x : StreamIn) : (s.setInto n x).cqUsed = s.cqUsed := rfl
@[simp] theorem setInto_cqPeak (s : State) (n : Nat) (x : StreamIn) : (s.setInto n x).cqPeak = s.cqPeak := rfl
@[simp] theorem setInto_spilled (s : State) (n : Nat) (x : StreamIn) : (s.setInto n x).spilled = s.spilled := rfl
@[simp] theorem setInto_cores (s : State) (n : Nat) (x : StreamIn) : (s.setInto n x).cores = s.cores := rfl
@[simp] theorem setInto_coopers (s : State) (n : Nat) (x : StreamIn) : (s.setInto n x).coopers = s.coopers := rfl
@[simp] theorem setInto_trackers (s : State) (n : Nat) (x : StreamIn) : (s.setInto n x).trackers = s.trackers := rfl
@[simp] theorem setInto_cells (s : State) (n : Nat) (x : StreamIn) : (s.setInto n x).cells = s.cells := rfl
@[simp] theorem setInto_scs (s : State) (n : Nat) (x : StreamIn) : (s.setInto n x).scs = s.scs := rfl
@[simp] theorem setInto_clusters (s : State) (n : Nat) (x : StreamIn) : (s.setInto n x).clusters = s.clusters := rfl
@[simp] theorem setInto_engineStatus (s : State) (n : Nat) (x : StreamIn) : (s.setInto n x).engineStatus = s.engineStatus := rfl
@[simp] theorem setInto_ethMode (s : State) (n : Nat) (x : StreamIn) : (s.setInto n x).ethMode = s.ethMode := rfl
@[simp] theorem setInto_eth (s : State) (n : Nat) (x : StreamIn) : (s.setInto n x).eth = s.eth := rfl
@[simp] theorem setInto_sx (s : State) (n : Nat) (x : StreamIn) : (s.setInto n x).sx = s.sx := rfl
@[simp] theorem setInto_ev (s : State) (n : Nat) (x : StreamIn) : (s.setInto n x).ev = s.ev := rfl
@[simp] theorem setInto_rel (s : State) (n : Nat) (x : StreamIn) : (s.setInto n x).rel = s.rel := rfl
@[simp] theorem setInto_pw (s : State) (n : Nat) (x : StreamIn) : (s.setInto n x).pw = s.pw := rfl
@[simp] theorem setInto_link (s : State) (n : Nat) (x : StreamIn) : (s.setInto n x).link = s.link := rfl
@[simp] theorem setInto_st (s : State) (n : Nat) (x : StreamIn) : (s.setInto n x).st = s.st := rfl

/-! ### setBarrier -/

@[simp] theorem setBarrier_fabric (s : State) (b : Nat) (x : Barrier) : (s.setBarrier b x).fabric = { s.fabric with barriers := NMap.set default s.fabric.barriers b x } := rfl
@[simp] theorem setBarrier_pending (s : State) (b : Nat) (x : Barrier) : (s.setBarrier b x).pending = s.pending := rfl
@[simp] theorem setBarrier_variant (s : State) (b : Nat) (x : Barrier) : (s.setBarrier b x).variant = s.variant := rfl
@[simp] theorem setBarrier_now (s : State) (b : Nat) (x : Barrier) : (s.setBarrier b x).now = s.now := rfl
@[simp] theorem setBarrier_free (s : State) (b : Nat) (x : Barrier) : (s.setBarrier b x).free = s.free := rfl
@[simp] theorem setBarrier_nextId (s : State) (b : Nat) (x : Barrier) : (s.setBarrier b x).nextId = s.nextId := rfl
@[simp] theorem setBarrier_readData (s : State) (b : Nat) (x : Barrier) : (s.setBarrier b x).readData = s.readData := rfl
@[simp] theorem setBarrier_ctr (s : State) (b : Nat) (x : Barrier) : (s.setBarrier b x).ctr = s.ctr := rfl
@[simp] theorem setBarrier_cap (s : State) (b : Nat) (x : Barrier) : (s.setBarrier b x).cap = s.cap := rfl
@[simp] theorem setBarrier_regs (s : State) (b : Nat) (x : Barrier) : (s.setBarrier b x).regs = s.regs := rfl
@[simp] theorem setBarrier_host (s : State) (b : Nat) (x : Barrier) : (s.setBarrier b x).host = s.host := rfl
@[simp] theorem setBarrier_hostPoison (s : State) (b : Nat) (x : Barrier) : (s.setBarrier b x).hostPoison = s.hostPoison := rfl
@[simp] theorem setBarrier_mctp (s : State) (b : Nat) (x : Barrier) : (s.setBarrier b x).mctp = s.mctp := rfl
@[simp] theorem setBarrier_fns (s : State) (b : Nat) (x : Barrier) : (s.setBarrier b x).fns = s.fns := rfl
@[simp] theorem setBarrier_tenants (s : State) (b : Nat) (x : Barrier) : (s.setBarrier b x).tenants = s.tenants := rfl
@[simp] theorem setBarrier_mgmtVersion (s : State) (b : Nat) (x : Barrier) : (s.setBarrier b x).mgmtVersion = s.mgmtVersion := rfl
@[simp] theorem setBarrier_cmds (s : State) (b : Nat) (x : Barrier) : (s.setBarrier b x).cmds = s.cmds := rfl
@[simp] theorem setBarrier_radioCmds (s : State) (b : Nat) (x : Barrier) : (s.setBarrier b x).radioCmds = s.radioCmds := rfl
@[simp] theorem setBarrier_radioSet (s : State) (b : Nat) (x : Barrier) : (s.setBarrier b x).radioSet = s.radioSet := rfl
@[simp] theorem setBarrier_guard (s : State) (b : Nat) (x : Barrier) : (s.setBarrier b x).guard = s.guard := rfl
@[simp] theorem setBarrier_cqUsed (s : State) (b : Nat) (x : Barrier) : (s.setBarrier b x).cqUsed = s.cqUsed := rfl
@[simp] theorem setBarrier_cqPeak (s : State) (b : Nat) (x : Barrier) : (s.setBarrier b x).cqPeak = s.cqPeak := rfl
@[simp] theorem setBarrier_spilled (s : State) (b : Nat) (x : Barrier) : (s.setBarrier b x).spilled = s.spilled := rfl
@[simp] theorem setBarrier_cores (s : State) (b : Nat) (x : Barrier) : (s.setBarrier b x).cores = s.cores := rfl
@[simp] theorem setBarrier_coopers (s : State) (b : Nat) (x : Barrier) : (s.setBarrier b x).coopers = s.coopers := rfl
@[simp] theorem setBarrier_trackers (s : State) (b : Nat) (x : Barrier) : (s.setBarrier b x).trackers = s.trackers := rfl
@[simp] theorem setBarrier_cells (s : State) (b : Nat) (x : Barrier) : (s.setBarrier b x).cells = s.cells := rfl
@[simp] theorem setBarrier_scs (s : State) (b : Nat) (x : Barrier) : (s.setBarrier b x).scs = s.scs := rfl
@[simp] theorem setBarrier_clusters (s : State) (b : Nat) (x : Barrier) : (s.setBarrier b x).clusters = s.clusters := rfl
@[simp] theorem setBarrier_engineStatus (s : State) (b : Nat) (x : Barrier) : (s.setBarrier b x).engineStatus = s.engineStatus := rfl
@[simp] theorem setBarrier_ethMode (s : State) (b : Nat) (x : Barrier) : (s.setBarrier b x).ethMode = s.ethMode := rfl
@[simp] theorem setBarrier_eth (s : State) (b : Nat) (x : Barrier) : (s.setBarrier b x).eth = s.eth := rfl
@[simp] theorem setBarrier_sx (s : State) (b : Nat) (x : Barrier) : (s.setBarrier b x).sx = s.sx := rfl
@[simp] theorem setBarrier_ev (s : State) (b : Nat) (x : Barrier) : (s.setBarrier b x).ev = s.ev := rfl
@[simp] theorem setBarrier_rel (s : State) (b : Nat) (x : Barrier) : (s.setBarrier b x).rel = s.rel := rfl
@[simp] theorem setBarrier_pw (s : State) (b : Nat) (x : Barrier) : (s.setBarrier b x).pw = s.pw := rfl
@[simp] theorem setBarrier_link (s : State) (b : Nat) (x : Barrier) : (s.setBarrier b x).link = s.link := rfl
@[simp] theorem setBarrier_st (s : State) (b : Nat) (x : Barrier) : (s.setBarrier b x).st = s.st := rfl

/-! ### setDom -/

@[simp] theorem setDom_sx (s : State) (d : Nat) (y : Domain) : (s.setDom d y).sx = s.sx.setDom d y := rfl
@[simp] theorem setDom_pending (s : State) (d : Nat) (y : Domain) : (s.setDom d y).pending = s.pending := rfl
@[simp] theorem setDom_variant (s : State) (d : Nat) (y : Domain) : (s.setDom d y).variant = s.variant := rfl
@[simp] theorem setDom_now (s : State) (d : Nat) (y : Domain) : (s.setDom d y).now = s.now := rfl
@[simp] theorem setDom_free (s : State) (d : Nat) (y : Domain) : (s.setDom d y).free = s.free := rfl
@[simp] theorem setDom_nextId (s : State) (d : Nat) (y : Domain) : (s.setDom d y).nextId = s.nextId := rfl
@[simp] theorem setDom_readData (s : State) (d : Nat) (y : Domain) : (s.setDom d y).readData = s.readData := rfl
@[simp] theorem setDom_ctr (s : State) (d : Nat) (y : Domain) : (s.setDom d y).ctr = s.ctr := rfl
@[simp] theorem setDom_cap (s : State) (d : Nat) (y : Domain) : (s.setDom d y).cap = s.cap := rfl
@[simp] theorem setDom_regs (s : State) (d : Nat) (y : Domain) : (s.setDom d y).regs = s.regs := rfl
@[simp] theorem setDom_host (s : State) (d : Nat) (y : Domain) : (s.setDom d y).host = s.host := rfl
@[simp] theorem setDom_hostPoison (s : State) (d : Nat) (y : Domain) : (s.setDom d y).hostPoison = s.hostPoison := rfl
@[simp] theorem setDom_mctp (s : State) (d : Nat) (y : Domain) : (s.setDom d y).mctp = s.mctp := rfl
@[simp] theorem setDom_fns (s : State) (d : Nat) (y : Domain) : (s.setDom d y).fns = s.fns := rfl
@[simp] theorem setDom_tenants (s : State) (d : Nat) (y : Domain) : (s.setDom d y).tenants = s.tenants := rfl
@[simp] theorem setDom_mgmtVersion (s : State) (d : Nat) (y : Domain) : (s.setDom d y).mgmtVersion = s.mgmtVersion := rfl
@[simp] theorem setDom_cmds (s : State) (d : Nat) (y : Domain) : (s.setDom d y).cmds = s.cmds := rfl
@[simp] theorem setDom_radioCmds (s : State) (d : Nat) (y : Domain) : (s.setDom d y).radioCmds = s.radioCmds := rfl
@[simp] theorem setDom_radioSet (s : State) (d : Nat) (y : Domain) : (s.setDom d y).radioSet = s.radioSet := rfl
@[simp] theorem setDom_guard (s : State) (d : Nat) (y : Domain) : (s.setDom d y).guard = s.guard := rfl
@[simp] theorem setDom_cqUsed (s : State) (d : Nat) (y : Domain) : (s.setDom d y).cqUsed = s.cqUsed := rfl
@[simp] theorem setDom_cqPeak (s : State) (d : Nat) (y : Domain) : (s.setDom d y).cqPeak = s.cqPeak := rfl
@[simp] theorem setDom_spilled (s : State) (d : Nat) (y : Domain) : (s.setDom d y).spilled = s.spilled := rfl
@[simp] theorem setDom_cores (s : State) (d : Nat) (y : Domain) : (s.setDom d y).cores = s.cores := rfl
@[simp] theorem setDom_coopers (s : State) (d : Nat) (y : Domain) : (s.setDom d y).coopers = s.coopers := rfl
@[simp] theorem setDom_trackers (s : State) (d : Nat) (y : Domain) : (s.setDom d y).trackers = s.trackers := rfl
@[simp] theorem setDom_fabric (s : State) (d : Nat) (y : Domain) : (s.setDom d y).fabric = s.fabric := rfl
@[simp] theorem setDom_cells (s : State) (d : Nat) (y : Domain) : (s.setDom d y).cells = s.cells := rfl
@[simp] theorem setDom_scs (s : State) (d : Nat) (y : Domain) : (s.setDom d y).scs = s.scs := rfl
@[simp] theorem setDom_clusters (s : State) (d : Nat) (y : Domain) : (s.setDom d y).clusters = s.clusters := rfl
@[simp] theorem setDom_engineStatus (s : State) (d : Nat) (y : Domain) : (s.setDom d y).engineStatus = s.engineStatus := rfl
@[simp] theorem setDom_ethMode (s : State) (d : Nat) (y : Domain) : (s.setDom d y).ethMode = s.ethMode := rfl
@[simp] theorem setDom_eth (s : State) (d : Nat) (y : Domain) : (s.setDom d y).eth = s.eth := rfl
@[simp] theorem setDom_ev (s : State) (d : Nat) (y : Domain) : (s.setDom d y).ev = s.ev := rfl
@[simp] theorem setDom_rel (s : State) (d : Nat) (y : Domain) : (s.setDom d y).rel = s.rel := rfl
@[simp] theorem setDom_pw (s : State) (d : Nat) (y : Domain) : (s.setDom d y).pw = s.pw := rfl
@[simp] theorem setDom_link (s : State) (d : Nat) (y : Domain) : (s.setDom d y).link = s.link := rfl
@[simp] theorem setDom_st (s : State) (d : Nat) (y : Domain) : (s.setDom d y).st = s.st := rfl

/-! ### setSrc -/

@[simp] theorem setSrc_ev (s : State) (n : Nat) (x : Source) : (s.setSrc n x).ev = { s.ev with src := NMap.set Source.init s.ev.src n x } := rfl
@[simp] theorem setSrc_pending (s : State) (n : Nat) (x : Source) : (s.setSrc n x).pending = s.pending := rfl
@[simp] theorem setSrc_variant (s : State) (n : Nat) (x : Source) : (s.setSrc n x).variant = s.variant := rfl
@[simp] theorem setSrc_now (s : State) (n : Nat) (x : Source) : (s.setSrc n x).now = s.now := rfl
@[simp] theorem setSrc_free (s : State) (n : Nat) (x : Source) : (s.setSrc n x).free = s.free := rfl
@[simp] theorem setSrc_nextId (s : State) (n : Nat) (x : Source) : (s.setSrc n x).nextId = s.nextId := rfl
@[simp] theorem setSrc_readData (s : State) (n : Nat) (x : Source) : (s.setSrc n x).readData = s.readData := rfl
@[simp] theorem setSrc_ctr (s : State) (n : Nat) (x : Source) : (s.setSrc n x).ctr = s.ctr := rfl
@[simp] theorem setSrc_cap (s : State) (n : Nat) (x : Source) : (s.setSrc n x).cap = s.cap := rfl
@[simp] theorem setSrc_regs (s : State) (n : Nat) (x : Source) : (s.setSrc n x).regs = s.regs := rfl
@[simp] theorem setSrc_host (s : State) (n : Nat) (x : Source) : (s.setSrc n x).host = s.host := rfl
@[simp] theorem setSrc_hostPoison (s : State) (n : Nat) (x : Source) : (s.setSrc n x).hostPoison = s.hostPoison := rfl
@[simp] theorem setSrc_mctp (s : State) (n : Nat) (x : Source) : (s.setSrc n x).mctp = s.mctp := rfl
@[simp] theorem setSrc_fns (s : State) (n : Nat) (x : Source) : (s.setSrc n x).fns = s.fns := rfl
@[simp] theorem setSrc_tenants (s : State) (n : Nat) (x : Source) : (s.setSrc n x).tenants = s.tenants := rfl
@[simp] theorem setSrc_mgmtVersion (s : State) (n : Nat) (x : Source) : (s.setSrc n x).mgmtVersion = s.mgmtVersion := rfl
@[simp] theorem setSrc_cmds (s : State) (n : Nat) (x : Source) : (s.setSrc n x).cmds = s.cmds := rfl
@[simp] theorem setSrc_radioCmds (s : State) (n : Nat) (x : Source) : (s.setSrc n x).radioCmds = s.radioCmds := rfl
@[simp] theorem setSrc_radioSet (s : State) (n : Nat) (x : Source) : (s.setSrc n x).radioSet = s.radioSet := rfl
@[simp] theorem setSrc_guard (s : State) (n : Nat) (x : Source) : (s.setSrc n x).guard = s.guard := rfl
@[simp] theorem setSrc_cqUsed (s : State) (n : Nat) (x : Source) : (s.setSrc n x).cqUsed = s.cqUsed := rfl
@[simp] theorem setSrc_cqPeak (s : State) (n : Nat) (x : Source) : (s.setSrc n x).cqPeak = s.cqPeak := rfl
@[simp] theorem setSrc_spilled (s : State) (n : Nat) (x : Source) : (s.setSrc n x).spilled = s.spilled := rfl
@[simp] theorem setSrc_cores (s : State) (n : Nat) (x : Source) : (s.setSrc n x).cores = s.cores := rfl
@[simp] theorem setSrc_coopers (s : State) (n : Nat) (x : Source) : (s.setSrc n x).coopers = s.coopers := rfl
@[simp] theorem setSrc_trackers (s : State) (n : Nat) (x : Source) : (s.setSrc n x).trackers = s.trackers := rfl
@[simp] theorem setSrc_fabric (s : State) (n : Nat) (x : Source) : (s.setSrc n x).fabric = s.fabric := rfl
@[simp] theorem setSrc_cells (s : State) (n : Nat) (x : Source) : (s.setSrc n x).cells = s.cells := rfl
@[simp] theorem setSrc_scs (s : State) (n : Nat) (x : Source) : (s.setSrc n x).scs = s.scs := rfl
@[simp] theorem setSrc_clusters (s : State) (n : Nat) (x : Source) : (s.setSrc n x).clusters = s.clusters := rfl
@[simp] theorem setSrc_engineStatus (s : State) (n : Nat) (x : Source) : (s.setSrc n x).engineStatus = s.engineStatus := rfl
@[simp] theorem setSrc_ethMode (s : State) (n : Nat) (x : Source) : (s.setSrc n x).ethMode = s.ethMode := rfl
@[simp] theorem setSrc_eth (s : State) (n : Nat) (x : Source) : (s.setSrc n x).eth = s.eth := rfl
@[simp] theorem setSrc_sx (s : State) (n : Nat) (x : Source) : (s.setSrc n x).sx = s.sx := rfl
@[simp] theorem setSrc_rel (s : State) (n : Nat) (x : Source) : (s.setSrc n x).rel = s.rel := rfl
@[simp] theorem setSrc_pw (s : State) (n : Nat) (x : Source) : (s.setSrc n x).pw = s.pw := rfl
@[simp] theorem setSrc_link (s : State) (n : Nat) (x : Source) : (s.setSrc n x).link = s.link := rfl
@[simp] theorem setSrc_st (s : State) (n : Nat) (x : Source) : (s.setSrc n x).st = s.st := rfl

/-! ### setHostMem -/

@[simp] theorem setHostMem_host (s : State) (f : Nat) (m : Memory) : (s.setHostMem f m).host = NMap.set [] s.host f m := rfl
@[simp] theorem setHostMem_pending (s : State) (f : Nat) (m : Memory) : (s.setHostMem f m).pending = s.pending := rfl
@[simp] theorem setHostMem_variant (s : State) (f : Nat) (m : Memory) : (s.setHostMem f m).variant = s.variant := rfl
@[simp] theorem setHostMem_now (s : State) (f : Nat) (m : Memory) : (s.setHostMem f m).now = s.now := rfl
@[simp] theorem setHostMem_free (s : State) (f : Nat) (m : Memory) : (s.setHostMem f m).free = s.free := rfl
@[simp] theorem setHostMem_nextId (s : State) (f : Nat) (m : Memory) : (s.setHostMem f m).nextId = s.nextId := rfl
@[simp] theorem setHostMem_readData (s : State) (f : Nat) (m : Memory) : (s.setHostMem f m).readData = s.readData := rfl
@[simp] theorem setHostMem_ctr (s : State) (f : Nat) (m : Memory) : (s.setHostMem f m).ctr = s.ctr := rfl
@[simp] theorem setHostMem_cap (s : State) (f : Nat) (m : Memory) : (s.setHostMem f m).cap = s.cap := rfl
@[simp] theorem setHostMem_regs (s : State) (f : Nat) (m : Memory) : (s.setHostMem f m).regs = s.regs := rfl
@[simp] theorem setHostMem_hostPoison (s : State) (f : Nat) (m : Memory) : (s.setHostMem f m).hostPoison = s.hostPoison := rfl
@[simp] theorem setHostMem_mctp (s : State) (f : Nat) (m : Memory) : (s.setHostMem f m).mctp = s.mctp := rfl
@[simp] theorem setHostMem_fns (s : State) (f : Nat) (m : Memory) : (s.setHostMem f m).fns = s.fns := rfl
@[simp] theorem setHostMem_tenants (s : State) (f : Nat) (m : Memory) : (s.setHostMem f m).tenants = s.tenants := rfl
@[simp] theorem setHostMem_mgmtVersion (s : State) (f : Nat) (m : Memory) : (s.setHostMem f m).mgmtVersion = s.mgmtVersion := rfl
@[simp] theorem setHostMem_cmds (s : State) (f : Nat) (m : Memory) : (s.setHostMem f m).cmds = s.cmds := rfl
@[simp] theorem setHostMem_radioCmds (s : State) (f : Nat) (m : Memory) : (s.setHostMem f m).radioCmds = s.radioCmds := rfl
@[simp] theorem setHostMem_radioSet (s : State) (f : Nat) (m : Memory) : (s.setHostMem f m).radioSet = s.radioSet := rfl
@[simp] theorem setHostMem_guard (s : State) (f : Nat) (m : Memory) : (s.setHostMem f m).guard = s.guard := rfl
@[simp] theorem setHostMem_cqUsed (s : State) (f : Nat) (m : Memory) : (s.setHostMem f m).cqUsed = s.cqUsed := rfl
@[simp] theorem setHostMem_cqPeak (s : State) (f : Nat) (m : Memory) : (s.setHostMem f m).cqPeak = s.cqPeak := rfl
@[simp] theorem setHostMem_spilled (s : State) (f : Nat) (m : Memory) : (s.setHostMem f m).spilled = s.spilled := rfl
@[simp] theorem setHostMem_cores (s : State) (f : Nat) (m : Memory) : (s.setHostMem f m).cores = s.cores := rfl
@[simp] theorem setHostMem_coopers (s : State) (f : Nat) (m : Memory) : (s.setHostMem f m).coopers = s.coopers := rfl
@[simp] theorem setHostMem_trackers (s : State) (f : Nat) (m : Memory) : (s.setHostMem f m).trackers = s.trackers := rfl
@[simp] theorem setHostMem_fabric (s : State) (f : Nat) (m : Memory) : (s.setHostMem f m).fabric = s.fabric := rfl
@[simp] theorem setHostMem_cells (s : State) (f : Nat) (m : Memory) : (s.setHostMem f m).cells = s.cells := rfl
@[simp] theorem setHostMem_scs (s : State) (f : Nat) (m : Memory) : (s.setHostMem f m).scs = s.scs := rfl
@[simp] theorem setHostMem_clusters (s : State) (f : Nat) (m : Memory) : (s.setHostMem f m).clusters = s.clusters := rfl
@[simp] theorem setHostMem_engineStatus (s : State) (f : Nat) (m : Memory) : (s.setHostMem f m).engineStatus = s.engineStatus := rfl
@[simp] theorem setHostMem_ethMode (s : State) (f : Nat) (m : Memory) : (s.setHostMem f m).ethMode = s.ethMode := rfl
@[simp] theorem setHostMem_eth (s : State) (f : Nat) (m : Memory) : (s.setHostMem f m).eth = s.eth := rfl
@[simp] theorem setHostMem_sx (s : State) (f : Nat) (m : Memory) : (s.setHostMem f m).sx = s.sx := rfl
@[simp] theorem setHostMem_ev (s : State) (f : Nat) (m : Memory) : (s.setHostMem f m).ev = s.ev := rfl
@[simp] theorem setHostMem_rel (s : State) (f : Nat) (m : Memory) : (s.setHostMem f m).rel = s.rel := rfl
@[simp] theorem setHostMem_pw (s : State) (f : Nat) (m : Memory) : (s.setHostMem f m).pw = s.pw := rfl
@[simp] theorem setHostMem_link (s : State) (f : Nat) (m : Memory) : (s.setHostMem f m).link = s.link := rfl
@[simp] theorem setHostMem_st (s : State) (f : Nat) (m : Memory) : (s.setHostMem f m).st = s.st := rfl

/-! ### setCmd -/

@[simp] theorem setCmd_cmds (s : State) (c : Cmd) : (s.setCmd c).cmds = s.cmds.map fun d => if d.id == c.id then c else d := rfl
@[simp] theorem setCmd_pending (s : State) (c : Cmd) : (s.setCmd c).pending = s.pending := rfl
@[simp] theorem setCmd_variant (s : State) (c : Cmd) : (s.setCmd c).variant = s.variant := rfl
@[simp] theorem setCmd_now (s : State) (c : Cmd) : (s.setCmd c).now = s.now := rfl
@[simp] theorem setCmd_free (s : State) (c : Cmd) : (s.setCmd c).free = s.free := rfl
@[simp] theorem setCmd_nextId (s : State) (c : Cmd) : (s.setCmd c).nextId = s.nextId := rfl
@[simp] theorem setCmd_readData (s : State) (c : Cmd) : (s.setCmd c).readData = s.readData := rfl
@[simp] theorem setCmd_ctr (s : State) (c : Cmd) : (s.setCmd c).ctr = s.ctr := rfl
@[simp] theorem setCmd_cap (s : State) (c : Cmd) : (s.setCmd c).cap = s.cap := rfl
@[simp] theorem setCmd_regs (s : State) (c : Cmd) : (s.setCmd c).regs = s.regs := rfl
@[simp] theorem setCmd_host (s : State) (c : Cmd) : (s.setCmd c).host = s.host := rfl
@[simp] theorem setCmd_hostPoison (s : State) (c : Cmd) : (s.setCmd c).hostPoison = s.hostPoison := rfl
@[simp] theorem setCmd_mctp (s : State) (c : Cmd) : (s.setCmd c).mctp = s.mctp := rfl
@[simp] theorem setCmd_fns (s : State) (c : Cmd) : (s.setCmd c).fns = s.fns := rfl
@[simp] theorem setCmd_tenants (s : State) (c : Cmd) : (s.setCmd c).tenants = s.tenants := rfl
@[simp] theorem setCmd_mgmtVersion (s : State) (c : Cmd) : (s.setCmd c).mgmtVersion = s.mgmtVersion := rfl
@[simp] theorem setCmd_radioCmds (s : State) (c : Cmd) : (s.setCmd c).radioCmds = s.radioCmds := rfl
@[simp] theorem setCmd_radioSet (s : State) (c : Cmd) : (s.setCmd c).radioSet = s.radioSet := rfl
@[simp] theorem setCmd_guard (s : State) (c : Cmd) : (s.setCmd c).guard = s.guard := rfl
@[simp] theorem setCmd_cqUsed (s : State) (c : Cmd) : (s.setCmd c).cqUsed = s.cqUsed := rfl
@[simp] theorem setCmd_cqPeak (s : State) (c : Cmd) : (s.setCmd c).cqPeak = s.cqPeak := rfl
@[simp] theorem setCmd_spilled (s : State) (c : Cmd) : (s.setCmd c).spilled = s.spilled := rfl
@[simp] theorem setCmd_cores (s : State) (c : Cmd) : (s.setCmd c).cores = s.cores := rfl
@[simp] theorem setCmd_coopers (s : State) (c : Cmd) : (s.setCmd c).coopers = s.coopers := rfl
@[simp] theorem setCmd_trackers (s : State) (c : Cmd) : (s.setCmd c).trackers = s.trackers := rfl
@[simp] theorem setCmd_fabric (s : State) (c : Cmd) : (s.setCmd c).fabric = s.fabric := rfl
@[simp] theorem setCmd_cells (s : State) (c : Cmd) : (s.setCmd c).cells = s.cells := rfl
@[simp] theorem setCmd_scs (s : State) (c : Cmd) : (s.setCmd c).scs = s.scs := rfl
@[simp] theorem setCmd_clusters (s : State) (c : Cmd) : (s.setCmd c).clusters = s.clusters := rfl
@[simp] theorem setCmd_engineStatus (s : State) (c : Cmd) : (s.setCmd c).engineStatus = s.engineStatus := rfl
@[simp] theorem setCmd_ethMode (s : State) (c : Cmd) : (s.setCmd c).ethMode = s.ethMode := rfl
@[simp] theorem setCmd_eth (s : State) (c : Cmd) : (s.setCmd c).eth = s.eth := rfl
@[simp] theorem setCmd_sx (s : State) (c : Cmd) : (s.setCmd c).sx = s.sx := rfl
@[simp] theorem setCmd_ev (s : State) (c : Cmd) : (s.setCmd c).ev = s.ev := rfl
@[simp] theorem setCmd_rel (s : State) (c : Cmd) : (s.setCmd c).rel = s.rel := rfl
@[simp] theorem setCmd_pw (s : State) (c : Cmd) : (s.setCmd c).pw = s.pw := rfl
@[simp] theorem setCmd_link (s : State) (c : Cmd) : (s.setCmd c).link = s.link := rfl
@[simp] theorem setCmd_st (s : State) (c : Cmd) : (s.setCmd c).st = s.st := rfl

/-! ### dropCmd -/

@[simp] theorem dropCmd_cmds (s : State) (id : Nat) : (s.dropCmd id).cmds = s.cmds.filter fun d => d.id != id := rfl
@[simp] theorem dropCmd_pending (s : State) (id : Nat) : (s.dropCmd id).pending = s.pending := rfl
@[simp] theorem dropCmd_variant (s : State) (id : Nat) : (s.dropCmd id).variant = s.variant := rfl
@[simp] theorem dropCmd_now (s : State) (id : Nat) : (s.dropCmd id).now = s.now := rfl
@[simp] theorem dropCmd_free (s : State) (id : Nat) : (s.dropCmd id).free = s.free := rfl
@[simp] theorem dropCmd_nextId (s : State) (id : Nat) : (s.dropCmd id).nextId = s.nextId := rfl
@[simp] theorem dropCmd_readData (s : State) (id : Nat) : (s.dropCmd id).readData = s.readData := rfl
@[simp] theorem dropCmd_ctr (s : State) (id : Nat) : (s.dropCmd id).ctr = s.ctr := rfl
@[simp] theorem dropCmd_cap (s : State) (id : Nat) : (s.dropCmd id).cap = s.cap := rfl
@[simp] theorem dropCmd_regs (s : State) (id : Nat) : (s.dropCmd id).regs = s.regs := rfl
@[simp] theorem dropCmd_host (s : State) (id : Nat) : (s.dropCmd id).host = s.host := rfl
@[simp] theorem dropCmd_hostPoison (s : State) (id : Nat) : (s.dropCmd id).hostPoison = s.hostPoison := rfl
@[simp] theorem dropCmd_mctp (s : State) (id : Nat) : (s.dropCmd id).mctp = s.mctp := rfl
@[simp] theorem dropCmd_fns (s : State) (id : Nat) : (s.dropCmd id).fns = s.fns := rfl
@[simp] theorem dropCmd_tenants (s : State) (id : Nat) : (s.dropCmd id).tenants = s.tenants := rfl
@[simp] theorem dropCmd_mgmtVersion (s : State) (id : Nat) : (s.dropCmd id).mgmtVersion = s.mgmtVersion := rfl
@[simp] theorem dropCmd_radioCmds (s : State) (id : Nat) : (s.dropCmd id).radioCmds = s.radioCmds := rfl
@[simp] theorem dropCmd_radioSet (s : State) (id : Nat) : (s.dropCmd id).radioSet = s.radioSet := rfl
@[simp] theorem dropCmd_guard (s : State) (id : Nat) : (s.dropCmd id).guard = s.guard := rfl
@[simp] theorem dropCmd_cqUsed (s : State) (id : Nat) : (s.dropCmd id).cqUsed = s.cqUsed := rfl
@[simp] theorem dropCmd_cqPeak (s : State) (id : Nat) : (s.dropCmd id).cqPeak = s.cqPeak := rfl
@[simp] theorem dropCmd_spilled (s : State) (id : Nat) : (s.dropCmd id).spilled = s.spilled := rfl
@[simp] theorem dropCmd_cores (s : State) (id : Nat) : (s.dropCmd id).cores = s.cores := rfl
@[simp] theorem dropCmd_coopers (s : State) (id : Nat) : (s.dropCmd id).coopers = s.coopers := rfl
@[simp] theorem dropCmd_trackers (s : State) (id : Nat) : (s.dropCmd id).trackers = s.trackers := rfl
@[simp] theorem dropCmd_fabric (s : State) (id : Nat) : (s.dropCmd id).fabric = s.fabric := rfl
@[simp] theorem dropCmd_cells (s : State) (id : Nat) : (s.dropCmd id).cells = s.cells := rfl
@[simp] theorem dropCmd_scs (s : State) (id : Nat) : (s.dropCmd id).scs = s.scs := rfl
@[simp] theorem dropCmd_clusters (s : State) (id : Nat) : (s.dropCmd id).clusters = s.clusters := rfl
@[simp] theorem dropCmd_engineStatus (s : State) (id : Nat) : (s.dropCmd id).engineStatus = s.engineStatus := rfl
@[simp] theorem dropCmd_ethMode (s : State) (id : Nat) : (s.dropCmd id).ethMode = s.ethMode := rfl
@[simp] theorem dropCmd_eth (s : State) (id : Nat) : (s.dropCmd id).eth = s.eth := rfl
@[simp] theorem dropCmd_sx (s : State) (id : Nat) : (s.dropCmd id).sx = s.sx := rfl
@[simp] theorem dropCmd_ev (s : State) (id : Nat) : (s.dropCmd id).ev = s.ev := rfl
@[simp] theorem dropCmd_rel (s : State) (id : Nat) : (s.dropCmd id).rel = s.rel := rfl
@[simp] theorem dropCmd_pw (s : State) (id : Nat) : (s.dropCmd id).pw = s.pw := rfl
@[simp] theorem dropCmd_link (s : State) (id : Nat) : (s.dropCmd id).link = s.link := rfl
@[simp] theorem dropCmd_st (s : State) (id : Nat) : (s.dropCmd id).st = s.st := rfl

/-! ### bump -/

@[simp] theorem bump_ctr (s : State) (a n : Nat) : (s.bump a n).ctr = NMap.set 0 s.ctr a (min ctrMax (s.count a + n)) := rfl
@[simp] theorem bump_pending (s : State) (a n : Nat) : (s.bump a n).pending = s.pending := rfl
@[simp] theorem bump_variant (s : State) (a n : Nat) : (s.bump a n).variant = s.variant := rfl
@[simp] theorem bump_now (s : State) (a n : Nat) : (s.bump a n).now = s.now := rfl
@[simp] theorem bump_free (s : State) (a n : Nat) : (s.bump a n).free = s.free := rfl
@[simp] theorem bump_nextId (s : State) (a n : Nat) : (s.bump a n).nextId = s.nextId := rfl
@[simp] theorem bump_readData (s : State) (a n : Nat) : (s.bump a n).readData = s.readData := rfl
@[simp] theorem bump_cap (s : State) (a n : Nat) : (s.bump a n).cap = s.cap := rfl
@[simp] theorem bump_regs (s : State) (a n : Nat) : (s.bump a n).regs = s.regs := rfl
@[simp] theorem bump_host (s : State) (a n : Nat) : (s.bump a n).host = s.host := rfl
@[simp] theorem bump_hostPoison (s : State) (a n : Nat) : (s.bump a n).hostPoison = s.hostPoison := rfl
@[simp] theorem bump_mctp (s : State) (a n : Nat) : (s.bump a n).mctp = s.mctp := rfl
@[simp] theorem bump_fns (s : State) (a n : Nat) : (s.bump a n).fns = s.fns := rfl
@[simp] theorem bump_tenants (s : State) (a n : Nat) : (s.bump a n).tenants = s.tenants := rfl
@[simp] theorem bump_mgmtVersion (s : State) (a n : Nat) : (s.bump a n).mgmtVersion = s.mgmtVersion := rfl
@[simp] theorem bump_cmds (s : State) (a n : Nat) : (s.bump a n).cmds = s.cmds := rfl
@[simp] theorem bump_radioCmds (s : State) (a n : Nat) : (s.bump a n).radioCmds = s.radioCmds := rfl
@[simp] theorem bump_radioSet (s : State) (a n : Nat) : (s.bump a n).radioSet = s.radioSet := rfl
@[simp] theorem bump_guard (s : State) (a n : Nat) : (s.bump a n).guard = s.guard := rfl
@[simp] theorem bump_cqUsed (s : State) (a n : Nat) : (s.bump a n).cqUsed = s.cqUsed := rfl
@[simp] theorem bump_cqPeak (s : State) (a n : Nat) : (s.bump a n).cqPeak = s.cqPeak := rfl
@[simp] theorem bump_spilled (s : State) (a n : Nat) : (s.bump a n).spilled = s.spilled := rfl
@[simp] theorem bump_cores (s : State) (a n : Nat) : (s.bump a n).cores = s.cores := rfl
@[simp] theorem bump_coopers (s : State) (a n : Nat) : (s.bump a n).coopers = s.coopers := rfl
@[simp] theorem bump_trackers (s : State) (a n : Nat) : (s.bump a n).trackers = s.trackers := rfl
@[simp] theorem bump_fabric (s : State) (a n : Nat) : (s.bump a n).fabric = s.fabric := rfl
@[simp] theorem bump_cells (s : State) (a n : Nat) : (s.bump a n).cells = s.cells := rfl
@[simp] theorem bump_scs (s : State) (a n : Nat) : (s.bump a n).scs = s.scs := rfl
@[simp] theorem bump_clusters (s : State) (a n : Nat) : (s.bump a n).clusters = s.clusters := rfl
@[simp] theorem bump_engineStatus (s : State) (a n : Nat) : (s.bump a n).engineStatus = s.engineStatus := rfl
@[simp] theorem bump_ethMode (s : State) (a n : Nat) : (s.bump a n).ethMode = s.ethMode := rfl
@[simp] theorem bump_eth (s : State) (a n : Nat) : (s.bump a n).eth = s.eth := rfl
@[simp] theorem bump_sx (s : State) (a n : Nat) : (s.bump a n).sx = s.sx := rfl
@[simp] theorem bump_ev (s : State) (a n : Nat) : (s.bump a n).ev = s.ev := rfl
@[simp] theorem bump_rel (s : State) (a n : Nat) : (s.bump a n).rel = s.rel := rfl
@[simp] theorem bump_pw (s : State) (a n : Nat) : (s.bump a n).pw = s.pw := rfl
@[simp] theorem bump_link (s : State) (a n : Nat) : (s.bump a n).link = s.link := rfl
@[simp] theorem bump_st (s : State) (a n : Nat) : (s.bump a n).st = s.st := rfl

/-! ### bumpMax -/

@[simp] theorem bumpMax_ctr (s : State) (a n : Nat) : (s.bumpMax a n).ctr = NMap.set 0 s.ctr a (max n (s.count a)) := rfl
@[simp] theorem bumpMax_pending (s : State) (a n : Nat) : (s.bumpMax a n).pending = s.pending := rfl
@[simp] theorem bumpMax_variant (s : State) (a n : Nat) : (s.bumpMax a n).variant = s.variant := rfl
@[simp] theorem bumpMax_now (s : State) (a n : Nat) : (s.bumpMax a n).now = s.now := rfl
@[simp] theorem bumpMax_free (s : State) (a n : Nat) : (s.bumpMax a n).free = s.free := rfl
@[simp] theorem bumpMax_nextId (s : State) (a n : Nat) : (s.bumpMax a n).nextId = s.nextId := rfl
@[simp] theorem bumpMax_readData (s : State) (a n : Nat) : (s.bumpMax a n).readData = s.readData := rfl
@[simp] theorem bumpMax_cap (s : State) (a n : Nat) : (s.bumpMax a n).cap = s.cap := rfl
@[simp] theorem bumpMax_regs (s : State) (a n : Nat) : (s.bumpMax a n).regs = s.regs := rfl
@[simp] theorem bumpMax_host (s : State) (a n : Nat) : (s.bumpMax a n).host = s.host := rfl
@[simp] theorem bumpMax_hostPoison (s : State) (a n : Nat) : (s.bumpMax a n).hostPoison = s.hostPoison := rfl
@[simp] theorem bumpMax_mctp (s : State) (a n : Nat) : (s.bumpMax a n).mctp = s.mctp := rfl
@[simp] theorem bumpMax_fns (s : State) (a n : Nat) : (s.bumpMax a n).fns = s.fns := rfl
@[simp] theorem bumpMax_tenants (s : State) (a n : Nat) : (s.bumpMax a n).tenants = s.tenants := rfl
@[simp] theorem bumpMax_mgmtVersion (s : State) (a n : Nat) : (s.bumpMax a n).mgmtVersion = s.mgmtVersion := rfl
@[simp] theorem bumpMax_cmds (s : State) (a n : Nat) : (s.bumpMax a n).cmds = s.cmds := rfl
@[simp] theorem bumpMax_radioCmds (s : State) (a n : Nat) : (s.bumpMax a n).radioCmds = s.radioCmds := rfl
@[simp] theorem bumpMax_radioSet (s : State) (a n : Nat) : (s.bumpMax a n).radioSet = s.radioSet := rfl
@[simp] theorem bumpMax_guard (s : State) (a n : Nat) : (s.bumpMax a n).guard = s.guard := rfl
@[simp] theorem bumpMax_cqUsed (s : State) (a n : Nat) : (s.bumpMax a n).cqUsed = s.cqUsed := rfl
@[simp] theorem bumpMax_cqPeak (s : State) (a n : Nat) : (s.bumpMax a n).cqPeak = s.cqPeak := rfl
@[simp] theorem bumpMax_spilled (s : State) (a n : Nat) : (s.bumpMax a n).spilled = s.spilled := rfl
@[simp] theorem bumpMax_cores (s : State) (a n : Nat) : (s.bumpMax a n).cores = s.cores := rfl
@[simp] theorem bumpMax_coopers (s : State) (a n : Nat) : (s.bumpMax a n).coopers = s.coopers := rfl
@[simp] theorem bumpMax_trackers (s : State) (a n : Nat) : (s.bumpMax a n).trackers = s.trackers := rfl
@[simp] theorem bumpMax_fabric (s : State) (a n : Nat) : (s.bumpMax a n).fabric = s.fabric := rfl
@[simp] theorem bumpMax_cells (s : State) (a n : Nat) : (s.bumpMax a n).cells = s.cells := rfl
@[simp] theorem bumpMax_scs (s : State) (a n : Nat) : (s.bumpMax a n).scs = s.scs := rfl
@[simp] theorem bumpMax_clusters (s : State) (a n : Nat) : (s.bumpMax a n).clusters = s.clusters := rfl
@[simp] theorem bumpMax_engineStatus (s : State) (a n : Nat) : (s.bumpMax a n).engineStatus = s.engineStatus := rfl
@[simp] theorem bumpMax_ethMode (s : State) (a n : Nat) : (s.bumpMax a n).ethMode = s.ethMode := rfl
@[simp] theorem bumpMax_eth (s : State) (a n : Nat) : (s.bumpMax a n).eth = s.eth := rfl
@[simp] theorem bumpMax_sx (s : State) (a n : Nat) : (s.bumpMax a n).sx = s.sx := rfl
@[simp] theorem bumpMax_ev (s : State) (a n : Nat) : (s.bumpMax a n).ev = s.ev := rfl
@[simp] theorem bumpMax_rel (s : State) (a n : Nat) : (s.bumpMax a n).rel = s.rel := rfl
@[simp] theorem bumpMax_pw (s : State) (a n : Nat) : (s.bumpMax a n).pw = s.pw := rfl
@[simp] theorem bumpMax_link (s : State) (a n : Nat) : (s.bumpMax a n).link = s.link := rfl
@[simp] theorem bumpMax_st (s : State) (a n : Nat) : (s.bumpMax a n).st = s.st := rfl

/-! ### A draw of a free value -/

@[simp] theorem draw_free (s : State) : s.draw.2.free = s.free + 1 := rfl
@[simp] theorem draw_pending (s : State) : s.draw.2.pending = s.pending := rfl
@[simp] theorem draw_variant (s : State) : s.draw.2.variant = s.variant := rfl
@[simp] theorem draw_now (s : State) : s.draw.2.now = s.now := rfl
@[simp] theorem draw_nextId (s : State) : s.draw.2.nextId = s.nextId := rfl
@[simp] theorem draw_readData (s : State) : s.draw.2.readData = s.readData := rfl
@[simp] theorem draw_ctr (s : State) : s.draw.2.ctr = s.ctr := rfl
@[simp] theorem draw_cap (s : State) : s.draw.2.cap = s.cap := rfl
@[simp] theorem draw_regs (s : State) : s.draw.2.regs = s.regs := rfl
@[simp] theorem draw_host (s : State) : s.draw.2.host = s.host := rfl
@[simp] theorem draw_hostPoison (s : State) : s.draw.2.hostPoison = s.hostPoison := rfl
@[simp] theorem draw_mctp (s : State) : s.draw.2.mctp = s.mctp := rfl
@[simp] theorem draw_fns (s : State) : s.draw.2.fns = s.fns := rfl
@[simp] theorem draw_tenants (s : State) : s.draw.2.tenants = s.tenants := rfl
@[simp] theorem draw_mgmtVersion (s : State) : s.draw.2.mgmtVersion = s.mgmtVersion := rfl
@[simp] theorem draw_cmds (s : State) : s.draw.2.cmds = s.cmds := rfl
@[simp] theorem draw_radioCmds (s : State) : s.draw.2.radioCmds = s.radioCmds := rfl
@[simp] theorem draw_radioSet (s : State) : s.draw.2.radioSet = s.radioSet := rfl
@[simp] theorem draw_guard (s : State) : s.draw.2.guard = s.guard := rfl
@[simp] theorem draw_cqUsed (s : State) : s.draw.2.cqUsed = s.cqUsed := rfl
@[simp] theorem draw_cqPeak (s : State) : s.draw.2.cqPeak = s.cqPeak := rfl
@[simp] theorem draw_spilled (s : State) : s.draw.2.spilled = s.spilled := rfl
@[simp] theorem draw_cores (s : State) : s.draw.2.cores = s.cores := rfl
@[simp] theorem draw_coopers (s : State) : s.draw.2.coopers = s.coopers := rfl
@[simp] theorem draw_trackers (s : State) : s.draw.2.trackers = s.trackers := rfl
@[simp] theorem draw_fabric (s : State) : s.draw.2.fabric = s.fabric := rfl
@[simp] theorem draw_cells (s : State) : s.draw.2.cells = s.cells := rfl
@[simp] theorem draw_scs (s : State) : s.draw.2.scs = s.scs := rfl
@[simp] theorem draw_clusters (s : State) : s.draw.2.clusters = s.clusters := rfl
@[simp] theorem draw_engineStatus (s : State) : s.draw.2.engineStatus = s.engineStatus := rfl
@[simp] theorem draw_ethMode (s : State) : s.draw.2.ethMode = s.ethMode := rfl
@[simp] theorem draw_eth (s : State) : s.draw.2.eth = s.eth := rfl
@[simp] theorem draw_sx (s : State) : s.draw.2.sx = s.sx := rfl
@[simp] theorem draw_ev (s : State) : s.draw.2.ev = s.ev := rfl
@[simp] theorem draw_rel (s : State) : s.draw.2.rel = s.rel := rfl
@[simp] theorem draw_pw (s : State) : s.draw.2.pw = s.pw := rfl
@[simp] theorem draw_link (s : State) : s.draw.2.link = s.link := rfl
@[simp] theorem draw_st (s : State) : s.draw.2.st = s.st := rfl

end Sys2Proof.Machine.State
end

