-- ==== Sys2Proof/WellFormed.lean ====
section
/-! DEFINITION. Which commands name units that exist: ranges of the operands. A command outside them is no event of the machine. -/
namespace Sys2Proof

/-- Every operand of the command names something the manual numbers (functions 0–15, cores 0–63, signal cores 0–127, …). -/
def Instr.wf (i : Instr) : Bool :=
  match i with
  | .windowWrite fn off data _ =>
    decide (fn < 16 ∧ off + data.length ≤ 65536)
  | .packetAccept fn | .hwWinCtlResync fn | .hwRingCfgEnable fn _ | .hwRingHeadWrite fn _ | .hwHeartbeatWrite fn _
  | .hwNoticeDropRead fn | .replyTimeThreshold fn | .virtualFunctionFlr fn =>
    decide (fn < 16)
  | .mctpMessage _ | .remoteCommand _ | .wfCtlClear | .weCtlClear | .sxCtlClear | .pwCtlClear | .evCtlClear
  | .evCtlDisable _ | .registerWrite _ _ | .opHello _ | .opCaps _ | .opCreditQuery _ | .opNop _ | .opContextOpen _
  | .opContextClose _ | .opContextReset _ | .opTenantProvision _ | .opAlloc _ | .opFree _ | .opCopy _ | .opFill _
  | .opPromote _ | .opEvict _ | .opPin _ | .opUnpin _ | .opTierQuery _ | .opCompressHint _ | .opMatmulChain _
  | .opVectorRun _ | .opVectorLoad _ | .opReduce _ | .opGatherRows _ | .opStepCompose _ | .opSeqSubmit _
  | .opSeqCancel _ | .opSample _ | .opTokenSignal _ | .opTokenWait _ | .opFence _ | .opBarrierArm _
  | .opRegionExport _ | .opRegionImport _ | .opRegionRevoke _ | .opOwnershipTransfer _ | .opRowsSend _
  | .opRowsCombine _ | .opLeaseSet _ | .opPartitionSet _ | .opCellConfig _ | .opCellStart _ | .opCellStop _
  | .opRadioReserve _ | .opFapiP5 _ | .opFapiP7 _ | .opHeadControl _ | .opDomainConfig _ | .opDomainSelect _
  | .opTriggerSet _ | .opCaptureRead _ | .opTimeRead _ | .opPortConfig _ | .opQueueConfig _ | .opShaperConfig _
  | .opPolicerConfig _ | .opErrorLogRead _ | .opCheckConfig _ | .opScrub _ | .opInject _ | .opQuarantineQuery _
  | .opRecordStart _ | .opRecordStop _ | .opReplayStart _ | .opSeedSet _ | .opStepRead _ | .opFwStage _
  | .opFwActivate _ | .opRegRead _ | .opRegWrite _ | .opPowerPolicy _ | .opAttest _ | .commandGrant _
  | .contextWatchdog _ | .tokenWaitTimeout _ | .replay _ _ | .loadResponse _ | .fenceTimeout _
  | .importProbeTimeout _ | .transferTimeout _ | .revokeWriteBackTimeout _ | .leaseForwardTimeout _ | .leaseExpiry
  | .barrierTimeout _ | .slewEnd | .inputValid _ | .startupComplete _ | .windowReady | .brownoutWarning _
  | .brownoutClear | .resetTrip | .overvoltageTrip | .powerMeasurement _ | .domainSwitchDone _ | .moduleReset
  | .perstAssertion | .perstRelease | .hotReset | .linkDisable | .physicalFunctionFlr | .surpriseDown
  | .holdoverExpiry | .linkReturn | .hotRestartTimeout | .hotRestartResume | .completionTimeout _
  | .configurationRequest _ =>
    true
  | .counterLoRead addr =>
    decide (addr < 2 ^ 32)
  | .mcCtlClear core | .veCtlClear core | .commandStart core | .spillEnd core | .fillEnd core | .slotGuardLimit core
  | .veAdd core _ | .veSub core _ | .veMul core _ | .veFma core _ | .veMin core _ | .veMax core _ | .veAbs core _
  | .veNeg core _ | .veCmpeq core _ | .veCmplt core _ | .veCmple core _ | .veCmpun core _ | .veSel core _
  | .veExp2 core _ | .veLog2 core _ | .veRcp core _ | .veRsq core _ | .veTanh core _ | .veRelu core _
  | .veGelu core _ | .veSilu core _ | .veSwiglu core _ | .veCvtn core _ | .veCvtwl core _ | .veCvtwh core _
  | .veCvtfi core _ | .veCvtif core _ | .veAnd core _ | .veOr core _ | .veXor core _ | .veShl core _ | .veShra core _
  | .veMovs core _ | .veIotac core _ | .veIotar core _ | .veShc1 core _ | .veTrn core _ | .vePand core _
  | .vePor core _ | .vePnot core _ | .vePset core _ | .vePclr core _ | .veRsum core _ | .veRprod core _
  | .veRmax core _ | .veRmin core _ | .veRcnt core _ | .veRmean core _ | .veScan core _ | .veSscan core _
  | .veCspush core _ | .veCsfin core _ | .veCsclr core _ | .veTopk core _ | .veTopkclr core _ | .veLdt core _
  | .veStt core _ | .veLds core _ | .veSts core _ | .veSmx core _ | .veCput core _ | .veCget core _ | .veEnd core _
  | .veNop core _ | .veAddi core _ | .veAddScalar core _ | .veSubScalar core _ | .veMuli core _ | .veShli core _
  | .veShri core _ | .veAndi core _ | .veBr core _ | .veBeqz core _ | .veBnez core _ | .veBlt core _ | .veLoop core _
  | .veMvsv core _ =>
    decide (core < 64)
  | .dpCtlClear die | .completionPost die | .thermalTrip die =>
    decide (die < 2)
  | .scCtlClear core | .scFaultRead core | .jobStart core _ | .jobCycleLimit core | .scMov core _ | .scCadd core _
  | .scCsub core _ | .scCmul core _ | .scCmulj core _ | .scConj core _ | .scCneg core _ | .scSwap core _
  | .scAddw core _ | .scSubw core _ | .scAndw core _ | .scOrw core _ | .scXorw core _ | .scShlh core _
  | .scShrh core _ | .scShlw core _ | .scShrw core _ | .scMag2 core _ | .scMinw core _ | .scMaxw core _
  | .scAccrd core _ | .scAccclr core _ | .scAccsh core _ | .scAccadd core _ | .scAccld core _ | .scCmpw core _
  | .scAbsh core _ | .scCmac core _ | .scCmacj core _ | .scCmsu core _ | .scCmpy core _ | .scCpow core _
  | .scNopm core _ | .scSfFir core _ | .scSfSearch core _ | .scLd core _ | .scSt core _ | .scLdil core _
  | .scLdih core _ | .scMovr core _ | .scAddpi core _ | .scNop core _ | .scDone core _ | .scBr core _
  | .scCall core _ | .scRet core _ | .scLoop core _ | .scLoopr core _ | .scBreak core _ | .scWaitf core _
  | .scSetf core _ | .scClrf core _ =>
    decide (core < 128)
  | .scClCtlClear cluster | .scClCtlHalt cluster _ | .controlCoreWatchdog cluster =>
    decide (cluster < 8)
  | .scProgramWindowWrite cluster index _ =>
    decide (cluster < 8 ∧ index < 16384)
  | .tmCtlClear port | .frameTransmit port | .ethernetLinkChange port _ =>
    decide (port < 16)
  | .evClaim target | .evComplete target _ =>
    decide (target < 12)
  | .radioCommandIssue cell _ _ | .slotBoundary cell | .requestDeadline cell | .slotDeadline cell _
  | .cellBecomesRunning cell | .frequencyEstimate cell _ _ =>
    decide (cell < 256)
  | .stepWatchdog tenant ctx | .servingStep tenant ctx | .replayEntry tenant ctx =>
    decide (tenant < 16 ∧ ctx < 64)
  | .heartbeatExpiry tenant =>
    decide (tenant < 16)
  | .cooperRoundTimeout quarter =>
    decide (quarter < 8)
  | .raiseComplete tenant handle | .loweringComplete tenant handle | .l2WriteBack tenant handle _
  | .patrolScrub tenant handle _ _ =>
    decide (tenant < 16 ∧ 0 < handle ∧ handle < 2 ^ 32)
  | .trackerRetire slice tracker =>
    decide (slice < 16 ∧ tracker < 16)
  | .fabricLoad p | .fabricStore p | .fabricAtomic p | .writeBack p | .probe p _ | .importReleaseNotice p =>
    decide (p.src < 65536 ∧ p.offset < 2 ^ 48)
  | .homeEntryAdmit unit =>
    decide (unit < 8)
  | .acknowledgement node epoch _ | .refusal node epoch _ _ =>
    decide (node < 65536 ∧ epoch < 2 ^ 32)
  | .ownerChange p owner =>
    decide (p.src < 65536 ∧ p.offset < 2 ^ 48 ∧ owner < 65536)
  | .ownerNotice p base epoch owner =>
    decide (p.src < 65536 ∧ base < 2 ^ 48 ∧ epoch < 2 ^ 32 ∧ owner < 65536)
  | .writeBackRequest p base =>
    decide (p.src < 65536 ∧ base < 2 ^ 48)
  | .receiveSignal p token _ =>
    decide (p.src < 65536 ∧ p.offset < 2 ^ 48 ∧ token < 4096)
  | .resend node | .streamBreak node =>
    decide (node < 65536)
  | .linkFrameReceive port _ | .portDown port _ | .portRetrain port | .portTraining port _ | .fencedPortRetry port
  | .linkFrameTransmit port =>
    decide (port < 8)
  | .barrierArmSignal barrier port | .barrierRelease barrier port _ _ =>
    decide (barrier < 16 ∧ port < 8)
  | .barrierFire barrier =>
    decide (barrier < 16)
  | .ethernetFrameReceive f =>
    decide (f.port < 16)
  | .pfcRefresh port prio | .pfcPauseExpiry port prio =>
    decide (port < 16 ∧ prio < 8)
  | .transmitRingPoll port queue =>
    decide (port < 16 ∧ queue < 64)
  | .ptpMessage m =>
    decide (m.domain < 2)
  | .announceTimeout domain =>
    decide (domain < 2)
  | .syncTransmit domain port =>
    decide (domain < 2 ∧ port < 16)
  | .triggerEdge trigger =>
    decide (trigger < 5)
  | .captureEdge source _ =>
    decide (source < 256)
  | .fronthaulWindow cell symbol _ _ _ =>
    decide (cell < 256 ∧ symbol < 14)
  | .agcMeasurement cell antenna _ _ =>
    decide (cell < 256 ∧ antenna < 64)
  | .fftIfft engine _ | .map engine _ | .demap engine _ | .ldpcDecode engine _ | .ldpcEncode engine _
  | .polarEncode engine _ | .polarDecode engine _ | .prach engine _ =>
    decide (engine < 36)
  | .eventSourceInput source _ =>
    decide (0 < source ∧ source < 256)
  | .referenceLoss ref | .referenceReturn ref =>
    decide (ref < 3)
  | .clerkWatchdog domain =>
    decide (domain < 20)
  | .stewardWatchdog core =>
    decide (core < 4)
  | .dmaReadCompletion _ fn iova _ =>
    decide (fn < 16 ∧ iova < 2 ^ 64)
  | .dynamicAddressAssignment addr _ =>
    decide (addr < 128)

/-- The command is well formed. -/
abbrev Instr.WellFormed (i : Instr) : Prop := i.wf = true

end Sys2Proof
end

