-- ==== Sys2Proof/Tests/Slice0.lean ====
section
/-! SUPPORT. Small tests: the checks of `wf`, a state and operands that meet the hypotheses of each statement, and worked cases of the spec. -/
namespace Sys2Proof.Tests
open Sys2Proof Sys2Proof.Machine
set_option Elab.async false

/-! ### Builders -/

/-- A parameter string: fields of (bytes, value), little-endian, one after another. -/
def pk (fs : List (Nat × Nat)) : List Byte := fs.flatMap fun f => leBytes f.1 f.2

/-- Granted command 1 of opcode `op` from the physical function, context 0. -/
def cmdFor (op : Nat) (ps : List Byte) : Cmd := { (default : Cmd) with id := 1, entry := .pf, opcode := op, stage := .granted, params := ps }

/-- A T2 object of 64 KiB, and the same with a host home and compressed. -/
def objT2 : Obj := { Obj.init with size := 65536, home := 2, level := 2 }
def objHost : Obj := { Obj.init with size := 65536, home := 4, level := 4, base := 0x10000 }
def objZip : Obj := { Obj.init with size := 65536, home := 2, level := 2, compress := true }

/-- An exclusive region over object 1, exported with remote commands, owned by this node. -/
def region : Export := { (default : Export) with base := 0, length := 4096, key := 7, handle := 1, remoteCmd := true, complete := true, owner := 5 }

/-- An import of node 6's region, which this node owns. -/
def imported : Import := { (default : Import) with node := 6, base := 4096, key := 9, length := 4096, write := true, owner := 5 }

/-- A running frequency-domain cell, and a time-domain one with a head. -/
def cellOf (st : CellState) : Cell := { Cell.init (pk [(1, 0), (1, 0)]) with st := st }

/-- A module in service: start-up complete, link up, every domain on, tenant 0's context 0 live, tenant 1 provisioned, objects 1 to 3, a joined
fabric with one export and one import, the command `c` accepted. -/
def bed (c : Cmd) : State :=
  let s := State.reset
  let t0 := { Tenant.zero .bramble with
    ctxs := [(0, { Ctx.init with st := .live })], objs := [(1, some objT2), (2, some objHost), (3, some objZip)], lastHandle := 3 }
  { s with
    now := 4000000000, nextId := 1, cmds := [c]
    tenants := [(0, t0), (1, { Tenant.init with provisioned := true, contexts := 4, quota := 64, coreMask := 1, heartbeat := 1000, hbStart := some 0, ctxs := [(0, { Ctx.init with st := .live })] })]
    pw := { s.pw with boot := .running, ready := true, perst := false, on := 2 ^ 20 - 1 }
    link := { s.link with up := true, vfEnable := true, numVfs := 15 }
    fabric := { s.fabric with st := 1, fenced := false, node := 5, rank := 0, members := [(5, true), (6, true)], exports := [(0, some region)], imports := [(0, some imported)] } }

/-- Command 1 of opcode `op` with parameters `ps` may start in `s` and passes its own checks. -/
def Starts (s : Cmd → State) (op : Nat) (check : State → Cmd → Option Fail) (ps : List Byte) : Prop :=
  let c := cmdFor op ps
  Ready (s c) op 1 c ∧ check (s c) c = none

/-- An opcode without checks of its own. -/
def noCheck : State → Cmd → Option Fail := fun _ _ => none

/-! ### Commands that may start -/

theorem starts_session : Starts bed 0x0001 noCheck [] ∧ Starts bed 0x0003 noCheck [] ∧ Starts bed 0x0004 noCheck [] ∧ Starts bed 0x0006 noCheck []
    ∧ Starts bed 0x0002 checkCaps (pk [(8, 64)]) := by unfold Starts Ready; decide +kernel
/-- The reference of object `h`, offset 0. -/
def ref (h : Nat) : Nat × Nat := (8, mkRef h)
def zeros (n : Nat) : Nat × Nat := (n, 0)

/-- CELL_CONFIG's parameters for cell `n`: bandwidth 100 MHz, SCS 30 kHz, four antennas, fronthaul split `split`, port 0, a ring of 64 KiB. -/
def cellParams (n split : Nat) : List Byte :=
  pk [(1, n), (1, 0), (1, 1), (1, 100), (1, 4), (1, 4), (1, 0), (1, split), (1, if split = 2 then 0 else 9), (1, 0), (1, 0), (1, 0), (2, 5), (2, 0),
    (6, 1), (2, 0), (8, 0x100000), (4, 65536), (2, 0), (2, 0), (2, 0), (14, 0)]

/-- The bed with cell 0 in state `st` on port 0, which is up, and head where it has one. -/
def radioBed (st : CellState) (split : Nat) (c : Cmd) : State :=
  let s := bed c
  { s with
    cells := [(0, some { Cell.init (cellParams 0 split) with st := st })]
    eth := [(0, { SubPort.init with link := 2, enabled := true })] }
def plainRadioBed : Cmd → State := radioBed .configured 0

/-- The bed with a serving configuration in context 0. -/
def servingBed (c : Cmd) : State :=
  let s := bed c
  let cfg : Serving :=
    { program := mkRef 1, programBytes := 32, budget := 16, chunk := 16, batch := mkRef 1, rowMask := 0, kvRows := 0, logits := mkRef 1, vocab := 16,
      maxLen := 64, pages := 16, maxSeqs := 4, watchdog := 0 }
  s.setCtx 0 0 { s.ctx 0 0 with serving := some cfg }

/-- A whole packet of the NOP kind of length: header, parameters up to the seal word, seal at stream position `pos`. -/
def packetBytes (op flags tag ctx : Nat) (body : List Byte) (lap : Nat) : List Byte :=
  let bs := pk [(2, op), (1, 0x10), (1, flags), (2, (body.length + 24) / 16), (2, tag), (2, ctx), (6, 0)] ++ body ++ pk [(2, tag), (2, lap)]
  bs ++ leBytes 4 (crc32c bs)

/-- The bed with a step program in object 1: one NOP packet. -/
def programBed (c : Cmd) : State :=
  (bed c).setObj 0 1 (some { objT2 with store := Memory.writeN [] 0 (packetBytes 0x0004 0 0 0 (leBytes 8 0) 0) })

/-- The bed with domain 0 locked. -/
def lockedBed (c : Cmd) : State :=
  let s := bed c
  s.setDom 0 { s.dom 0 with st := 2, heard := 3000000000 }

/-- The bed detached from every partition. -/
def detachedBed (c : Cmd) : State := { bed c with fabric := Fabric.init }

/-- The bed with a staged and verified image. -/
def stagedBed (c : Cmd) : State := let s := bed c; { s with st := { s.st with staged := 2, owner := none } }

/-- The bed with object 1 holding the header of a record ring. -/
def ringBed (c : Cmd) : State :=
  let s := bed c
  s.setObj 0 1 (some { objT2 with store := Memory.writeN [] 0 (pk [(8, 64), (8, 64), (1, 1), (1, 1), (2, 0x10)]) })

/-! ### Commands outside their operands' ranges -/

/-! One command out of range for each check of `wf`. -/

theorem test_illformed_1 :
    ∀ i ∈ ([.windowWrite 16 0 [] false, .windowWrite 0 65536 [0] false, .packetAccept 16, .counterLoRead (2 ^ 32), .mcCtlClear 64, .veAdd 64 0, .dpCtlClear 2,
   .scCtlClear 128, .scMov 128 0, .scClCtlClear 8, .scProgramWindowWrite 8 0 0, .scProgramWindowWrite 0 16384 0, .tmCtlClear 16, .evClaim 12,
   .slotBoundary 256, .servingStep 16 0] : List Instr), i.wf = false := by
  decide +kernel
theorem test_illformed_2 :
    let p : FabPkt := { (default : FabPkt) with src := 65536 }
    let o : FabPkt := { (default : FabPkt) with offset := 2 ^ 48 }
    ∀ i ∈ ([.servingStep 0 64, .heartbeatExpiry 16, .cooperRoundTimeout 8, .raiseComplete 16 1, .raiseComplete 0 0, .raiseComplete 0 (2 ^ 32), .trackerRetire 16 0,
   .trackerRetire 0 16, .fabricLoad p, .fabricStore o, .homeEntryAdmit 8, .acknowledgement 65536 0 0, .acknowledgement 0 (2 ^ 32) 0, .ownerChange default 65536,
   .ownerChange p 0, .ownerChange o 0] : List Instr), i.wf = false := by
  decide +kernel
theorem test_illformed_3 :
    let p : FabPkt := { (default : FabPkt) with src := 65536 }
    let o : FabPkt := { (default : FabPkt) with offset := 2 ^ 48 }
    ∀ i ∈ ([.ownerNotice p 0 0 0, .ownerNotice default (2 ^ 48) 0 0, .ownerNotice default 0 (2 ^ 32) 0, .ownerNotice default 0 0 65536, .writeBackRequest p 0,
   .writeBackRequest default (2 ^ 48), .receiveSignal p 0 0, .receiveSignal o 0 0, .receiveSignal default 4096 0, .resend 65536, .portRetrain 8, .barrierArmSignal 16 0,
   .barrierArmSignal 0 8, .barrierFire 16, .ethernetFrameReceive { (default : EthFrame) with port := 16 }, .pfcRefresh 16 0] : List Instr), i.wf = false := by
  decide +kernel
theorem test_illformed_4 :
    ∀ i ∈ ([.pfcRefresh 0 8, .transmitRingPoll 16 0, .transmitRingPoll 0 64, .ptpMessage { (default : PtpMsg) with domain := 2 }, .announceTimeout 2, .syncTransmit 2 0,
   .syncTransmit 0 16, .triggerEdge 5, .captureEdge 256 true, .fronthaulWindow 256 0 true true true, .fronthaulWindow 0 14 true true true,
   .agcMeasurement 256 0 0 true, .agcMeasurement 0 64 0 true, .fftIfft 36 default, .eventSourceInput 0 true, .eventSourceInput 256 true] : List Instr), i.wf = false := by
  decide +kernel
theorem test_illformed_5 :
    ∀ i ∈ ([.referenceLoss 3, .clerkWatchdog 20, .stewardWatchdog 4, .dmaReadCompletion 0 16 0 default, .dmaReadCompletion 0 0 (2 ^ 64) default,
   .dynamicAddressAssignment 128 true] : List Instr), i.wf = false := by
  decide +kernel
/-- The same commands at the ends of their ranges are well formed. -/
theorem test_wellformed : (Instr.windowWrite 15 65535 [0] false).wf = true ∧ (Instr.mcCtlClear 63).wf = true ∧ (Instr.scMov 127 0).wf = true
    ∧ (Instr.evClaim 11).wf = true ∧ (Instr.slotBoundary 255).wf = true ∧ (Instr.servingStep 15 63).wf = true ∧ (Instr.stewardWatchdog 3).wf = true
    ∧ (Instr.moduleReset).wf = true := by decide +kernel

/-! ### States and operands that meet the hypotheses of each statement -/

/-! ### States and operands that meet the hypotheses of the statements, one theorem for each statement (Ready and the checks of the opcodes: `starts_…` below) -/

theorem meets_StepRunsFront : { State.reset with pending := [.evCtlClear] }.pending = [.evCtlClear] := rfl
theorem meets_EmptyQueueTicks : State.reset.pending = [] := rfl
theorem meets_ExecKeepsQueueAndVariant : ∃ t, exec .resetTrip (bed default) = .next t := ⟨_, rfl⟩
theorem meets_FlashCountersRise : ∃ t, step { bed default with pending := [.resetTrip] } = .next t := ⟨_, rfl⟩
theorem meets_SigIndexBounded : { State.reset with st := { Steward.init with sigIndex := 2 ^ 20 } }.st.sigIndex ≤ 2 ^ 20 ∧ ∃ t, step State.reset = .next t :=
  ⟨by decide +kernel, _, rfl⟩
theorem meets_MemoriesAndFieldsReadBack :
      Memory.wf (Memory.writeN [] 0 [1, 2]) = true
    ∧ (0 < [1#8, 2#8].length)
    ∧ (2 < 0 ∨ 0 + [1#8, 2#8].length ≤ 2) := by
  decide +kernel

theorem meets_CountersSaturateAndClear :
      NMap.wf 0 (State.reset.bump 0x09000000 (2 ^ 64)).ctr = true ∧ 0x09000008 ≠ 0x09000000 := by
  decide +kernel

theorem meets_ReplyRecordFields :
    let r : Reply := { tag := 0xFFFF, status := 0xFFFF, ctx := 0xFFFF, final := true, origin := true, step := 0xFFFF, result := List.replicate 16 0xFF }
    r.tag < 2 ^ 16 ∧ r.status < 2 ^ 16 ∧ r.ctx < 2 ^ 16 ∧ 0xFFFF < 2 ^ 16 ∧ r.step < 2 ^ 16 ∧ r.result.length ≤ 16 := by decide +kernel
theorem meets_PacketFieldsReadBack :
      0x1001 < 2 ^ 16
    ∧ lenVaries 0x1001 = false
    ∧ 255 < 2 ^ 8
    ∧ 0xFFFF < 2 ^ 16
    ∧ (List.replicate 255 1).length < 2 ^ 8
    ∧ (∀ k ∈ List.replicate 255 1 ++ [2 ^ 32 - 1], k < 2 ^ 32)
    ∧ (List.replicate 32 0xFF#8).length = paramLen 0x1001 .pf := by
  decide +kernel

/-- A finished command, and one of the management port. -/
def ended : Cmd := { cmdFor 4 [] with stage := .done }
def managed : Cmd := { cmdFor 4 [] with entry := .mgmt }
theorem meets_CommandsEndOnce :
      (bed ended).cmd? 1 = some ended
    ∧ ended.stage = .done
    ∧ (bed (cmdFor 4 [])).cmd? 1 = some (cmdFor 4 [])
    ∧ (cmdFor 4 []).stage ≠ .done
    ∧ (cmdFor 4 []).entry ≠ .mgmt
    ∧ (bed managed).cmd? 1 = some managed
    ∧ managed.stage ≠ .done
    ∧ managed.entry = .mgmt := by
  decide +kernel

/-- The bed with its reply ring enabled, empty; with `k` records held; with the host away. -/
def ringOpen (k : Nat) : State := let s := bed default; s.setFn 0 { s.fn 0 with enable := true, held := List.replicate k default }
def hostAway : State := let s := bed default; { s with link := { s.link with up := false, lostAt := some 4000000000 } }
theorem meets_RecordsAreWrittenHeldOrDropped :
      hostAway.hostGone = true
    ∧ (bed default |>.tenant 15).provisioned = false
    ∧ (ringOpen 0).hostGone = false
    ∧ (∀ b ∈ [true, false], { (default : Reply) with origin := b }.origin = b)
    ∧ ((ringOpen 0).tenant 0).provisioned = true
    ∧ ((ringOpen 0).fn 0).held = []
    ∧ ((ringOpen 0).fn 0).ringBlocked = false
    ∧ ((ringOpen 1).fn 0).held ≠ []
    ∧ ((ringOpen 255).fn 0).held.length < 256
    ∧ ((bed default).fn 0).ringBlocked = true
    ∧ ((ringOpen 256).fn 0).held.length ≥ 256 := by
  decide +kernel

theorem meets_RingsAndHeldRecords :
      15 < 16
    ∧ ((bed default).fn 0).ringSize < (((bed default).fn 0).tail + 2 ^ 17 - (1#32).toNat % 2 ^ 17) % 2 ^ 17
    ∧ (((bed default).fn 0).tail + 2 ^ 17 - (0#32).toNat % 2 ^ 17) % 2 ^ 17 ≤ ((bed default).fn 0).ringSize
    ∧ (let s := (ringOpen 0).setFn 0 { (ringOpen 0).fn 0 with sinceIrq := 1 }
       0 < (s.fn 0).sinceIrq ∧ s.now ≥ (s.fn 0).oldestAt + 4000 * (s.fn 0).modTime)
    ∧ ((ringOpen 0).fn 0).held = []
    ∧ ((bed default).fn 0).ringBlocked = true
    ∧ ((ringOpen 1).fn 0).held = default :: []
    ∧ ((ringOpen 1).fn 0).ringBlocked = false := by
  decide +kernel

/-- A NOP packet, and the bed whose window holds it submitted, or written and not yet evaluated. -/
def nopPacket : List Byte := packetBytes 4 0 9 0 (leBytes 8 0) 0
def submittedBed : State :=
  let s := bed default
  { s.setFn 0 { s.fn 0 with submitted := [{ bytes := nopPacket, pos := 0, bad := false }], expect := 32, window := Memory.writeN [] 0 nopPacket } with cmds := [] }
def writtenBed (bs : List Byte) (touch : Bool) : State :=
  let s := bed default
  let all : NMap Bool := (List.range bs.length).map fun i => (i, true)
  s.setFn 0 { s.fn 0 with window := Memory.writeN [] 0 bs, written := all, touched := if touch then all else [] }
theorem meets_WindowWriteLands :
    (let s := bed default
     ¬ ((s.tenant 15).provisioned = true)
     ∧ ((s.tenant 0).provisioned = true ∧ (s.fn 0).halted = false ∧ (s.fn 0).ready = true ∧ 65535 + [1#8].length ≤ 65536 ∧ [1#8] ≠ [] ∧ s.pw.ready = true)
     ∧ (∀ i, i < [1#8].length → (s.fn 0).holds (65535 + i) = false))
    ∧ (let s := submittedBed
       ((s.tenant 0).provisioned = true ∧ (s.fn 0).halted = false ∧ (s.fn 0).ready = true ∧ 31 + [1#8].length ≤ 65536 ∧ [1#8] ≠ [] ∧ s.pw.ready = true)
       ∧ ∃ i, i < [1#8].length ∧ (s.fn 0).holds (31 + i) = true) := by
  refine ⟨by decide +kernel, by decide +kernel, 0, by decide +kernel⟩
theorem meets_PacketEvaluation :
      (let f := (writtenBed (List.replicate 16 0#8) true).fn 0
     f.halted = false ∧ allIn f.written f.expect 16 = true ∧ 16 * fieldAt (f.stream f.expect 16) 4 2 < 32)
    ∧ (let f := (writtenBed nopPacket false).fn 0
       f.halted = false ∧ allIn f.written f.expect 16 = true ∧ 32 ≤ 16 * fieldAt (f.stream f.expect 16) 4 2 ∧ 16 * fieldAt (f.stream f.expect 16) 4 2 ≤ 4096
       ∧ anyIn f.touched (f.expect + 16 * fieldAt (f.stream f.expect 16) 4 2 - 8) 8 = false) := by
  decide +kernel
theorem meets_PacketEvaluation_2 :
      (let f := (writtenBed nopPacket true).fn 0
       let len := 16 * fieldAt (f.stream f.expect 16) 4 2
       f.halted = false ∧ allIn f.written f.expect 16 = true ∧ anyIn f.touched (f.expect + len - 8) 8 = true
       ∧ sealOk (f.stream f.expect len) (f.expect + len - 8) = true ∧ anyIn f.poisoned f.expect len = false)
    ∧ (let f := (writtenBed (nopPacket.take 31 ++ [0]) true).fn 0
       let len := 16 * fieldAt (f.stream f.expect 16) 4 2
       anyIn f.touched (f.expect + len - 8) 8 = true ∧ sealOk (f.stream f.expect len) (f.expect + len - 8) = false) := by
  decide +kernel

theorem meets_Resynchronisation :
      ((bed default).fn 15).submitted = [] ∧ (submittedBed.fn 0).submitted ≠ [] := by
  decide +kernel

theorem meets_PacketAccept :
      State.reset.pw.ready = false
    ∧ ((bed default).tenant 15).provisioned = false
    ∧ (let s := submittedBed
       let f := (s.fn 0).skipBad
       s.pw.ready = true ∧ (s.tenant 0).provisioned = true ∧ s.stalled 0 = false ∧ f.submitted = [{ bytes := nopPacket, pos := 0, bad := false }] ∧ f.resync = false
       ∧ packetChecks s (s.fn 0).version nopPacket (s.stamp (parseCmd nopPacket (windowEntry 0) 0)) opReserved (fun s c => replayBars s c <|> opCheck nopPacket s c) = none
       ∧ packetChecks s 0x11 nopPacket (s.stamp (parseCmd nopPacket (windowEntry 0) 0)) opReserved (opCheck nopPacket) = some (stVersion, [])) := by
  decide +kernel

theorem meets_CheckOrder :
    let good (op : Nat) (bs : List Byte) (e : Entry) : Cmd := { parseCmd bs e 0 with opcode := op }
    (¬ ((good 4 nopPacket .pf).opcode = 1 ∨ fieldAt nopPacket 2 1 = 0x11))
    ∧ (fieldAt nopPacket 2 1 = 0x10 ∧ opDefined 0x0004 0x10 = true ∧ entryAllowed 4 .pf = true ∧ lengthOk nopPacket .pf = true
       ∧ headerReserved nopPacket (good 4 nopPacket .pf) = true ∧ unitAbsent .bramble (good 4 nopPacket .pf) = false
       ∧ (bed default).contextCheck 4 0 0 = none ∧ ((bed default).contextCheck 4 0 1).isSome = true)
    ∧ opDefined 0xF000 0x10 = false ∧ entryAllowed 0xE001 .vf = false ∧ lengthOk (nopPacket ++ nopPacket) .pf = false
    ∧ headerReserved (nopPacket.take 12 ++ [1] ++ nopPacket.drop 13) (good 4 nopPacket .pf) = false ∧ unitAbsent .damson (good 0x5001 nopPacket .pf) = true := by
  decide +kernel

/-- A management packet, a remote BARRIER_ARM through the region of the bed, and the bed with no command. -/
def mgmtPacket : List Byte := packetBytes 0x6005 0 9 0 (leBytes 8 0) 0
def quiet : State := { bed default with cmds := [] }
def remoteArm : RemotePkt := { src := 6, offset := 0, key := 7, bytes := packetBytes 0x3004 0 9 0 (leBytes 24 0) 0, port := 8 }

theorem meets_OtherEntries :
      State.reset.pw.boot = .reset
    ∧ ({ State.reset with pw := { Power.init with boot := .starting } }.pw.boot = .starting)
    ∧ (quiet.pw.boot = .running ∧ mgmtPacket.length % 16 = 0 ∧ 32 ≤ mgmtPacket.length ∧ mgmtPacket.length ≤ 4096
       ∧ sealOk mgmtPacket 0 = true
       ∧ packetChecks quiet quiet.mgmtVersion mgmtPacket { quiet.stamp (parseCmd mgmtPacket .mgmt 0) with stage := Stage.granted } opReserved (opCheck mgmtPacket) = none)
    ∧ (detachedBed default).fabric.st = 0 := by
  decide +kernel
theorem meets_OtherEntries_2 :
      (let t := quiet.freeIngress 8 3 (1 + ceilDiv remoteArm.bytes.length 32)
       quiet.variant.fabric = true ∧ quiet.fabric.st ≠ 0 ∧ NMap.get false t.fabric.members 7 = false ∧ NMap.get false t.fabric.members 6 = true
       ∧ fieldAt remoteArm.bytes 0 2 ≠ 0x4020 ∧ t.fabric.st ≠ 3)
    ∧ (let s := { quiet with fabric := { quiet.fabric with st := 3 } }
       NMap.get false (s.freeIngress 8 3 (1 + ceilDiv remoteArm.bytes.length 32)).fabric.members 6 = true
       ∧ (s.freeIngress 8 3 (1 + ceilDiv remoteArm.bytes.length 32)).fabric.st = 3) := by
  decide +kernel
theorem meets_OtherEntries_3 :
      (let p : FabPkt := { src := 6, epoch := 0, seq := 0, offset := 0, key := 7, size := 0, enable := 0, data := [], poison := false, ownEpoch := 0, port := 8 }
       let quiet := quiet.freeIngress 8 3 (1 + ceilDiv remoteArm.bytes.length 32)
       quiet.regionFor { p with key := 8 } 0 = none ∧ quiet.regionFor p 0 = some (0, region) ∧ region.complete = true ∧ region.revoking = none ∧ region.remoteCmd = true
       ∧ (let c := quiet.stamp { parseCmd remoteArm.bytes .remote region.tenant with ctx := region.ctx }
          packetChecks quiet 0x10 remoteArm.bytes c opReserved (opCheck remoteArm.bytes) = none ∧ c.opcode ≠ 0x3001))
    ∧ (quiet.ctx 0 0).replaying = none := by
  decide +kernel
theorem meets_OtherEntries_4 :
      (let r : Replaying := { ring := mkRef 1, sendRemote := false, id := 1, next := 64, fed := 64, total := 64 }
       let s := quiet.setCtx 0 0 { quiet.ctx 0 0 with replaying := some r }
       (s.ctx 0 0).replaying = some r ∧ r.total ≤ r.fed) := by
  decide +kernel

theorem meets_ClearingCounters :
      BlockUp quiet (.mc 63)
    ∧ BlockUp quiet (.ve 63)
    ∧ BlockUp quiet (.dp 1)
    ∧ BlockUp quiet .wf
    ∧ quiet.clusterOn (127 / 16) = true
    ∧ quiet.clusterOn 7 = true
    ∧ quiet.pw.on.testBit 14 = true
    ∧ BlockUp quiet (.tm 0)
    ∧ ¬ BlockUp State.reset (.mc 63)
    ∧ ¬ BlockUp State.reset (.ve 63)
    ∧ ¬ BlockUp { State.reset with variant := .sloe } (.dp 1)
    ∧ ¬ BlockUp { State.reset with variant := .sloe } .wf
    ∧ State.reset.clusterOn 7 = false
    ∧ State.reset.pw.on.testBit 14 = false
    ∧ ¬ BlockUp { State.reset with variant := .sloe } (.tm 15) := by
  unfold BlockUp; decide +kernel

theorem meets_CounterCapture :
      BlockUp quiet (blockOf (aMC 63 0x10)).1
    ∧ regWord (aMC 63 0x10) = .ctrLo
    ∧ regWord (aMC 63 0x14) = .ctrHi
    ∧ blockAbsent Variant.sloe (blockOf (aWF 0x18)).1 = true := by
  unfold BlockUp; decide +kernel

theorem meets_SignalClusterRegisters :
      quiet.clusterOn 7 = true
    ∧ quiet.anyStarted = false
    ∧ State.reset.clusterOn 7 = false
    ∧ (plainRadioBed default).anyStarted = false
    ∧ (radioBed .running 0 default).anyStarted = true
    ∧ 16383 < 16384
    ∧ (quiet.setCluster 7 { quiet.cluster 7 with halt := true }).clusterHalted 7 = true
    ∧ quiet.clusterHalted 7 = false
    ∧ quiet.clusterOn (127 / 16) = true := by
  decide +kernel

theorem meets_RegisterAccess :
      BlockUp quiet (blockOf 0x09002000).1
    ∧ 0x09002001 % 4 ≠ 0
    ∧ ¬ BlockUp State.reset (blockOf (aMC 0 0)).1
    ∧ 15 < 16
    ∧ 11 < 12
    ∧ Starts bed 0xE004 checkRegRead (pk [(4, 0x01000000), (1, 4)])
    ∧ Starts bed 0xE005 checkRegWrite (pk [(4, 0x09002000), (4, 3)]) := by
  unfold Starts Ready BlockUp; decide +kernel

/-- The bed with source `n` of the event controller in state `x`. -/
def eventBed (n : Nat) (x : Source) : State := quiet.setSrc n x
theorem meets_ClaimIsHighestPriority :
    let s := eventBed 255 { Source.init with pending := true, mask := 1, prio := 7, input := true }
    quiet.offered 0 0 = false ∧ (∀ n, n < 256 → quiet.offered 0 n = false) ∧ s.offered 0 0 = false ∧ 255 < 256 ∧ s.offered 0 255 = true := by decide +kernel
theorem meets_EventController :
      (∃ n < 256, sourcePresent .bramble n = true ∧ sourceLevel n = false)
    ∧ (∃ n < 256, sourcePresent .bramble n = true ∧ sourceLevel n = true
        ∧ (quiet.src n).owner = none ∧ ((eventBed n { Source.init with owner := some 0 }).src n).owner ≠ none)
    ∧ (∃ n < 256, sourcePresent .bramble n = false)
    ∧ (eventBed 255 { Source.init with pending := true, mask := 0x800, prio := 7 }).claimable 11 ≠ 0
    ∧ quiet.claimable 11 = 0
    ∧ (∃ n < 256, n % 256 ≠ 0 ∧ sourceLevel n = false ∧ ((eventBed n { Source.init with owner := some 11 }).src n).owner = some 11)
    ∧ (∃ n < 256, n % 256 ≠ 0 ∧ sourceLevel n = true ∧ ((eventBed n { Source.init with owner := some 11 }).src n).owner = some 11)
    ∧ (quiet.src 255).owner ≠ some 11 := by
  decide +kernel
theorem meets_EventController_2 :
      (let s := eventBed 255 { Source.init with pending := true, owner := some 0, mask := 0x800, prio := 7 }
       NMap.wf Source.init s.ev.src = true ∧ (s.src 255).owner ≠ none ∧ (s.src 255).pending = true ∧ (s.src 255).mask.testBit 11 = true
       ∧ s.threshold 11 ≤ (s.src 255).prio ∧ s.ev.disable = false) := by
  decide +kernel

theorem meets_SessionOpcodes :
      Starts bed 0x0001 noCheck []
    ∧ Starts bed 0x0003 noCheck []
    ∧ Starts bed 0x0004 noCheck []
    ∧ Starts bed 0x0002 checkCaps (pk [(8, 64)])
    ∧ Ready (bed { cmdFor 2 [] with entry := .mgmt }) 2 1 { cmdFor 2 [] with entry := .mgmt } := by
  unfold Starts Ready; decide +kernel

theorem meets_ContextOpen :
      Starts bed 0x0005 checkContextOpen (pk [(1, 0xFF)])
    ∧ Starts bed 0x0005 checkContextOpen (pk [(1, 63), (1, 7)]) := by
  unfold Starts Ready; decide +kernel

/-- CONTEXT_CLOSE, and a CONTEXT_RESET that waits, as command 2 with an earlier command 1 of the context, or alone. -/
def closing (st : Stage) (op : Nat) : Cmd := { cmdFor op [] with id := 2, stage := st }
def closeBed (st : Stage) (op : Nat) (alone : Bool) : State :=
  { bed default with cmds := (if alone then [] else [cmdFor 4 []]) ++ [closing st op] }
theorem meets_ContextEnds :
      Ready (closeBed .granted 6 false) 6 2 (closing .granted 6)
    ∧ (let s := closeBed .granted 6 false; let c := closing .granted 6
       ((Begun s c).setCmd { begun s c with stage := .waiting }).earlier (begun s c) = true)
    ∧ Ready (closeBed .granted 6 true) 6 2 (closing .granted 6)
    ∧ (let s := closeBed .granted 6 true; let c := closing .granted 6
       ((Begun s c).setCmd { begun s c with stage := .waiting }).earlier (begun s c) = false)
    ∧ ((closeBed .waiting 7 false).cmd? 2 = some (closing .waiting 7) ∧ (closeBed .waiting 7 false).earlier (closing .waiting 7) = true)
    ∧ ((closeBed .waiting 7 true).cmd? 2 = some (closing .waiting 7) ∧ (closeBed .waiting 7 true).earlier (closing .waiting 7) = false) := by
  unfold Ready; decide +kernel
theorem meets_ContextEnds_2 :
      (let s := bed (cmdFor 6 [])
       ∃ d ∈ (s.endUnstarted 0 0).cmds, d.tenant = 0 ∧ d.ctx = 0 ∧ scopeC d.opcode = true ∧ d.unstarted = true)
    ∧ (quiet.ctx 0 0).st = .live
    ∧ (∀ d ∈ quiet.cmds, d.tenant = 0 → d.ctx = 0 → d.opcode = 7 → d.stage = .done)
    ∧ (quiet.ctx 0 63).st = .closed
    ∧ ((quiet.setCtx 0 0 { Ctx.init with st := .closing }).ctx 0 0).st = .closing
    ∧ ((quiet.setCtx 0 0 { Ctx.init with st := .dead }).ctx 0 0).st = .dead := by
  decide +kernel

theorem meets_TenantsAndHeartbeats :
      Starts bed 0xE007 checkTenantProvision (pk [(1, 2), (1, 0), (1, 64), (1, 6), (4, 64), (8, 1)])
    ∧ Starts bed 0xE007 checkTenantProvision (pk [(1, 1), (1, 1), (1, 64), (1, 6), (4, 64), (8, 1)])
    ∧ Starts bed 0xE007 checkTenantProvision (pk [(1, 1), (1, 2)])
    ∧ (let x := quiet.tenant 1
       x.provisioned = true ∧ 0 < x.heartbeat ∧ x.hbStart = some 0 ∧ 0 + msec x.heartbeat ≤ quiet.now / msec 1 * msec 1)
    ∧ ¬ (0 < (quiet.tenant 0).heartbeat) := by
  unfold Starts Ready; decide +kernel

theorem meets_HostLoss :
      hostAway.link.lostAt.isSome = true ∧ quiet.link.lostAt = none := by
  decide +kernel

/-- The bed with PERST# asserted. -/
def perstBed : State := { quiet with pw := { quiet.pw with perst := true } }
theorem meets_HostLinkEvents :
      quiet.link.up = true
    ∧ hostAway.link.up = false
    ∧ quiet.pw.perst = false
    ∧ perstBed.pw.perst = true
    ∧ (quiet.vfExists 15 = true ∧ quiet.link.up = true)
    ∧ ¬ (quiet.vfExists 16 = true ∧ quiet.link.up = true)
    ∧ (let s := { hostAway with now := 12000000000 }
       s.link.lostAt = some 4000000000 ∧ 4000000000 + msec (min 60000 s.link.holdoverMs) ≤ s.now)
    ∧ (hostAway.link.lostAt = some 4000000000 ∧ hostAway.now < 4000000000 + msec (min 60000 hostAway.link.holdoverMs) ∧ hostAway.pw.perst = false)
    ∧ (quiet.link.lostAt = none ∨ quiet.pw.perst = true) := by
  decide +kernel

theorem meets_HostRequestsAndReads :
      State.reset.pw.ready = false
    ∧ quiet.pw.ready = true
    ∧ (let s := { quiet with link := { quiet.link with vfEnable := false } }
       s.pw.ready = true ∧ s.link.vfEnable = false ∧ 15 ≤ 15)
    ∧ quiet.link.vfEnable = true
    ∧ quiet.pw.boot ≠ .reset
    ∧ 127 < 128
    ∧ State.reset.pw.boot = .reset
    ∧ quiet.link.up = true
    ∧ 15 < 16
    ∧ hostAway.link.up = false := by
  decide +kernel

theorem meets_ModuleResetKeepsTheFlash :
      quiet.pw.boot ≠ .reset
    ∧ quiet.variant.west = true
    ∧ { quiet with variant := .sloe }.variant.west = false
    ∧ State.reset.pw.boot = .reset
    ∧ (let s := { quiet with pw := { quiet.pw with resetAt := some quiet.now } }
       s.pw.resetAt = some quiet.now ∧ quiet.now ≤ s.now)
    ∧ (let s := { quiet with pw := { quiet.pw with resetAt := some (quiet.now + 1) } }
       s.pw.resetAt = some (quiet.now + 1) ∧ s.now < quiet.now + 1) := by
  decide +kernel

/-- A good observation at input-valid, and reset with slot `a` active, slot `k` alone bootable. -/
def goodInput : BootObs := { (default : BootObs) with recordOk := true }
def slotsBed (a : Nat) (x y : Bool) : State :=
  { State.reset with st := { Steward.init with active := a, slots := #v[{ FwSlot.init with sound := x }, { FwSlot.init with sound := y }] } }
def startingBed : State := { State.reset with pw := { Power.init with boot := .starting } }
theorem meets_StartUp :
      State.reset.pw.boot = .reset
    ∧ State.reset.bootable State.reset.st.active = true
    ∧ goodInput.recordOk = true
    ∧ ((slotsBed 1 true false).bootable 1 = false ∧ (slotsBed 1 true false).bootable (1 - 1) = true ∧ (slotsBed 1 true false).st.active < 2)
    ∧ ((slotsBed 0 false false).bootable 0 = false ∧ (slotsBed 0 false false).bootable 1 = false)
    ∧ quiet.pw.boot ≠ .reset
    ∧ startingBed.pw.boot = .starting
    ∧ quiet.pw.boot ≠ .starting
    ∧ (quiet.pw.boot = .running ∧ quiet.pw.perst = false ∧ quiet.pw.validAt + msec 180 ≤ quiet.now ∧ quiet.pw.perstAt + msec 100 ≤ quiet.now
       ∧ quiet.pw.refLost.testBit 0 = false)
    ∧ ¬ (State.reset.pw.boot = .running) := by
  decide +kernel

/-- The bed in a brown-out episode that began at time `t`. -/
def brownBed (t : Nat) : State := { quiet with pw := { quiet.pw with brown := some (t, 3700) } }
theorem meets_BrownoutMeasurementReferences :
      quiet.pw.boot = .running
    ∧ quiet.pw.brown = none
    ∧ (brownBed 0).pw.brown = some (0, 3700)
    ∧ startingBed.pw.boot = .starting
    ∧ (brownBed (quiet.now - msec 2)).pw.brown = some (quiet.now - msec 2, 3700)
    ∧ quiet.now - msec 2 + msec 2 ≤ (brownBed (quiet.now - msec 2)).now
    ∧ ((brownBed (quiet.now - msec 2 + 1)).pw.brown = some (quiet.now - msec 2 + 1, 3700) ∧ quiet.now < quiet.now - msec 2 + 1 + msec 2)
    ∧ (let s := { quiet with pw := { quiet.pw with cap := 400 } }
       s.pw.boot = .running ∧ s.pw.cap ≠ 0 ∧ s.pw.cap < 401)
    ∧ State.reset.pw.boot ≠ .running
    ∧ 3 ≤ 3
    ∧ quiet.pw.refLost.testBit 0 = false
    ∧ quiet.link.up = true
    ∧ quiet.pw.refLost.testBit 1 = false
    ∧ quiet.pw.refLost.testBit 2 = false
    ∧ quiet.sx.out ≠ 1 := by
  decide +kernel
theorem meets_BrownoutMeasurementReferences_2 :
      ({ quiet with pw := { quiet.pw with refLost := 7 } }.pw.refLost.testBit 2 = true) := by
  decide +kernel

/-- POWER_POLICY that switches, and the bed with that switch in progress. -/
def switchingBed : State := { quiet with pw := { quiet.pw with switching := some (1, 2 ^ 20 - 1 - 2 ^ 7) } }
theorem meets_PowerPolicy :
      Starts detachedBed 0xE006 checkPowerPolicy (pk [(1, 0), (3, 0), (4, 0), (4, 2 ^ 15)])
    ∧ (bed (cmdFor 0xE006 [])).earlierOf [0xE006] 1 = false
    ∧ Starts bed 0xE006 checkPowerPolicy (pk [(1, 1)])
    ∧ Starts bed 0xE006 checkPowerPolicy (pk [(1, 2), (3, 0), (4, 0), (4, 0), (2, 400)])
    ∧ Starts bed 0xE006 checkPowerPolicy (pk [(1, 3)])
    ∧ ({ quiet with cmds := [cmdFor 0xE006 [], { cmdFor 0xE006 [] with id := 2 }] }.earlierOf [0xE006] 2 = true)
    ∧ quiet.pw.switching = none
    ∧ switchingBed.pw.switching = some (1, 2 ^ 20 - 1 - 2 ^ 7)
    ∧ (∀ k, k < 64 → (switchingBed.core k).running = none)
    ∧ switchingBed.radioHolds (startOrder.reverse.filter fun d => switchingBed.pw.on.testBit d && !(2 ^ 20 - 1 - 2 ^ 7).testBit d) = false := by
  unfold Starts Ready; decide +kernel

theorem meets_Firmware :
      Starts bed 0xE001 checkFwStage (pk [(8, 0), (4, 0), (4, 16), (1, 1)])
    ∧ (bed (cmdFor 0xE001 [])).earlierOf [0xE001, 0xE002] 1 = false
    ∧ Starts bed 0xE001 checkFwStage (pk [(8, 0), (4, 100659200), (4, 4096), (1, 3)])
    ∧ Starts stagedBed 0xE002 checkFwActivate (pk [(1, 0)])
    ∧ Starts stagedBed 0xE002 checkFwActivate (pk [(1, 1)])
    ∧ (stagedBed (cmdFor 0xE002 [])).pw.switching = none
    ∧ (stagedBed (cmdFor 0xE002 [])).activating = false
    ∧ hotPath (stagedBed (cmdFor 0xE002 [])) (cmdFor 0xE002 []) = false
    ∧ (let s := { quiet with st := { quiet.st with hot := some (1, quiet.now - msec 200) } }
       s.st.hot = some (1, quiet.now - msec 200) ∧ s.now ≤ quiet.now - msec 200 + msec 200 ∧ quiet.now - msec 200 + msec 200 ≤ s.now) := by
  unfold Starts Ready; decide +kernel
theorem meets_Firmware_2 :
      quiet.st.hot = none := by
  decide +kernel

theorem meets_Attestation :
      Starts bed 0xE003 checkAttest (pk [(32, 0), (8, 64), (1, 0)])
    ∧ Starts bed 0xE003 checkAttest (pk [(32, 0), (8, 64), (1, 1)])
    ∧ (let c := cmdFor 0xE003 (pk [(32, 0), (8, 64), (1, 0)])
       let s := { bed c with st := { Steward.init with sigIndex := 2 ^ 20 } }
       Ready s 0xE003 1 c ∧ fieldAt c.params 32 8 % 64 = 0 ∧ s.st.sigIndex = 2 ^ 20) := by
  unfold Starts Ready; decide +kernel

/-- The bed with object 2's promotion, move and levels set. -/
def levelBed (f : Obj → Obj) (c : Cmd) : State := (bed c).setObj 0 2 (some (f objHost))

theorem meets_ContextEnds_3 :
      let one (o : Obj) := (quiet.setTenant 0 { quiet.tenant 0 with objs := [] }).setObj 0 2 (some o)
      let held := { objHost with promos := [(0, 2)], level := 2 }
      ((one objHost).tenant 0).objs.map (·.1) = [2] ∧ (one objHost).obj 0 2 = some objHost ∧ NMap.get 0 objHost.promos 0 = 0 ∧ NMap.get 0 objHost.pins 0 = 0
      ∧ ((one held).tenant 0).objs.map (·.1) = [2] ∧ (one held).obj 0 2 = some held ∧ NMap.get 0 held.promos 0 ≠ 0 := by
  decide +kernel

/-- The bed with object 2 in a region that was revoked. -/
def deadBed (c : Cmd) : State :=
  let s := levelBed (fun o => { o with home := 3, level := 3, base := 0 }) c
  { s with fabric := { s.fabric with imports := [(0, some { imported with length := 65536, dead := true })] } }

theorem meets_AllocFreeCopyFill :
      (let c := cmdFor 0x1001 (pk [(8, 4096), (1, 2)]); Ready (bed c) 0x1001 1 c ∧ checkAlloc (bed c) c = none ∧ (allocObj c).home = 2 ∧ (c.p 9 1).testBit 4 = false)
    ∧ (let c := cmdFor 0x1001 (pk [(8, 4096), (1, 4), (1, 0x11), (2, 0), (4, 0), (8, 4096)])
       Ready (bed c) 0x1001 1 c ∧ checkAlloc (bed c) c = none ∧ (c.p 9 1).testBit 4 = true ∧ (allocObj c).home = 4) := by
  unfold Ready; decide +kernel
theorem meets_AllocFreeCopyFill_2 :
      (let c := cmdFor 0x1001 (pk [(8, 4096), (1, 3), (1, 0x11), (2, 0), (4, 0), (8, 0)])
       let s := { bed c with fabric := { (bed c).fabric with imports := [(0, some { imported with length := 65536 })] } }
       let u := { s with fabric := { s.fabric with fenced := true } }
       Ready s 0x1001 1 c ∧ checkAlloc s c = none ∧ (c.p 9 1).testBit 4 = true ∧ (allocObj c).home = 3 ∧ s.fabric.fenced = false
       ∧ NMap.get none s.fabric.imports (allocObj c).imp = some { imported with length := 65536 }
       ∧ Ready u 0x1001 1 c ∧ checkAlloc u c = none ∧ u.fabric.fenced = true) := by
  unfold Ready; decide +kernel
theorem meets_AllocFreeCopyFill_3 :
      (let c := cmdFor 0x1002 (pk [ref 2])
       let w := { begun (bed c) c with stage := Stage.waiting, since := (bed c).now, fence := if freeBehind (Begun (bed c) c) (begun (bed c) c) then [(0, 0)] else [] }
       let b := ((bed c).exportNums c.tenant 2).foldl (fun (s : State) n => s.revokeRegion n c.id) ((Begun (bed c) c).setCmd w)
       Ready (bed c) 0x1002 1 c ∧ checkFree (bed c) c = none ∧ (bed c).behind c = false ∧ freeReady b w = true)
    ∧ (let c := cmdFor 0x1002 (pk [ref 2])
       let s := levelBed (fun o => { o with moving := 1 }) c
       let w := { begun s c with stage := Stage.waiting, since := s.now, fence := if freeBehind (Begun s c) (begun s c) then [(0, 0)] else [] }
       let b := (s.exportNums c.tenant 2).foldl (fun (s : State) n => s.revokeRegion n c.id) ((Begun s c).setCmd w)
       Ready s 0x1002 1 c ∧ checkFree s c = none ∧ s.behind c = false ∧ freeReady b w = false ∧ freeBehind (Begun s c) (begun s c) = freeBehind b w)
    ∧ (let c := { cmdFor 0x1002 (pk [ref 2]) with id := 2 }
       let s := { bed c with cmds := [cmdFor 0x1010 (pk [ref 2, (1, 2)]), c] }
       Ready s 0x1002 2 c ∧ checkFree s c = none ∧ s.behind c = true) := by
  unfold Ready; decide +kernel
theorem meets_AllocFreeCopyFill_4 :
      (let c := cmdFor 0x1003 (pk [ref 1, ref 2, (8, 64)])
       let b := Begun (bed c) c
       let src := takeLines b 1 0 (c.p 0 8) 1 0
       Ready (bed c) 0x1003 1 c ∧ checkCopy (bed c) c = none ∧ Settled runCopy b (begun (bed c) c) ∧ src.2 = none
       ∧ (putLines 0 0 1 (c.p 8 8) c.determinism 0 src.1 (b.bump (aTI 0 0 0x20) (src.1.countP (·.2)))).2 = none)
    ∧ (let c := cmdFor 0x1003 (pk [ref 1, ref 2, (8, 64)])
       let s := deadBed c
       let b := Begun s c
       let src := takeLines b 1 0 (c.p 0 8) 1 0
       Ready s 0x1003 1 c ∧ checkCopy s c = none ∧ Settled runCopy b (begun s c)
       ∧ (putLines 0 0 1 (c.p 8 8) c.determinism 0 src.1 (b.bump (aTI 0 0 0x20) (src.1.countP (·.2)))).2.isSome = true) := by
  unfold Ready Settled; decide +kernel
theorem meets_AllocFreeCopyFill_5 :
      (let c := cmdFor 0x1003 (pk [ref 2, ref 1, (8, 64)])
       let s := { bed c with link := { (bed c).link with up := false, lostAt := some 0 } }
       let b := Begun s c
       let src := takeLines b 1 0 (c.p 0 8) 1 0
       Ready s 0x1003 1 c ∧ checkCopy s c = none ∧ Settled runCopy b (begun s c) ∧ src.2.isSome = true
       ∧ (putLines 0 0 1 (c.p 8 8) c.determinism 0 src.1 (b.bump (aTI 0 0 0x20) (src.1.countP (·.2)))).2 = none)
    ∧ (let c := cmdFor 0x1004 (pk [ref 1, (8, 64), (8, 5)])
       let line := (List.range 8).flatMap fun _ => (c.params.drop 16).take 8
       Ready (bed c) 0x1004 1 c ∧ checkFill (bed c) c = none ∧ Settled runFill (Begun (bed c) c) (begun (bed c) c)
       ∧ (putLines 0 0 1 (c.p 0 8) c.determinism 0 [(line, false)] (Begun (bed c) c)).2 = none) := by
  unfold Ready Settled; decide +kernel
theorem meets_AllocFreeCopyFill_6 :
      (let c := cmdFor 0x1004 (pk [ref 2, (8, 64), (8, 5)])
       let s := deadBed c
       let line := (List.range 8).flatMap fun _ => (c.params.drop 16).take 8
       Ready s 0x1004 1 c ∧ checkFill s c = none ∧ Settled runFill (Begun s c) (begun s c)
       ∧ (putLines 0 0 1 (c.p 0 8) c.determinism 0 [(line, false)] (Begun s c)).2.isSome = true)
    ∧ (let c := cmdFor 0x1003 (pk [ref 2, ref 1, (8, 64)])
       let s := levelBed (fun o => { o with home := 3, level := 3, base := 0 }) c
       let b := Begun s c
       Ready s 0x1003 1 c ∧ checkCopy s c = none ∧ ((runCopy b (begun s c)).asks 1).map (fun f => fieldAt f.2 0 1) = some 0) := by
  unfold Ready Settled; decide +kernel

/-- A command of the tier manager that takes its turn. -/
def Turns (s : Cmd → State) (op : Nat) (check : State → Cmd → Option Fail) (ps : List Byte) : Prop :=
  Starts s op check ps ∧ (s (cmdFor op ps)).behind (cmdFor op ps) = false
theorem meets_LevelsAndTiers :
      Turns bed 0x1010 checkPromote (pk [ref 2, (1, 2)])
    ∧ Turns bed 0x1010 checkPromote (pk [ref 1, (1, 0x11), (7, 0), ref 1, (4, 64), (4, 1), (2, 1), (1, 0), (1, 1)])
    ∧ (let c := { cmdFor 0x1012 (pk [ref 2]) with id := 2 }
       let s := { bed c with cmds := [cmdFor 0x1010 (pk [ref 2, (1, 2)]), c] }
       s.cmd? 2 = some c ∧ s.behind c = true)
    ∧ quiet.obj 0 2 = some objHost
    ∧ objHost.moving ≠ 1
    ∧ objHost.moving ≠ 2
    ∧ { objHost with moving := 1 }.moving ≠ 0
    ∧ (let o := { objHost with promos := [(0, 2)] }; o.moving = 0 ∧ o.wanted < o.level)
    ∧ (let o := { objHost with level := 1 }; o.moving = 0 ∧ o.level < o.wanted ∧ o.pins = [] ∧ o.waiting = [])
    ∧ (objHost.moving = 0 ∧ objHost.wanted = objHost.level) := by
  unfold Turns Starts Ready; decide +kernel
theorem meets_LevelsAndTiers_raise :
      (let o := { objHost with moving := 1, target := 2, size := 128 }
       let ls (s : State) := (s.setObj 0 2 (some o)).snapshot (moveReader 0 2) 0 2 o
       o.moving = 1 ∧ moveStop (ls quiet) = none ∧ moveAsks (ls quiet) = [] ∧ (moveStop (ls hostAway)).isSome = true)
    ∧ (let o := { objHost with moving := 1, target := 2, size := 128, home := 3, level := 3, base := 0 }
       let ls := (quiet.setObj 0 2 (some o)).snapshot (moveReader 0 2) 0 2 o
       o.moving = 1 ∧ moveStop ls = none ∧ moveAsks ls ≠ [] ∧ o.home ≠ 2) := by
  decide +kernel
theorem meets_LevelsAndTiers_2 :
      (let o := { objHost with moving := 2, target := 4, level := 2, dirty := [(0, true)] }
       o.moving = 2 ∧ (if hostAway.owns o then hostAway.copyStop o <|> hostAway.backStop o else none).isSome = true
       ∧ (if quiet.owns o then quiet.copyStop o <|> quiet.backStop o else none) = none ∧ o.waiting = [] ∧ o.level ≤ o.wanted)
    ∧ (let s := levelBed (fun o => { o with moving := 2, target := 4, level := 2 }) default
       ((if s.owns objHost ∧ 4 = objHost.home then s.writeBackAll 0 2 else s).obj 0 2).isSome = true)
    ∧ quiet.obj 0 99 = none
    ∧ Turns bed 0x1011 checkEvict (pk [ref 2]) := by
  unfold Turns Starts Ready; decide +kernel
theorem meets_LevelsAndTiers_3 :
      Turns (levelBed fun o => { o with promos := [(0, 2), (1, 2)], level := 2 }) 0x1011 checkEvict (pk [ref 2])
    ∧ (let o := { objHost with promos := [(0, 2), (1, 2)], level := 2 }
       NMap.get 0 o.promos 0 ≠ 0 ∧ ((NMap.del 0 o.promos).any fun e => e.2 == o.level) = true)
    ∧ (let o := { objHost with promos := [(0, 2)], level := 2 }
       NMap.get 0 o.promos 0 ≠ 0 ∧ ((NMap.del 0 o.promos).any fun e => e.2 == o.level) = false ∧ o.pins = [])
    ∧ Turns bed 0x1012 checkPin (pk [ref 1])
    ∧ Turns (levelBed fun o => { o with moving := 1, target := 2 }) 0x1012 checkPin (pk [ref 2])
    ∧ Turns bed 0x1013 checkUnpin (pk [ref 1])
    ∧ Turns (levelBed fun o => { o with pins := [(0, 255)] }) 0x1013 checkUnpin (pk [ref 2]) := by
  unfold Turns Starts Ready; decide +kernel
theorem meets_LevelsAndTiers_pins :
      (let c := cmdFor 0x1012 (pk [ref 2])
       let s := levelBed (fun o => { o with waiting := [(1, 0)] }) c
       let o := { objHost with waiting := [(1, 0)] }
       s.obj 0 2 = some o ∧ o.moving = 0 ∧ o.waiting.find? (dueReply s o) = some (1, 0)
       ∧ s.cmd? 1 = some c ∧ c.opcode = 0x1012 ∧ s.pinStop 0 o c.ctx = none
       ∧ s.pinStop 0 { o with pins := [(0, 255)] } c.ctx = some (stNoResources, [4])) := by
  decide +kernel
theorem meets_LevelsAndTiers_4 :
      NMap.get 0 [(0, 255)] 0 ≠ 0
    ∧ (∀ ps ∈ [pk [(8, 0), (8, 64)], pk [ref 1]], Starts bed 0x1014 checkTierQuery ps
        ∧ Settled runTierQuery (Begun (bed (cmdFor 0x1014 ps)) (cmdFor 0x1014 ps)) (begun (bed (cmdFor 0x1014 ps)) (cmdFor 0x1014 ps)))
    ∧ objT2.compress = false
    ∧ (let c := cmdFor 0x1014 (pk [ref 3])
       let b := Begun (bed c) c
       Starts bed 0x1014 checkTierQuery (pk [ref 3]) ∧ Settled runTierQuery b (begun (bed c) c)
       ∧ ((List.range 16).map fun i => b.mapEntry 1 0 objZip i).findSome? (fun e => e.2.2) = none)
    ∧ (let s (c : Cmd) := { levelBed (fun o => { o with compress := true }) c with link := Link.init }
       let c := cmdFor 0x1014 (pk [ref 2])
       Starts s 0x1014 checkTierQuery (pk [ref 2]) ∧ Settled runTierQuery (Begun (s c) c) (begun (s c) c) ∧ (s c).link.up = false) := by
  unfold Starts Ready Settled; decide +kernel
/-- The bed with object 3 of one line or two, compressible, and the same with a home on another node or on a lost host. -/
def zipBed (home : Nat) (c : Cmd) : State := (bed c).setObj 0 3 (some { objZip with size := 128, home := home, level := home, imp := 9 })
theorem meets_LevelsAndTiers_hint :
      Turns bed 0x1020 checkHint (pk [ref 3, (1, 2)])
    ∧ (let c := cmdFor 0x1020 (pk [ref 3, (1, 2)]); Settled runHint (Begun (bed c) c) (begun (bed c) c))
    ∧ (let c := cmdFor 0x1020 (pk [ref 3, (1, 3)])
       let s := zipBed 2 c
       let b := Begun s c
       let o := refObj s c (c.p 0 8)
       Ready s 0x1020 1 c ∧ checkHint s c = none ∧ s.behind c = false ∧ Settled runHint b (begun s c)
       ∧ (b.snapshot 1 0 3 o).findSome? (fun l => l.2.2.2) = none ∧ b.owns o = true) := by
  unfold Turns Starts Ready Settled; decide +kernel
theorem meets_LevelsAndTiers_hint_2 :
      (let c := cmdFor 0x1020 (pk [ref 3, (1, 3)])
       let s := { zipBed 4 c with link := { (bed c).link with up := false, lostAt := some 0 } }
       let b := Begun s c
       let o := refObj s c (c.p 0 8)
       Ready s 0x1020 1 c ∧ checkHint s c = none ∧ Settled runHint b (begun s c) ∧ ((b.snapshot 1 0 3 o).findSome? (fun l => l.2.2.2)).isSome = true)
    ∧ (let c := cmdFor 0x1020 (pk [ref 3, (1, 3)])
       let s := (bed c).setObj 0 3 (some { objZip with size := 128, home := 3, level := 2, imp := 9 })
       let b := Begun s c
       let o := refObj s c (c.p 0 8)
       Ready s 0x1020 1 c ∧ checkHint s c = none ∧ Settled runHint b (begun s c) ∧ (b.snapshot 1 0 3 o).findSome? (fun l => l.2.2.2) = none ∧ b.owns o = false) := by
  unfold Ready Settled; decide +kernel
theorem meets_LevelsAndTiers_5 :
      (let x : Tracker := { tenant := 0, kind := 0, desc := [], touchedEl := 0, touchedAt := quiet.now - usec 100, cmd := 0 }
       let s := { quiet with trackers := [(15, some x)] }
       NMap.get none s.trackers (16 * 0 + 15) = some x ∧ 15 < 16 ∧ x.touchedAt + usec 100 ≤ s.now)
    ∧ (let x (n : Nat) : Tracker := { tenant := 0, kind := 1, desc := pk [zeros 12, (4, 5), zeros 16], touchedEl := n, touchedAt := quiet.now - usec 100 + 1, cmd := 0 }
       (x 5).kind = 1 ∧ (x 5).count ≤ (x 5).touchedEl ∧ quiet.now < (x 4).touchedAt + usec 100 ∧ (x 4).touchedEl < (x 4).count)
    ∧ NMap.get none quiet.trackers 0 = none
    ∧ (quiet.backStop objT2 = none ∧ quiet.owns objT2 = true ∧ (objT2.level ≠ 2 ∨ objT2.home ≤ 2) ∧ (objT2.level ≠ 1 ∨ objT2.pins = []))
    ∧ ({ objHost with level := 2 }.level = 2 ∧ 2 < objHost.home)
    ∧ (let o := { objT2 with level := 1, pins := [(0, 1)] }; o.level = 1 ∧ o.pins ≠ []) := by
  decide +kernel
theorem meets_LevelsAndTiers_6 :
      (quiet.obj 0 1 = some objT2 ∧ (objT2.home = 2 ∨ objT2.level = 2) ∧ 64 * 1023 < objT2.storage ∧ NMap.get false quiet.rel.channels (objT2.channel 1023) = false
       ∧ NMap.get 0 quiet.rel.dram (dramKey 0 1 1023) = 0) := by
  decide +kernel

/-- What a fallible read gives. -/
def okd {α ε : Type} (x : Except ε α) : Bool := match x with | .ok _ => true | .error _ => false

/-- Command 1 of opcode `op` started on core 0 with parameters `ps`, and the bed that runs it. -/
def coreCmd (op : Nat) (ps : List Byte) : Cmd :=
  { cmdFor op ps with stage := .started, core := some 0, queue := some 0, startedAt := 4000000000, limit := 1000000 }
def coreBed (c : Cmd) : State := let s := bed c; s.setCore 0 { s.core 0 with running := some 1 }

/-- MATMUL_CHAIN of one row: INT8 operands from object 1, M = 1, N = 16, K = 32, E0 to object 2 with an INT32 output, row mask `mask`. -/
def chainParams (mask : Nat) : List Byte :=
  pk [ref 1, ref 1, zeros 16, ref 2, zeros 56, (8, mask), (2, 1), (2, 16), (4, 32), zeros 16, (1, 0), (1, 1), (1, 0), (1, 0), zeros 40]
/-- The chain's row fed and its cycles within the limit, as `f` judges. -/
def fedAs (s : State) (c : Cmd) (f : List (Nat × Nat) → Bool) : Bool := match chainFed s c with | .ok fed => f fed | .error _ => false
/-- The chain without a row, and one whose mask cannot be read. -/
def noRowBed (c : Cmd) : State := (coreBed c).setObj 0 3 (some { objT2 with store := [(0, 1)] })
theorem meets_CoreCommands_chain :
      (let c := coreCmd 0x2001 (chainParams 0); Running (coreBed c) 0x2001 1 c)
    ∧ (let c := { coreCmd 0x2001 (chainParams 0) with limit := 1 }; Running (coreBed c) 0x2001 1 c)
    ∧ (let c := coreCmd 0x2001 (chainParams (mkRef 99)); Running (coreBed c) 0x2001 1 c)
    ∧ (let c := coreCmd 0x2001 (chainParams (mkRef 3)); Running (noRowBed c) 0x2001 1 c) := by
  unfold Running; decide +kernel
theorem meets_CoreCommands_chain_cut : let c := { coreCmd 0x2001 (chainParams 0) with limit := 1 }; let s := coreBed c; Settled runChain s c := by
  unfold Settled; decide +kernel
theorem meets_CoreCommands_chain_lost : let c := coreCmd 0x2001 (chainParams (mkRef 99)); let s := coreBed c; Settled runChain s c := by
  unfold Settled; decide +kernel
theorem meets_CoreCommands_chain_masked : let c := coreCmd 0x2001 (chainParams (mkRef 3)); let s := noRowBed c; Settled runChain s c := by
  unfold Settled; decide +kernel
theorem meets_CoreCommands_chain_runs : let c := coreCmd 0x2001 (chainParams 0); let s := coreBed c; Settled runChain s c := by
  unfold Settled; decide +kernel
theorem meets_CoreCommands_chain_2 :
      (let c := coreCmd 0x2001 (chainParams 0)
       fedAs (coreBed c) c fun fed => decide (fed ≠ []) && decide ((chainCycles c fed.length (cycleBound c fed.length)).busy ≤ 21 * c.limit)
         && okd (chainRows (coreBed c) c fed)) = true
    ∧ (let c := { coreCmd 0x2001 (chainParams 0) with limit := 1 }
       fedAs (coreBed c) c fun fed => decide (21 * c.limit < (chainCycles c fed.length (cycleBound c fed.length)).busy)) = true
    ∧ (let c := coreCmd 0x2001 (chainParams (mkRef 99)); okd (chainFed (coreBed c) c)) = false
    ∧ (let c := coreCmd 0x2001 (chainParams (mkRef 3)); fedAs (noRowBed c) c fun fed => fed.isEmpty && decide ((chainCycles c 0 (cycleBound c 0)).busy ≤ 21 * c.limit)) = true := by
  decide +kernel
/-- The bed with object 1 in another module. -/
def farBed (c : Cmd) : State := (coreBed c).setObj 0 1 (some { objHost with home := 3, level := 3, base := 0, size := 4096 })
/-- A chain whose operands are not there. -/
def lostChain : List Byte := pk [ref 99, ref 99, zeros 16, ref 2, zeros 56, (8, 0), (2, 1), (2, 16), (4, 32), zeros 16, (1, 0), (1, 1), (1, 0), (1, 0), zeros 40]
theorem meets_CoreCommands_chain_3 :
      (let c := coreCmd 0x2001 lostChain; Running (coreBed c) 0x2001 1 c ∧ Settled runChain (coreBed c) c)
    ∧ (let c := coreCmd 0x2001 (chainParams 0)
       Running (farBed c) 0x2001 1 c ∧ ((runChain (farBed c) c).asks 1).map (fun f => fieldAt f.2 0 1) = some 0) := by
  unfold Running Settled; decide +kernel
theorem meets_CoreCommands_chain_4 :
    (let c := coreCmd 0x2001 lostChain; fedAs (coreBed c) c fun fed => decide (fed ≠ []) && !okd (chainRows (coreBed c) c fed)) = true := by decide +kernel

/-- REDUCE's parameters of one element with the first input in object `n`. -/
def reduceParams (n k : Nat) : List Byte := pk [ref 2, (4, 16), (2, 0), (1, k), zeros 17, ref n, (8, 0), ref 1, (8, 0)]

theorem meets_CoreCommands :
      Starts bed 0x2003 checkVectorLoad (pk [ref 1, (4, 8), (1, 63)])
    ∧ (let c := cmdFor 0x2003 (pk [ref 1, (4, 8), (1, 63)])
       Settled runVectorLoad (Begun (bed c) c) (begun (bed c) c)
       ∧ (match (Begun (bed c) c).consume 1 0 (c.p 0 8) 0 8 with | .ok bs => (imageCheck (doubles bs)).isSome | .error _ => false) = true)
    ∧ (let c := cmdFor 0x2003 (pk [ref 1, (4, 8), (1, 63)])
       let s := (bed c).setObj 0 1 (some { objT2 with store := [(7, 0xC1)] })
       Ready s 0x2003 1 c ∧ checkVectorLoad s c = none ∧ Settled runVectorLoad (Begun s c) (begun s c)
       ∧ (match (Begun s c).consume 1 0 (c.p 0 8) 0 8 with | .ok bs => (imageCheck (doubles bs)).isNone | .error _ => false) = true)
    ∧ (let c := cmdFor 0x2003 (pk [ref 9, (4, 8), (1, 63)])
       Settled runVectorLoad (Begun (bed c) c) (begun (bed c) c) ∧ okd ((Begun (bed c) c).consume 1 0 (c.p 0 8) 0 8) = false) := by
  unfold Starts Ready Settled; decide +kernel
theorem meets_CoreCommands_2 :
      Running (coreBed (coreCmd 0x2002 [])) 0x2002 1 (coreCmd 0x2002 [])
    ∧ (coreCmd 0x2002 []).core = some 0
    ∧ (let c := coreCmd 0x2004 (reduceParams 1 2); Running (coreBed c) 0x2004 1 c ∧ Settled runReduce (coreBed c) c ∧ reduceCycles c ≤ 21 * c.limit
       ∧ (match reduceLoop (coreBed c) c c.rdCount 0 with | .ok r => r.2.isEmpty | .error _ => false) = true
       ∧ 21 * 0 < reduceCycles c)
    ∧ (let c := coreCmd 0x2004 (reduceParams 99 2); Running (coreBed c) 0x2004 1 c ∧ Settled runReduce (coreBed c) c
       ∧ okd (reduceLoop (coreBed c) c c.rdCount 0) = false) := by
  unfold Running Settled; decide +kernel
theorem meets_CoreCommands_reduce :
      (let c := coreCmd 0x2004 (reduceParams 1 2)
       let s := (coreBed c).setObj 0 1 (some { objT2 with poison := [(0, true)] })
       Running s 0x2004 1 c ∧ Settled runReduce s c ∧ (match reduceLoop s c c.rdCount 0 with
         | .ok r => !r.2.isEmpty && (writeAll 0 0 1 c.determinism (reduceSound c r.2 r.1) s).2.isNone | .error _ => false) = true) := by
  unfold Running Settled; decide +kernel
theorem meets_CoreCommands_4 :
      (let c := coreCmd 0x2005 (pk [ref 99, ref 99, zeros 16]); Running (coreBed c) 0x2005 1 c ∧ Settled runGather (coreBed c) c ∧ okd (gatherRead (coreBed c) c) = true)
    ∧ (let c := coreCmd 0x2005 (pk [ref 99, ref 99, (2, 1), zeros 14]); Running (coreBed c) 0x2005 1 c ∧ Settled runGather (coreBed c) c
       ∧ okd (gatherRead (coreBed c) c) = false)
    ∧ (let c := coreCmd 0x2013 (List.replicate 112 0); Running (coreBed c) 0x2013 1 c ∧ Settled runSample (coreBed c) c
       ∧ (match (coreBed c).openRows 1 0 (c.p 48 8) c.smRows with | .ok rows => okd (sampleWrites (coreBed c) c rows) | .error _ => false) = true)
    ∧ (let c := coreCmd 0x2013 (pk [zeros 16, (4, 1), (4, 16), zeros 24, ref 99, zeros 24]); Running (coreBed c) 0x2013 1 c ∧ Settled runSample (coreBed c) c ∧ okd ((coreBed c).openRows 1 0 (c.p 48 8) c.smRows) = false) := by
  unfold Running Settled; decide +kernel
theorem meets_CoreCommands_3 :
      ((coreBed (coreCmd 0x2004 [])).core 0).inject = (0, 0, 0)
    ∧ (coreCmd 0x2004 []).checked = false
    ∧ ((((coreBed default).streams default).tierStalls default).scratchRead 0).1 = false
    ∧ (let s := coreBed (coreCmd 0x2004 []); let t := s.setCore 0 { s.core 0 with inject := (0, 0, 1) }; (t.judge (coreCmd 0x2004 []) none 1).1 ≠ 0)
    ∧ (let r : Round := { tenant := 1, ctx := 0, tag := 0, n := 2, int := false, leaves := [], openedAt := quiet.now - usec 50 }
       let s := { quiet with coopers := [(7, some r)] }
       NMap.get none s.coopers 7 = some r ∧ 7 < 8 ∧ r.openedAt + usec 50 ≤ s.now)
    ∧ quiet.now < quiet.now - usec 50 + 1 + usec 50
    ∧ NMap.get none quiet.coopers 7 = none := by
  decide +kernel

/-- Instruction word of format `f` and opcode `o`, other fields zero. -/
def vword (f o : Nat) : Dbl := BitVec.ofNat 64 (f * 2 ^ 62 + o * (if f < 2 then 2 ^ 54 else 2 ^ 56))

/-- The bed that runs a program of one word of tenant `t` on core 0. -/
def veCmd (t : Nat) : Cmd := { coreCmd 0x2002 [] with stage := .waiting, tenant := t }
def veOf (t : Nat) (w : Dbl) : Ve := Ve.start (veCmd t) [w]
def veBed (t : Nat) (w : Dbl) : State := let s := coreBed (veCmd t); s.setCore 0 { s.core 0 with ve := some (veOf t w) }
theorem meets_VectorInstructions :
      quiet.program 0 = none := by
  decide +kernel
theorem meets_VectorInstructions_2 :
      (∀ p ∈ [(0, 0x01), (0, 0x02), (0, 0x03), (0, 0x04), (0, 0x05), (0, 0x06), (0, 0x08), (0, 0x09), (0, 0x0A), (0, 0x0B), (0, 0x0C), (0, 0x0D), (0, 0x0E),
        (0, 0x10), (0, 0x11), (0, 0x12), (0, 0x13), (0, 0x14), (0, 0x18), (0, 0x19), (0, 0x1A), (0, 0x1B), (0, 0x20), (0, 0x21), (0, 0x22), (0, 0x23),
        (0, 0x24), (0, 0x28), (0, 0x29), (0, 0x2A), (0, 0x2B), (0, 0x2C), (0, 0x30), (0, 0x31), (0, 0x32), (0, 0x33), (0, 0x34), (0, 0x38), (0, 0x39),
        (0, 0x3A), (0, 0x3B), (0, 0x3C), (1, 0x00), (1, 0x01), (1, 0x02), (1, 0x03), (1, 0x04), (1, 0x05), (1, 0x08), (1, 0x09), (1, 0x10), (1, 0x11),
        (1, 0x12), (1, 0x18), (1, 0x19), (2, 0x00), (2, 0x01), (2, 0x02), (2, 0x03), (2, 0x08), (2, 0x10), (2, 0x11), (3, 0x00), (3, 0x01), (3, 0x02),
        (3, 0x03), (3, 0x04), (3, 0x05), (3, 0x06), (3, 0x07), (3, 0x08), (3, 0x10), (3, 0x11), (3, 0x12), (3, 0x13), (3, 0x14), (3, 0x18)],
        Issues (veBed 1 (vword p.1 p.2)) 0 (veOf 1 (vword p.1 p.2)) (veCmd 1) (vword p.1 p.2) p.1 p.2) := by
  unfold Issues Issuing; decide +kernel

theorem meets_VectorInstructions_branches :
      (veOf 1 0).scalar 0 = 0
    ∧ ((veOf 1 0).setScalar 1 1).scalar 1 = 1
    ∧ ((veOf 1 0).setScalar 1 2).scalar 1 ≠ 0
    ∧ ((veOf 1 0).setScalar 1 2).scalar 1 ≠ 1
    ∧ ((veOf 1 0).scalar 0).toInt < (((veOf 1 0).setScalar 1 1).scalar 1).toInt
    ∧ ¬ (((veOf 1 0).scalar 0).toInt < ((veOf 1 0).scalar 0).toInt)
    ∧ (veCmd 0).tenant = 0
    ∧ (veCmd 1).tenant ≠ 0
    ∧ (veOf 1 0).pc < (veOf 1 0).image.length
    ∧ (let v := { veOf 1 0 with pc := 8191 }
       let s := (veBed 1 0).setCore 0 { (veBed 1 0).core 0 with ve := some v }
       s.program 0 = some (v, veCmd 1) ∧ v.image.length ≤ v.pc ∧ (veFinish v (veCmd 1) s).asks 1 = none)
    ∧ (let w := vword 3 0
       (veFinish ((veOf 1 w).advance w false).1 (veCmd 1) ((veBed 1 w).issued 0 (veOf 1 w) w false)).asks 1 = none) := by
  decide +kernel
theorem meets_VectorInstructions_shadow :
      (let w := vword 0 0x10
       let s := (veBed 1 w).setCore 0 { (veBed 1 w).core 0 with inject := (0, 0, 1) }
       s.program 0 = some (veOf 1 w, veCmd 1) ∧ (veOf 1 w).image[(veOf 1 w).pc]? = some w ∧ veFormat w = 0 ∧ veOp w = 0x10
       ∧ (s.core 0).inject.2.2 > 0 ∧ veSampled w = true ∧ veIssue (veOf 1 w) w false ≠ 0) := by
  decide +kernel
theorem meets_VectorInstructions_branches_2 :
      (let w := vword 2 0x10
       let r : Round := { tenant := 2, ctx := 0, tag := 0, n := 2, int := false, leaves := [], openedAt := 0 }
       otherRound (veBed 1 w) 0 (veCmd 1) 0 = false ∧ otherRound { veBed 1 w with coopers := [(0, some r)] } 0 (veCmd 1) 0 = true)
    ∧ ((veBed 1 0).ctx 1 0).cooperMark = false
    ∧ (((veBed 1 0).setCtx 1 0 { Ctx.init with cooperMark := true }).ctx 1 0).cooperMark = true
    ∧ cgetRoot (veBed 1 (vword 2 0x11)) 0 (veCmd 1) (vword 2 0x11) (veOf 1 (vword 2 0x11)) = none := by
  decide +kernel

/-- What a load, a store or the softmax macro of word `w` acts on in the program bed of tenant `t` whose engine is as `f` makes it. -/
def veMem (t : Nat) (w : Dbl) (f : Ve → Ve) : Ve × State :=
  let v := f (veOf t w)
  let s := (veBed t w).setCore 0 { (veBed t w).core 0 with ve := some v }
  (s.issued 0 v w false).veWaits 0 (v.advance w false).1 (veCmd t) 0x20 0
def bound (h : Nat) (v : Ve) : Ve := { v with binds := [(mkRef h, 1024, true, true)] }
theorem meets_VectorInstructions_memory :
      (∀ op ∈ [0, 2], let w := vword 2 op
       let l := veMem 0 w (bound 1)
       let m := veMem 1 w id
       (match (if op = 0 then doLdt else doLds) l.2 (veCmd 0) w l.1 with | .ok x => decide ((l.2.setVe 0 x).asks 1 = none) | .error _ => false) = true
       ∧ (match (if op = 0 then doLdt else doLds) m.2 (veCmd 1) w m.1 with | .ok _ => false | .error f => decide ((veFail m.1 (veCmd 1) f m.2).asks 1 = none)) = true) := by
  decide +kernel
theorem meets_VectorInstructions_memory_2 :
      (∀ op ∈ [1, 3], let w := vword 2 op
       let l := veMem 0 w (bound 1)
       let m := veMem 1 w id
       (match (if op = 1 then doStt else doSts) (veCmd 0) w l.1 l.2 with | (t, none) => decide (t.asks 1 = none) | (_, some _) => false) = true
       ∧ (match (if op = 1 then doStt else doSts) (veCmd 1) w m.1 m.2 with | (_, none) => false | (t, some f) => decide ((veFail m.1 (veCmd 1) f t).asks 1 = none)) = true) := by
  decide +kernel
theorem meets_VectorInstructions_memory_3 :
      (let w := vword 2 0x08
       let z := doSmx (veCmd 1) w (veMem 1 w id).1 (veMem 1 w id).2
       ∃ f, z.2.1 = some f ∧ (veFail (veMem 1 w id).1 (veCmd 1) f z.1).asks 1 = none)
    ∧ (let w := vword 2 0
       let v := bound 2 (veOf 0 w)
       let s := ((veBed 0 w).setObj 0 2 (some { objHost with home := 3, level := 3, base := 0 })).setCore 0 { (veBed 0 w).core 0 with ve := some v }
       let l := (s.issued 0 v w false).veWaits 0 (v.advance w false).1 (veCmd 0) 0x20 0
       ∃ f, (match doLdt l.2 (veCmd 0) w l.1 with | .ok _ => none | .error f => some f) = some f
         ∧ ((veFail l.1 (veCmd 0) f l.2).asks 1).map (fun g => fieldAt g.2 0 1) = some 0) := by
  exact ⟨⟨_, rfl, by decide +kernel⟩, _, rfl, by decide +kernel⟩

/-- An instruction word of type `ty` and SAT `sat` over V1, V2 into V3 under Q1, destination predicate Q2. -/
def tword (ty : Nat) : Dbl := BitVec.ofNat 64 (ty * 2 ^ 51 + 3 * 2 ^ 46 + 1 * 2 ^ 41 + 2 * 2 ^ 36 + 1 * 2 ^ 28 + 2 * 2 ^ 24)
/-- An engine whose V1 and V2 hold `a` and `b` in element 255. -/
def veAB (a b : Word) : Ve :=
  let v := veOf 1 0
  { v with tiles := (v.tiles.set 1 (Tile.zero.set 255 a)).set 2 (Tile.zero.set 255 b) }
theorem meets_VectorElements :
      255 < 256
    ∧ (∀ ty ∈ [0, 1, 2, 3], veType (tword ty) = ty)
    ∧ on ((veAB 0 0).pred (tQP (tword 0))) 255 = true
    ∧ on (({ veAB 0 0 with preds := (veAB 0 0).preds.set 1 0 }).pred (tQP (tword 0))) 255 = false
    ∧ tQD (tword 0) ≠ 0
    ∧ tVD (tword 0) % 8 ≠ 0
    ∧ tVD (vword 0 1) % 8 = 0
    ∧ ((veAB 0x7FC00000 0).tile (tVA (tword 0))).el 255 = 0x7FC00000
    ∧ (dec32 0x7FC00000).isNan = true
    ∧ ((veAB 0x80000000 0).tile (tVA (tword 0))).el 255 = 0x80000000
    ∧ bOperand (veAB 0x80000000 0) (tword 0) 255 = 0
    ∧ ((veAB 0 0x80000000).tile (tVA (tword 0))).el 255 = 0
    ∧ bOperand (veAB 0 0x80000000) (tword 0) 255 = 0x80000000
    ∧ ((veAB 0xFF800000 0).tile (tVA (tword 0))).el 255 = 0xFF800000
    ∧ (dec32 0).isNan = false := by
  decide +kernel
theorem meets_VectorElements_2 :
      ((veAB 0x7F800000 0).tile (tVA (tword 0))).el 255 = 0x7F800000
    ∧ tSat (tword 1) = false
    ∧ (∃ b < 64, tSat (tword 1 ||| BitVec.ofNat 64 (2 ^ b)) = true)
    ∧ 15 < 16
    ∧ (∃ b < 64, xDir (BitVec.ofNat 64 (2 ^ b)) = true)
    ∧ 255 = 16 * 15 + 15
    ∧ (∃ b < 64, xQD (BitVec.ofNat 64 (2 ^ b)) ≠ 0)
    ∧ (∃ b < 64, fSD (BitVec.ofNat 64 (2 ^ b)) ≠ 0 ∧ fImm (BitVec.ofNat 64 (2 ^ b)) < 64) := by
  decide +kernel

/-- A word of kind `k` of a signal core, and the same made legal: the bits its kind needs. -/
def scBase (k : Nat) : Nat :=
  if k < 64 then k * 2 ^ 24 else if k < 128 then 2 ^ 30 + (k - 64) * 2 ^ 27 else if k < 192 then 2 ^ 31 + (k - 128) * 2 ^ 27
  else 2 ^ 31 + 2 ^ 30 + (k - 192) * 2 ^ 26
def scWord (k : Nat) : Word := BitVec.ofNat 32 (scBase k + if k = 68 then 2 ^ 7 else 0)

/-- The registers of a job just started, and the bed whose signal core 127 runs it at word `w`. -/
def scRegs : ScRegs := ScRegs.start { entry := 0, args := [], mode := false, limit := 100, clears := 0 }
def scBed (w : Word) (r : ScRegs) : State :=
  let s := quiet.setCluster 7 { quiet.cluster 7 with pm := [(0, w)], loaded := true }
  s.setSc 127 { s.sc 127 with job := some r, left := 100 }
theorem meets_SignalCores :
      (let s := quiet.setCluster 7 { quiet.cluster 7 with loaded := true }
     127 < 128 ∧ s.clusterOn (127 / 16) = true ∧ (s.sc 127).quarantined = false ∧ (s.sc 127).job = none ∧ (s.cluster (127 / 16)).loaded = true
     ∧ (s.cluster (127 / 16)).halt = false ∧ 63 < 64)
    ∧ (((scBed 0 scRegs).setSc 127 { (scBed 0 scRegs).sc 127 with left := 0 }).sc 127).job.isSome = true
    ∧ (((scBed 0 scRegs).setSc 127 { (scBed 0 scRegs).sc 127 with left := 0 }).sc 127).left = 0
    ∧ (quiet.sc 127).job = none
    ∧ ((scBed 0 scRegs).sc 127).left ≠ 0
    ∧ scKind 0x1B000000 = none
    ∧ ((scBed 0x1B000000 scRegs).cluster (127 / 16)).word 0 = 0x1B000000 := by
  decide +kernel

theorem meets_SignalCores_issues :
    ∀ k ∈ [0x00, 0x01, 0x02, 0x03, 0x04, 0x05, 0x06, 0x07, 0x08, 0x09, 0x0A, 0x0B, 0x0C, 0x0D, 0x0E, 0x0F, 0x10, 0x11, 0x12, 0x13, 0x14, 0x15, 0x16, 0x17,
      0x18, 0x19, 0x1A, 64, 65, 66, 67, 68, 69, 70, 128, 129, 130, 131, 132, 133, 192, 193, 194, 195, 196, 197, 198, 199, 200, 201, 202],
      (scBed (scWord k) scRegs).sc 127 = { (scBed (scWord k) scRegs).sc 127 with job := some scRegs } ∧ ((scBed (scWord k) scRegs).sc 127).left ≠ 0
        ∧ ((scBed (scWord k) scRegs).cluster (127 / 16)).word scRegs.pc = scWord k ∧ scKind (scWord k) = some k ∧ scLegal scRegs.sfmode k (scWord k) = true
        ∧ scRegs.loops = [] := by decide +kernel

/-- The bed serving in context 0 with queued, running and stepping sequences. -/
def seqBed (q r : List Sequence) (st : Option (List SampleRow × Option Nat)) (c : Cmd) : State :=
  let s := servingBed c
  s.setCtx 0 0 { s.ctx 0 0 with queue := q, running := r, stepping := st }
def seqOf (n : Nat) : Sequence := { (default : Sequence) with ident := n, promptLen := 1, maxNew := 2, len := 2, stops := [5] }
/-- Command 1 in a stage, accepted and waiting since time 0. -/
def staged (st : Stage) (op : Nat) (ps : List Byte) : Cmd := { cmdFor op ps with stage := st, acceptedAt := 0, since := 0 }

/-- STEP_COMPOSE's parameters with its program in object `h`. -/
def composeParams (h : Nat) : List Byte :=
  pk [ref h, (4, 32), (2, 16), (2, 16), ref 1, ref 1, ref 1, ref 1, (4, 16), (4, 64), (4, 1), (2, 1), (2, 0)]
def spoiltProgram (c : Cmd) : State := (programBed c).setObj 0 1 (some { objT2 with poison := [(0, true)] })
theorem meets_ServingAndTokens :
      Starts programBed 0x2010 checkStepCompose (composeParams 1)
    ∧ (let c := cmdFor 0x2010 (composeParams 1)
       checkStepCompose (Begun (programBed c) c) (begun (programBed c) c) = none ∧ Settled runStepCompose (Begun (programBed c) c) (begun (programBed c) c)) := by
  unfold Starts Ready Settled; decide +kernel
theorem meets_ServingAndTokens_read :
      (let c := cmdFor 0x2010 (composeParams 1); okd ((Begun (programBed c) c).consume 1 0 (c.p 0 8) 0 (c.p 8 4)) = true)
    ∧ (let c := cmdFor 0x2010 (composeParams 1); okd ((Begun (spoiltProgram c) c).consume 1 0 (c.p 0 8) 0 (c.p 8 4)) = false) := by decide +kernel
theorem meets_ServingAndTokens_spoilt :
      (let c := cmdFor 0x2010 (composeParams 1)
       let s := spoiltProgram c
       Ready s 0x2010 1 c ∧ (checkStepCompose s c).isSome = true)
    ∧ (let c := begun (bed default) (cmdFor 0x2010 (composeParams 1))
       let s := spoiltProgram c
       s.cmd? 1 = some c ∧ c.opcode = 0x2010 ∧ c.stage = .started ∧ Settled runStepCompose s c ∧ (checkStepCompose s c).isSome = true) := by
  unfold Ready Settled; decide +kernel
theorem meets_ServingAndTokens_1 :
      Starts servingBed 0x2011 checkSeqSubmit (pk [ref 1, (4, 1), (4, 1), (8, 0), (4, 0x3F800000), (4, 0x3F800000)])
    ∧ Starts (seqBed [seqOf 7] [] none) 0x2012 noCheck (pk [(4, 7)])
    ∧ Starts (seqBed [] [] none) 0x2012 noCheck (pk [(4, 7)])
    ∧ Starts (seqBed [] [seqOf 7] (some ([], some 0))) 0x2012 noCheck (pk [(4, 7)])
    ∧ Starts (seqBed [] [seqOf 7] none) 0x2012 noCheck (pk [(4, 7)])
    ∧ (let x := (seqBed [seqOf 7] [] none (cmdFor 0x2012 (pk [(4, 7)]))).ctx 0 0
       x.queue.find? (fun q => q.ident = 7 && !q.cancelled) = some (seqOf 7)) := by
  unfold Starts Ready; decide +kernel
theorem meets_ServingAndTokens_2 :
      (let x := (seqBed [] [seqOf 7] (some ([], some 0)) (cmdFor 0x2012 (pk [(4, 7)]))).ctx 0 0
       x.queue.find? (fun q => q.ident = 7 && !q.cancelled) = none ∧ x.running.find? (fun q => q.ident = 7 && !q.cancelled) = some (seqOf 7)
       ∧ x.stepping.isSome = true)
    ∧ (let x := (seqBed [] [seqOf 7] none (cmdFor 0x2012 (pk [(4, 7)]))).ctx 0 0
       x.queue.find? (fun q => q.ident = 7 && !q.cancelled) = none ∧ x.running.find? (fun q => q.ident = 7 && !q.cancelled) = some (seqOf 7)
       ∧ x.stepping = none)
    ∧ (let x := (seqBed [] [] none (cmdFor 0x2012 (pk [(4, 7)]))).ctx 0 0
       x.queue.find? (fun q => q.ident = 7 && !q.cancelled) = none ∧ x.running.find? (fun q => q.ident = 7 && !q.cancelled) = none)
    ∧ ((bed default).ctx 0 0).serving = none := by
  decide +kernel
theorem meets_ServingAndTokens_3 :
      (let s := seqBed [] [seqOf 7] (some ([], some 0)) { cmdFor 4 [] with program := true }
       (s.ctx 0 0).stepping.isSome = true ∧ (s.cmds.any fun d => d.program && d.tenant = 0 && d.ctx = 0) = true)
    ∧ (let s := seqBed [] [seqOf 7] (some ([], some 0)) (cmdFor 4 [])
       (s.ctx 0 0).stepping = some ([], some 0) ∧ (s.cmds.any fun d => d.program && d.tenant = 0 && d.ctx = 0) = false
       ∧ (s.ctx 0 0).serving.map Serving.watchdog = some 0 ∧ s.stepStart 0 0 = some 0
       ∧ 16 * (0 + msec (s.tenant 0).watchdog) + (s.ctx 0 0).stepSlow ≤ 16 * s.now)
    ∧ (let c := { cmdFor 4 [] with program := true, stage := .done, status := 0x82 }
       let s := seqBed [] [seqOf 7] (some ([], some 0)) c
       c.program = true ∧ c.failsStep = true ∧ c.status ≠ stContextDead ∧ c.status ≠ stOverrun ∧ (s.ctx 0 0).stepping.isSome = true) := by
  decide +kernel
theorem meets_ServingAndTokens_4 :
      (let s := seqBed [] [seqOf 7] (some ([], some 1)) (cmdFor 4 [])
       s.stepStart 0 0 = some 1 ∧ ¬ (16 * (1 + msec (s.tenant 0).watchdog) + (s.ctx 0 0).stepSlow ≤ 16 * s.now))
    ∧ (seqBed [] [] none default).stepStart 0 0 = none
    ∧ (let s := seqBed [seqOf 7] [] none (cmdFor 4 [])
       (s.ctx 0 0).stepping = none ∧ (s.ctx 0 0).st ≠ .dead ∧ (s.ctx 0 0).st ≠ .closed ∧ s.stalled 0 = false
       ∧ (s.cmds.any fun d => d.program && d.tenant = 0 && d.ctx = 0) = false
       ∧ ((s.setCtx 0 0 { s.ctx 0 0 with st := .dead }).ctx 0 0).st = .dead ∧ ((s.setCtx 0 0 { s.ctx 0 0 with st := .closed }).ctx 0 0).st = .closed)
    ∧ ((seqBed [] [] none default).ctx 0 0).queue = []
    ∧ 4 ≤ ((seqBed [] [seqOf 1, seqOf 2, seqOf 3, seqOf 4] none default).ctx 0 0).running.length := by
  decide +kernel
theorem meets_ServingAndTokens_5 :
      ((seqOf 7).cancelled = false ∧ 5 ∈ (seqOf 7).stops ∧ 6 ∉ (seqOf 7).stops ∧ (seqOf 7).len + 1 = (seqOf 7).promptLen + (seqOf 7).maxNew)
    ∧ { seqOf 7 with cancelled := true }.cancelled = true
    ∧ (quiet.token 0 5 + 65535 ≤ 65535 ∧ 65535 < quiet.token 0 5 + 65536)
    ∧ Starts bed 0x3001 noCheck (pk [(1, 255)])
    ∧ (cmdFor 0x3001 (pk [(1, 255)])).p 0 1 ≠ 0
    ∧ Starts bed 0x3001 noCheck (pk [(1, 0)])
    ∧ (cmdFor 0x3001 (pk [(1, 0)])).p 0 1 = 0
    ∧ Starts bed 0x3002 noCheck (pk [(4, 10000000)])
    ∧ (cmdFor 0x3002 (pk [(4, 10000000)])).p 0 4 ≤ 10000000
    ∧ (let c := staged .accepted 0x3002 (pk [(4, 1000000)])
       (bed c).cmd? 1 = some c ∧ c.stage = .accepted ∧ c.opcode = 0x3002 ∧ c.p 0 4 ≠ 0 ∧ c.acceptedAt + usec (c.p 0 4) ≤ (bed c).now) := by
  unfold Starts Ready; decide +kernel
theorem meets_ServingAndTokens_6 :
      (let c := staged .accepted 0x3002 (pk [(4, 1000001)])
       (bed c).cmd? 1 = some c ∧ ¬ (c.acceptedAt + usec (c.p 0 4) ≤ (bed c).now))
    ∧ quiet.cmd? 1 = none
    ∧ (cmdFor 0x3001 []).waits = [] := by
  decide +kernel

/-- The bed with another export and other imports. -/
def exportBed (e : Export) (c : Cmd) : State := let s := bed c; { s with fabric := { s.fabric with exports := [(0, some e)] } }
def fencedBed (c : Cmd) : State := let s := bed c; { s with fabric := { s.fabric with fenced := true } }
/-- The bed with a stream to node 6 of which operation 3 is unacknowledged since time 0. -/
def outOf (kind : Nat) : Outstanding :=
  { seq := 3, tenant := 0, ctx := 0, cmd := 1, kind := kind, offset := 0, issuedAt := 0, sentAt := 0, pkt := default }
def streamBed (c : Cmd) : State :=
  let s := bed c
  let st : StreamOut := { epoch := 0, next := 4, acked := 2, pending := [outOf 0], lastAck := 3960000000 }
  { s with fabric := { s.fabric with out := [(6, some st)] } }
/-- The bed with object 2 homed in import 0. -/
def t3Bed (c : Cmd) : State :=
  let s := levelBed (fun o => { o with home := 3, level := 3, base := 0, size := 4096 }) c
  { s with fabric := { s.fabric with imports := [(0, some { imported with tenant := 0 })] } }

/-- A waiting command at its 10 ms, and just before. -/
def due (op : Nat) (ps : List Byte) : Cmd := { cmdFor op ps with stage := .waiting, since := 3960000000, fence := [(6, 3)] }
def early (op : Nat) (ps : List Byte) : Cmd := { due op ps with since := 3960000001 }
theorem meets_FabricCommands :
      (Starts fencedBed 0x3003 noCheck [] ∧ (fencedBed default).fabric.fenced = true)
    ∧ (Starts bed 0x3003 noCheck [] ∧ (bed (cmdFor 0x3003 [])).fabric.fenced = false
       ∧ (fenceMarks (bed (cmdFor 0x3003 [])) (cmdFor 0x3003 [])).all (bed (cmdFor 0x3003 [])).covered = true)
    ∧ (let s := { streamBed (cmdFor 0x3003 []) with cmds := [{ cmdFor 0x3003 [] with id := 2 }] }
       let c := { cmdFor 0x3003 [] with id := 2 }
       Ready s 0x3003 2 c ∧ s.fabric.fenced = false ∧ (fenceMarks s c).all s.covered = false) := by
  unfold Starts Ready; decide +kernel
theorem meets_FabricCommands_2 :
      (∀ op ∈ [0x3003, 0x4002, 0x4004, 0x4020], let c := due op []
        (bed c).cmd? 1 = some c ∧ c.opcode = op ∧ c.stage = .waiting ∧ c.fence ≠ [] ∧ c.since + msec 10 ≤ (bed c).now
        ∧ (bed (early op [])).cmd? 1 = some (early op []) ∧ ¬ ((early op []).since + msec 10 ≤ (bed (early op [])).now))
    ∧ Starts bed 0x4001 checkRegionExport (pk [(8, mkRef 1 + 4096), (8, 4096), (8, 1), (1, 0)])
    ∧ (let ps := pk [(8, mkRef 1 + 4096), (8, 4096), (8, 1), (1, 0), (1, 0), (1, 2), (5, 0), (8, 1)]
       ((bed (cmdFor 0x4001 ps)).obj 0 (refHandle ((cmdFor 0x4001 ps).p 0 8))).isSome = true ∧ ((cmdFor 0x4001 ps).p 26 1).testBit 1 = true) := by
  unfold Starts Ready; decide +kernel
theorem meets_FabricCommands_3 :
      Starts bed 0x4002 checkRegionImport (pk [(2, 6), (6, 0), (8, 0), (8, 1), (1, 1)])
    ∧ (let c := cmdFor 0x4002 (pk [(2, 6), (6, 0), (8, 0), (8, 1), (1, 1)])
       let b := Begun (bed c) c
       checkRegionImport b (begun (bed c) c) = none ∧ b.answerRoom = true ∧ b.importCount 0 + b.probing 0 < (b.tenant 0).imports
       ∧ b.fabric.imports.length + (b.cmds.countP fun d => d.opcode = 0x4002 && d.stage = .waiting) < 4096)
    ∧ (let c := cmdFor 0x4002 (pk [(2, 6), (6, 0), (8, 0), (8, 1), (1, 1)])
       let s := (bed c).setTenant 0 { (bed c).tenant 0 with imports := 2 }
       let d := { due 0x4002 [] with id := 2 }
       let s := { s with cmds := [c, d, { d with id := 3 }] }
       let b := Begun s c
       Ready s 0x4002 1 c ∧ checkRegionImport s c = none ∧ checkRegionImport b (begun s c) = none ∧ ¬ (b.importCount 0 + b.probing 0 < (b.tenant 0).imports))
    ∧ (bed default).importCount 0 < ((bed default).tenant 0).imports
    ∧ freeNumber (bed default).fabric.imports < 4096
    ∧ (let c := cmdFor 0x4003 (pk [(1, 0), (1, 0), (2, 0)])
       Ready (bed c) 0x4003 1 c ∧ c.p 0 1 = 0 ∧ ((Begun (bed c) c).await c.id).revoking c.id = false) := by
  unfold Starts Ready; decide +kernel
theorem meets_FabricCommands_4 :
      (let c := cmdFor 0x4003 (pk [(1, 0), (1, 0), (2, 0)])
       let s := exportBed { region with revoking := some 1 } c
       Ready s 0x4003 1 c ∧ ((Begun s c).await c.id).revoking c.id = true) := by
  unfold Ready; decide +kernel
theorem meets_FabricCommands_5 :
      (let c := cmdFor 0x4003 (pk [(1, 1), (1, 0), (2, 0)])
       Ready (bed c) 0x4003 1 c ∧ c.p 0 1 ≠ 0 ∧ checkRegionRevoke (bed c) c = none ∧ NMap.get none (bed c).fabric.imports (c.p 2 2) = some imported
       ∧ (bed c).regionHandles c.tenant 0 (c.p 2 2) = [] ∧ (bed c).fabric.fenced = false ∧ (bed c).fabric.st ≠ 3
       ∧ Ready (fencedBed c) 0x4003 1 c ∧ (fencedBed c).regionHandles c.tenant 0 (c.p 2 2) = [] ∧ (fencedBed c).fabric.fenced = true ∧ (fencedBed c).fabric.st ≠ 3
       ∧ (let s := { bed c with fabric := { (bed c).fabric with st := 3 } }
          Ready s 0x4003 1 c ∧ checkRegionRevoke s c = none ∧ NMap.get none s.fabric.imports (c.p 2 2) = some imported ∧ s.fabric.st = 3)
       ∧ Ready (t3Bed c) 0x4003 1 c ∧ checkRegionRevoke (t3Bed c) c = none ∧ (t3Bed c).regionHandles c.tenant 0 (c.p 2 2) ≠ []) := by
  unfold Ready; decide +kernel
theorem meets_FabricCommands_6 :
      (let s := exportBed { region with revoking := some 1 } (due 0x4003 [])
       let nums (s : State) := s.fabric.exports.filterMap fun e => match e.2 with
         | some x => if x.revoking = some 1 ∧ x.since + msec 10 ≤ s.now then some e.1 else none
         | none => none
       nums s = [0] ∧ s.cmd? 1 = some (due 0x4003 []) ∧ nums (bed default) = [] ∧ nums { s with cmds := [] } = [0] ∧ { s with cmds := [] }.cmd? 1 = none)
    ∧ (let c := cmdFor 0x4004 (pk [(1, 1), (1, 1), (2, 0), (2, 5)])
       let s := exportBed { region with owner := 6 } c
       Ready s 0x4004 1 c ∧ checkTransfer s c = none ∧ c.p 0 1 = 1 ∧ (c.p 1 1).testBit 0 = true
       ∧ NMap.get none s.fabric.exports (c.p 2 2) = some { region with owner := 6 } ∧ 6 ≠ s.fabric.node) := by
  unfold Ready; decide +kernel
theorem meets_FabricCommands_7 :
      (let c := cmdFor 0x4004 (pk [(1, 0), (1, 0), (2, 0), (2, 6)])
       let w := (begun (bed c) c).mayTransfer
       let older : Cmd := { cmdFor 0x1003 (pk [ref 2, ref 1, (8, 64)]) with id := 0, stage := .started }
       let s := { t3Bed c with cmds := [older, c] }
       Ready (bed c) 0x4004 1 c ∧ checkTransfer (bed c) c = none ∧ transferReady ((Begun (bed c) c).setCmd w) w = true
       ∧ NMap.get none (bed c).fabric.imports (c.p 2 2) = some imported ∧ imported.knows (bed c).fabric.node (c.p 4 2) = true
       ∧ Ready s 0x4004 1 c ∧ checkTransfer s c = none ∧ transferReady ((Begun s c).setCmd (begun s c).mayTransfer) w = false)
    ∧ (let c := cmdFor 0x4004 (pk [(1, 0), (1, 0), (2, 0), (2, 7)])
       Ready (bed c) 0x4004 1 c ∧ checkTransfer (bed c) c = none ∧ imported.knows (bed c).fabric.node (c.p 4 2) = false) := by
  unfold Ready; decide +kernel
theorem meets_FabricCommands_8 :
      (let c := cmdFor 0x4004 (pk [(1, 1), (1, 0), (2, 0), (2, 5)])
       let w := (begun (bed c) c).mayTransfer
       Ready (bed c) 0x4004 1 c ∧ checkTransfer (bed c) c = none ∧ c.p 0 1 = 1 ∧ (c.p 1 1).testBit 0 = false ∧ transferReady ((Begun (bed c) c).setCmd w) w = true
       ∧ NMap.get none (bed c).fabric.exports (c.p 2 2) = some region ∧ c.p 4 2 = (bed c).fabric.node)
    ∧ (∀ side ∈ [0, 1], let c := { due 0x4004 (pk [(1, side), (1, 0), (2, 0), (2, 5)]) with result := [1] }
       (bed c).cmd? 1 = some c ∧ c.opcode = 0x4004 ∧ c.stage = .waiting ∧ c.fence ≠ [] ∧ c.since + msec 10 ≤ (bed c).now ∧ c.p 0 1 = side ∧ c.result ≠ [])
    ∧ (region.handing = none ∧ { region with handing := some (6, 1) }.handing = some (6, 1)) := by
  unfold Ready; decide +kernel
theorem meets_FabricCommands_answers :
      (¬ ((detachedBed default).fabric.st ≠ 0))
    ∧ (quiet.variant.fabric = true ∧ quiet.fabric.st ≠ 0 ∧ NMap.get false quiet.fabric.members 7 = false ∧ NMap.get false quiet.fabric.members 6 = true)
    ∧ (let st (k : Nat) : StreamOut := { epoch := 0, next := 4, acked := 2, pending := [outOf k], lastAck := 3960000000 }
       ∀ k ∈ [4, 9], (st k).pending.find? (fun o => o.seq = 3 && (o.kind = 4 || o.kind = 9)) = some (outOf k) ∧ (outOf k).kind = k)
    ∧ (let c := due 0x4002 []; (bed c).cmd? (outOf 4).cmd = some c ∧ c.opcode = 0x4002 ∧ c.stage = .waiting)
    ∧ (let c := due 0x4020 []; (bed c).cmd? { (default : FabAnswer) with id := 1 }.id = some c ∧ c.opcode = 0x4020 ∧ c.stage = .waiting)
    ∧ (∀ k ∈ [AnswerKind.probed, .badRights, .incomplete, .tooManyWriters, .secondCopyWriter, .keyRejected, .fenced, .data, .status],
        { (default : FabAnswer) with kind := k }.kind = k)
    ∧ ((outOf 9).cmd < 2 ^ 64 ∧ (List.replicate 64 (0#8)).length = 64 ∧ NMap.wf 0 quiet.ctr = true) := by
  decide +kernel

/-- ROWS_SEND's parameters, forward or back, with rows from object `h` and routings from object `r`; ROWS_COMBINE's with staged rows in
object `h`, results to object `o` and a row mask in object `m`. -/
def rowsSendOf (back h r : Nat) : Cmd :=
  cmdFor 0x4010 (pk [ref h, ref r, (8, if back = 1 then 0 else mkRef 1), ref 1, (8, 0), (2, 1), (1, 1), (1, back), (2, 1), (2, 0),
    (2, back), (2, 1 - back), (2, 4), (2, 0), (2, 64), (1, 2), (1, 0), (4, 0), (8, 0)])
def rowsCombineOf (h o m : Nat) : Cmd :=
  cmdFor 0x4011 (pk [ref h, ref 1, ref o, (8, 0), (8, if m = 0 then 0 else mkRef m), (2, 1), (1, 1), (1, 2), (2, 64), (1, 0), (1, 0)])
/-- The bed with object 1's second line poisoned. -/
def poisonBed (c : Cmd) : State := (bed c).setObj 0 1 (some { objT2 with poison := [(1, true)] })
theorem meets_FabricCommands_rows :
      (∀ back ∈ [0, 1], let c := rowsSendOf back 1 1
       let b := Begun (bed c) c
       Ready (bed c) 0x4010 1 c ∧ checkRowsSend (bed c) c = none ∧ (bed c).routerBusy c = false ∧ Settled runRowsSend b (begun (bed c) c)
       ∧ (match sendPlan b (begun (bed c) c) with | .ok (_, ts) => ts.length == 1 - back | .error _ => false) = true)
    ∧ (let c := rowsSendOf 0 1 1
       let s := { bed c with fabric := { (bed c).fabric with imports := [] } }
       Ready s 0x4010 1 c ∧ checkRowsSend s c = none ∧ s.routerBusy c = false ∧ Settled runRowsSend (Begun s c) (begun s c)
       ∧ okd (sendPlan (Begun s c) (begun s c)) = false)
    ∧ (let c := { rowsSendOf 0 1 1 with id := 2 }
       let s := { bed c with cmds := [{ rowsSendOf 0 1 1 with stage := .started }, c] }
       s.cmd? 2 = some c ∧ s.routerBusy c = true) := by
  unfold Ready Settled; decide +kernel
theorem meets_FabricCommands_rows_2 :
      (let c := rowsSendOf 0 1 1
       let b := Begun (bed c) c
       (match sendPlan b (begun (bed c) c) with
         | .ok (is, ts) => (sendPeer b (begun (bed c) c) ts 0 (is.getD 0 default) (b, 0, 0, none)).2.2.2.isNone | .error _ => false) = true)
    ∧ (let c := rowsSendOf 0 2 1
       let s := { bed c with link := { (bed c).link with up := false, lostAt := some 0 } }
       let b := Begun s c
       Ready s 0x4010 1 c ∧ checkRowsSend s c = none ∧ s.routerBusy c = false ∧ Settled runRowsSend b (begun s c)
       ∧ (match sendPlan b (begun s c) with
         | .ok (is, ts) => (sendPeer b (begun s c) ts 0 (is.getD 0 default) (b, 0, 0, none)).2.2.2.isSome | .error _ => false) = true)
    ∧ Starts bed 0x4011 checkRowsCombine (rowsCombineOf 1 1 0).params := by
  unfold Starts Ready Settled; decide +kernel
theorem meets_FabricCommands_rows_3 :
      (let c := rowsCombineOf 1 1 0
       let b := Begun (bed c) c
       (bed c).routerBusy c = false ∧ Settled runRowsCombine b (begun (bed c) c)
       ∧ (match b.openRows 1 0 (c.p 32 8) c.rcT with | .ok rows => decide (rows = [0]) | .error _ => false) = true
       ∧ (combineRows b (begun (bed c) c) [0] b []).2.1 = none ∧ (combineRows b (begun (bed c) c) [0] b []).2.2 = [])
    ∧ (let c := rowsCombineOf 1 1 0
       let b := Begun (poisonBed c) c
       Ready (poisonBed c) 0x4011 1 c ∧ checkRowsCombine (poisonBed c) c = none ∧ (poisonBed c).routerBusy c = false ∧ Settled runRowsCombine b (begun (poisonBed c) c)
       ∧ (combineRows b (begun (poisonBed c) c) [0] b []).2.1 = none ∧ (combineRows b (begun (poisonBed c) c) [0] b []).2.2 ≠ []) := by
  unfold Ready Settled; decide +kernel
theorem meets_FabricCommands_rows_4 :
      (let c := rowsCombineOf 1 2 0
       let s := deadBed c
       let b := Begun s c
       Ready s 0x4011 1 c ∧ checkRowsCombine s c = none ∧ s.routerBusy c = false ∧ Settled runRowsCombine b (begun s c)
       ∧ (combineRows b (begun s c) [0] b []).2.1.isSome = true)
    ∧ (let c := rowsCombineOf 1 1 2
       let s := { bed c with link := { (bed c).link with up := false, lostAt := some 0 } }
       Ready s 0x4011 1 c ∧ checkRowsCombine s c = none ∧ s.routerBusy c = false ∧ Settled runRowsCombine (Begun s c) (begun s c)
       ∧ okd ((Begun s c).openRows 1 0 (c.p 32 8) c.rcT) = false) := by
  unfold Ready Settled; decide +kernel

/-- A packet of node 6 with number `q` for the region at 0, and the bed with the stream from node 6 at `n`, holding back `held`. -/
def pktOf (q : Nat) : FabPkt :=
  { src := 6, epoch := 0, seq := q, offset := 0, key := 7, size := 64, enable := 0, data := [], poison := false, ownEpoch := 0, port := 8 }
def homeOf (q : Nat) : HomeOp := { kind := .store, pkt := pktOf q, arg := 0, at_ := 0 }
def intoBed (n : Nat) (held : List HomeOp) : State := quiet.setInto 6 { epoch := 0, next := n, reorder := held }
/-- The bed with the entries of the 8 home atomic units full, and operation 0 waiting at unit `u`. -/
def fullUnits (s : State) : State :=
  { s with fabric := { s.fabric with units := (List.range 8).map fun u => (u, (List.range 64).map fun l => { line := l + 1, drained := s.now + 5 }) } }
def waitingUnit (u : Nat) (s : State) : State := { s with fabric := { s.fabric with waiting := [(u, [homeOf 0])] } }

theorem meets_FabricOperations_arrival :
      (let r := pktOf 0; let p : FabPkt := { r with offset := 64, ownEpoch := 3 }; p = { r with offset := 64, ownEpoch := 3 } ∧ p.offset = 64)
    ∧ ¬ ((detachedBed default).variant.fabric = true ∧ (detachedBed default).fabric.st ≠ 0)
    ∧ (quiet.variant.fabric = true ∧ quiet.fabric.st ≠ 0 ∧ NMap.get false quiet.fabric.members 6 = true ∧ NMap.get false quiet.fabric.members 65535 = false)
    ∧ ((quiet.openStream (pktOf 0)).intoOf 6 0).epoch = (pktOf 0).epoch
    ∧ (((intoBed 5 []).openStream { pktOf 5 with epoch := 2 ^ 31 }).intoOf 6 (2 ^ 31)).epoch ≠ 2 ^ 31
    ∧ seqDist 5 5 = 0
    ∧ 2 ^ 31 ≤ seqDist 5 4
    ∧ 0 < seqDist 5 6
    ∧ seqDist 5 6 < 2 ^ 31
    ∧ 2 ^ 31 ≤ seqDist 5 (5 + 2 ^ 31)
    ∧ seqDist 5 (4 + 2 ^ 31) < 2 ^ 31
    ∧ seqDist 0 (2 ^ 32 - 1) ≥ 2 ^ 31
    ∧ ((intoBed 5 []).openStream (pktOf 5)).heldAtUnit (pktOf 5) = false
    ∧ ((waitingUnit 7 quiet).openStream (pktOf 0)).heldAtUnit (pktOf 0) = true := by
  decide +kernel
theorem meets_FabricOperations_arrival_2 :
      (∃ r ∈ [homeOf 6], r.pkt.seq = (pktOf 6).seq)
    ∧ (∀ r ∈ [homeOf 6], r.pkt.seq ≠ (pktOf 7).seq)
    ∧ ((intoBed 5 [homeOf 6]).openStream (pktOf 7)).reorderBytes + pktBytes (pktOf 7) ≤ 65536
    ∧ (let big : HomeOp := { homeOf 6 with pkt := { pktOf 6 with data := List.replicate 600 0 } }
       65536 < ((intoBed 5 (List.replicate 128 big)).openStream (pktOf 7)).reorderBytes + pktBytes (pktOf 7)
       ∨ 65536 < ((intoBed 5 (List.replicate 4096 (homeOf 6))).openStream (pktOf 7)).reorderBytes + pktBytes (pktOf 7)) := by
  decide +kernel

theorem meets_FabricOperations_home :
      { quiet with fabric := { quiet.fabric with st := 3 } }.fabric.st = 3
    ∧ quiet.fabric.st ≠ 3
    ∧ (∀ k ∈ [HomeKind.load, .store, .atomic, .writeBack, .ownerChange, .probe, .release, .notice, .writeBackAsk], { homeOf 0 with kind := k }.kind = k)
    ∧ quiet.regionFor { pktOf 0 with key := 8 } 0 = none
    ∧ quiet.regionFor { pktOf 0 with offset := 4096 - 63 } 64 = none
    ∧ quiet.regionFor { pktOf 0 with offset := 4096 - 64 } 64 = some (0, region)
    ∧ (region.complete = true ∧ region.revoking = none ∧ region.mode = 0 ∧ region.owner ≠ (pktOf 0).src)
    ∧ (exportBed { region with complete := false } default).regionFor (pktOf 0) 64 = some (0, { region with complete := false })
    ∧ { region with complete := false }.copyWriter ≠ some 6 := by
  decide +kernel
theorem meets_FabricOperations_home_2 :
      (let e := { region with owner := 6 }
       (exportBed e default).regionFor (pktOf 0) 64 = some (0, e) ∧ e.owner = (pktOf 0).src ∧ (pktOf 0).ownEpoch = e.epoch ∧ (pktOf 0).ownEpoch ≠ { e with epoch := 1 }.epoch)
    ∧ (∀ m ∈ [1, 2], let e := { region with mode := m, writers := [6] }
       (exportBed e default).regionFor (pktOf 0) 64 = some (0, e) ∧ e.mode ≠ 0 ∧ (pktOf 0).src ∈ e.writers ∧ (pktOf 0).src ∉ { e with writers := [] }.writers) := by
  decide +kernel
theorem meets_FabricOperations_home_3 :
      (let e := { region with owner := 6, writers := [7] }
       (exportBed e default).regionFor (pktOf 0) 0 = some (0, e) ∧ e.mayOwn (exportBed e default).fabric.node 7 = true ∧ e.mayOwn (exportBed e default).fabric.node 5 = true
       ∧ 7 ≠ (exportBed e default).fabric.node ∧ 5 = (exportBed e default).fabric.node
       ∧ e.mode = 0 ∧ e.complete = true ∧ e.revoking = none ∧ (pktOf 0).size ≠ 0 ∧ e.owner = (pktOf 0).src ∧ (pktOf 0).ownEpoch = e.epoch)
    ∧ (let p := { pktOf 0 with size := 0 }; quiet.regionFor p 0 = some (0, region) ∧ p.size = 0 ∧ region.mayOwn quiet.fabric.node 5 = true)
    ∧ (let e := { region with owner := 6, epoch := 1 }; (exportBed e default).regionFor (pktOf 0) 0 = some (0, e) ∧ (pktOf 0).ownEpoch ≠ e.epoch)
    ∧ (quiet.regionFor (pktOf 0) 0 = some (0, region) ∧ region.owner ≠ (pktOf 0).src)
    ∧ ((pktOf 0).offset = region.base ∧ region.readOnly = false ∧ { region with readOnly := true }.readOnly = true ∧ (pktOf 0).src ∉ region.writers
       ∧ region.writers.length < 64 ∧ (pktOf 0).src ∈ { region with writers := [6] }.writers
       ∧ (pktOf 0).src ∉ { region with writers := List.replicate 64 7 }.writers ∧ 64 ≤ { region with writers := List.replicate 64 7 }.writers.length) := by
  decide +kernel
theorem meets_FabricOperations_home_4 :
      { homeOf 0 with kind := .probe }.onLine = false
    ∧ (homeOf 0).onLine = true
    ∧ (∀ u < 8, (quiet.entries u).length < 64 ∧ NMap.get [] quiet.fabric.waiting u = [])
    ∧ NMap.get [] (waitingUnit 7 quiet).fabric.waiting 7 = [homeOf 0]
    ∧ ((waitingUnit 7 quiet).entries 7).length < 64 := by
  decide +kernel
/-- No line is busy in the full units, whichever unit an address has; and one whose line is busy in every unit. -/
theorem units_idle : ∀ u < 8, (((fullUnits quiet).entries u).any (·.line = 0)) = false ∧ ¬ ((fullUnits quiet).entries u).length < 64
    ∧ (((waitingUnit 7 (fullUnits quiet)).entries u).any (·.line = 0)) = false ∧ ¬ ((waitingUnit 7 (fullUnits quiet)).entries u).length < 64 := by decide +kernel
def allBusy : State :=
  { quiet with fabric := { quiet.fabric with units := (List.range 8).map fun u => (u, [{ line := 0, drained := quiet.now + 5 }]) } }
theorem units_busy : ∀ u < 8, ((allBusy.entries u).any (·.line = 0)) = true := by decide +kernel
theorem meets_FabricOperations_home_5 :
      ¬ ((fullUnits quiet).lineBusy (homeOf 0).pkt.offset = true ∨ (((fullUnits quiet).entries (homeUnitOf 0)).length < 64
          ∧ NMap.get [] (fullUnits quiet).fabric.waiting (homeUnitOf 0) = []))
    ∧ ¬ ((waitingUnit 7 (fullUnits quiet)).lineBusy (homeOf 0).pkt.offset = true ∨ ((waitingUnit 7 (fullUnits quiet)).entries 7).length < 64)
    ∧ allBusy.lineBusy (homeOf 0).pkt.offset = true := by
  have hu : homeUnitOf 0 < 8 := Nat.mod_lt _ (by decide)
  refine ⟨fun h => ?_, fun h => ?_, units_busy _ hu⟩
  · rcases h with h | h
    · exact Bool.noConfusion ((units_idle _ hu).1.symm.trans h)
    · exact (units_idle _ hu).2.1 h.1
  · rcases h with h | h
    · exact Bool.noConfusion ((units_idle _ hu).2.2.1.symm.trans h)
    · exact (units_idle 7 (by decide)).2.2.2 h

theorem meets_FabricOperations_requester :
      NMap.get none quiet.fabric.out 6 = none
    ∧ (let s := streamBed default
       let st : StreamOut := { epoch := 0, next := 4, acked := 2, pending := [outOf 0], lastAck := 3960000000 }
       NMap.get none s.fabric.out 6 = some st ∧ 1 ≠ st.epoch ∧ st.pending.countP (fun o => s.now ≥ o.sentAt + usec 200) ≠ 0 ∧ s.fabric.st ≠ 3
       ∧ st.pending ≠ [] ∧ st.lastAck + msec 10 ≤ s.now)
    ∧ (let o : Outstanding := { outOf 0 with sentAt := 3999200001 }
       let st : StreamOut := { epoch := 0, next := 4, acked := 2, pending := [o], lastAck := 3960000001 }
       st.pending.countP (fun o => quiet.now ≥ o.sentAt + usec 200) = 0 ∧ quiet.now < st.lastAck + msec 10)
    ∧ (let s := streamBed default
       let b := { s with fabric := { s.fabric with st := 3 } }
       (NMap.get none b.fabric.out 6).isSome = true ∧ b.fabric.st = 3)
    ∧ (∀ x ∈ [(3960000000, true), (3960000001, false)],
        let o : Outstanding := { outOf 9 with issuedAt := x.1 }
        let st : StreamOut := { epoch := 0, next := 4, acked := 2, pending := [o], lastAck := 3960000001 }
        let s := { quiet with fabric := { quiet.fabric with out := [(6, some st)] } }
        NMap.get none s.fabric.out 6 = some st ∧ s.now < st.lastAck + msec 10
        ∧ st.pending.any (fun o => o.kind = 9 && s.now ≥ o.issuedAt + msec 10) = x.2) := by
  decide +kernel
theorem meets_FabricOperations_requester_2 :
      (quiet.fabric.st ≠ 0 ∧ quiet.fabric.fenced = false ∧ quiet.importsOf 6 4096 = [0] ∧ quiet.importsOf 6 0 = [])
    ∧ (detachedBed default).fabric.st = 0
    ∧ (fencedBed default).fabric.fenced = true := by
  decide +kernel

/-- The bed with port `p` in state `x`, node 6 of rank 1 behind it. -/
def wpBed (p : Nat) (x : WfPort) : State :=
  let s := quiet
  ({ s with fabric := { s.fabric with neighbours := [(p, some (6, 1))] } }).setWfPort p x
def wpOf (st : Nat) : WfPort := { WfPort.init with st := st, credit := [(0, 768), (1, 768), (2, 768), (3, 768)], shared := 5120 }
/-- A packet at the output of channel `v` from port `f`. -/
def outPkt (f : Nat) : OutPkt := { bytes := 64, src := 5, dst := 6, from_ := f, at_ := 0, losses := 8 }
def lockedLease (c : Cmd) : State := let s := bed c; { s with fabric := { s.fabric with leased := true, expiry := some 9000000000000, leaseSeq := some 5 } }
theorem meets_Links :
      (let s := { quiet with fabric := { quiet.fabric with expiry := some 4000000000 } }
     s.fabric.expiry = some 4000000000 ∧ s.fabric.st = 1 ∧ s.fabric.fenced = false ∧ 4000000000 ≤ s.now)
    ∧ quiet.fabric.expiry = none
    ∧ (let s := { quiet with fabric := { quiet.fabric with expiry := some 4000000001 } }
       ∀ t ∈ [4000000001], s.fabric.expiry = some t ∧ s.now < t)
    ∧ (let c := cmdFor 0x4020 (pk [(8, 6), (4, 1000), (4, 0), (8, 0), (2, 6)])
       Ready (lockedLease c) 0x4020 1 c ∧ checkLeaseSet (lockedLease c) c = none ∧ lsForwards (lockedLease c) c = true) := by
  unfold Ready; decide +kernel
theorem meets_Links_2 :
      (let c := cmdFor 0x4020 (pk [(8, 5), (4, 1000), (4, 0), (8, 0), (2, 0xFFFF)])
       Ready (lockedLease c) 0x4020 1 c ∧ checkLeaseSet (lockedLease c) c = none ∧ lsForwards (lockedLease c) c = false
       ∧ ((lockedLease c).fabric.leaseSeq.map fun n => decide (c.p 0 8 ≤ n)).getD false = true)
    ∧ (let c := cmdFor 0x4020 (pk [(8, 6), (4, 60000000), (4, 0), (8, 0), (2, 5)])
       Ready (lockedLease c) 0x4020 1 c ∧ checkLeaseSet (lockedLease c) c = none ∧ lsForwards (lockedLease c) c = false
       ∧ ((lockedLease c).fabric.leaseSeq.map fun n => decide (c.p 0 8 ≤ n)).getD false = false) := by
  unfold Ready; decide +kernel
theorem meets_Links_remote :
      (let c := { cmdFor 0x4020 (pk [(8, 6), (4, 1000), (4, 0), (8, 9), (2, 5)]) with entry := .remote }
       Ready (lockedLease c) 0x4020 1 c ∧ c.entry = .remote ∧ checkLeaseSet (lockedLease c) c = some (stKeyRejected, []))
    ∧ (let c := due 0x4020 []; (bed c).cmd? 1 = some c ∧ c.opcode = 0x4020 ∧ c.stage = .waiting ∧ c.since + msec 10 ≤ (bed c).now)
    ∧ (let c := early 0x4020 []; (bed c).cmd? 1 = some c ∧ ¬ (c.since + msec 10 ≤ (bed c).now)) := by
  unfold Ready; decide +kernel
theorem meets_Links_3 :
      (let c := cmdFor 0x4021 (pk [(1, 2)])
       Ready (bed c) 0x4021 1 c ∧ c.p 0 1 = 2 ∧ (bed c).fabric.exports ≠ []
       ∧ Ready { bed c with fabric := { (bed c).fabric with exports := [] } } 0x4021 1 c)
    ∧ (8 ≤ 8 ∧ (wpBed 7 (wpOf 2)).wfPort 7 = wpOf 2 ∧ (wpBed 7 (wpOf 2)).wfPort 7 ≠ wpOf 1 ∧ ((wpBed 7 (wpOf 3)).wfPort 7).st ≠ 1 ∧ ((wpBed 7 (wpOf 3)).wfPort 7).st ≠ 2
       ∧ (wpBed 7 (wpOf 3)).pw.refLost.testBit 1 = false)
    ∧ (let s := wpBed 7 (wpOf 2)
       let n : Neighbour := { trained := true, node := 6, partition := 0, epoch := 0, rank := 1, fourLanes := false, delay := 100 }
       7 < 8 ∧ (s.wfPort 7).st = 2 ∧ n.trained = true ∧ n.fourLanes = false ∧ s.pw.refLost.testBit 1 = false ∧ fencingCause s 7 n = 0
       ∧ fencingCause s 7 { n with node := 7 } ≠ 0)
    ∧ (let s := wpBed 7 (wpOf 1)
       let n : Neighbour := { trained := true, node := 6, partition := 0, epoch := 0, rank := 1, fourLanes := true, delay := 100 }
       7 < 8 ∧ (s.wfPort 7).st = 1 ∧ n.trained = true ∧ fencingCause s 7 n = 0 ∧ fencingCause s 7 { n with rank := 2 } ≠ 0 ∧ { n with trained := false }.trained = false) := by
  unfold Ready; decide +kernel
theorem meets_Links_4 :
      ((wpOf 2).live = true ∧ (wpOf 3).live = true ∧ (wpOf 1).st = 1 ∧ (wpOf 4).live = false ∧ ((wpOf 4).st ≠ 1 ∨ DownCause.mismatch ≠ DownCause.mismatch))
    ∧ (let s := wpBed 7 { wpOf 0 with since := 3960000000 }
       7 < 8 ∧ s.portUsed 7 = true ∧ (s.wfPort 7).st = 0 ∧ (s.wfPort 7).since + msec 10 ≤ s.now ∧ s.portUsed 6 = false)
    ∧ (let s := wpBed 7 (wpOf 4)
       7 < 8 ∧ (s.wfPort 7).st = 4 ∧ (s.wfPort 7).since + msec 1000 ≤ s.now ∧ (s.wfPort 0).st ≠ 4) := by
  decide +kernel
theorem meets_Links_5 :
      (let s := wpBed 7 (wpOf 2)
       let f : LinkFrame := { seq := 0, ack := 0, again := false, uncorrectable := 0, crcOk := true, corrected := 0, packets := [], credits := [] }
       let x := s.wfPort 7
       let z := ((f.credits.foldl (fun (x : WfPort) c => x.returnCredit c.1 c.2) { x with rxSeq := (x.rxSeq + 1) % 2 ^ 32 }).acknowledge f.ack).enter f.packets
       x.live = true ∧ ¬ (0 < f.uncorrectable ∨ f.crcOk = false) ∧ 0 < { f with uncorrectable := 1 }.uncorrectable ∧ f.seq = x.rxSeq ∧ { f with seq := 1 }.seq ≠ x.rxSeq
       ∧ (x.enter f.packets).fits = true ∧ (x.enter (List.replicate 300 (0, 6, 5, 1024))).fits = false ∧ z.tries < 4 ∧ f.again = false ∧ { f with again := true }.again = true
       ∧ x.replayed < { x with frames := [f] }.frames.length ∧ x.frames.length ≤ x.replayed ∧ x.frames.length < 234 ∧ x.winner s.now = none)
    ∧ (let s := wpBed 7 { wpOf 2 with tries := 4, frames := [default], replayed := 1 }
       let x := s.wfPort 7
       let z := ({ x with rxSeq := (x.rxSeq + 1) % 2 ^ 32 }.acknowledge 0).enter []
       x.live = true ∧ 4 ≤ z.tries)
    ∧ (let x := { wpOf 2 with frames := List.replicate 234 default, replayed := 234 }; x.frames.length ≤ x.replayed ∧ 234 ≤ x.frames.length)
    ∧ (∀ f ∈ [7, 8], let x := { wpOf 2 with out := [(0, [outPkt f])] }
       x.winner quiet.now = some (0, 2) ∧ channelHead (NMap.get [] x.out 0) = some (outPkt f)) := by
  decide +kernel

/-- The bed with the receive header of a region in its first bytes: 1 sender, tokens 1 and 2. -/
def receiveBed (e : Export) (magic : Nat) : State :=
  (exportBed e default).setObj 0 1 (some { objT2 with store := Memory.writeN [] 0 (pk [(4, magic), (2, 1), (10, 0), (4, 1), (4, 2)]) })
theorem meets_SignalsAndBarriers :
      (seqCovered ((0 + 2 ^ 32 - 1) % 2 ^ 32) (2 ^ 32 - 1) = true ∧ seqCovered ((0 + 2 ^ 32 - 1) % 2 ^ 32) 0 = false)
    ∧ (quiet.regionFor { pktOf 0 with key := 8 } 0 = none ∧ quiet.regionFor (pktOf 0) 0 = some (0, region))
    ∧ (let e := { region with remoteCmd := false }; (exportBed e default).regionFor (pktOf 0) 0 = some (0, e) ∧ e.complete = true ∧ e.revoking = none)
    ∧ (let e := { region with revoking := some 1 }; (exportBed e default).regionFor (pktOf 0) 0 = some (0, e) ∧ e.revoking.isSome = true)
    ∧ quiet.contextCheck 0x3001 0 0 = none
    ∧ (quiet.contextCheck 0x3001 2 0).isSome = true
    ∧ (NMap.get false quiet.fabric.members 6 = true ∧ NMap.get false quiet.fabric.members 7 = false ∧ { quiet with fabric := { quiet.fabric with st := 3 } }.fabric.st = 3)
    ∧ (∀ x ∈ [(2 ^ 32 - 1, true), (0, false)], quiet.signalDue (pktOf 0) x.1 = x.2) := by
  decide +kernel
theorem meets_SignalsAndBarriers_2 :
      (let s := receiveBed region 0x56434552
       rxMagic s region = true ∧ (receiveArrival s 0 region 1).2 = none ∧ (receiveArrival s 0 region 2).2 = none ∧ (receiveArrival s 0 region 3).2.isSome = true)
    ∧ rxMagic (receiveBed region 0) region = false
    ∧ Starts bed 0x3004 checkBarrierArm (pk [(1, 15), (3, 0), (4, 4000), (4, 1)])
    ∧ (let s := wpBed 1 (wpOf 2)
       s.sidebandIn 1 = true ∧ s.sidebandIn 0 = false ∧ { s with fabric := { s.fabric with parent := 1 } }.fabric.parent = 1)
    ∧ ((quiet.barrier 15).release = none) := by
  unfold Starts Ready; decide +kernel
theorem meets_SignalsAndBarriers_3 :
      (let c := due 0x3004 (pk [(1, 15), (3, 0), (4, 4000), (4, 10000)])
       let s (l : Int) := (bed c).setBarrier 15 { (bed c).barrier 15 with armed := some 1, release := some (l, 3999999000) }
       ((s 1000).barrier 15).release = some (1000, 3999999000) ∧ ((s 1000).barrier 15).armed = some 1 ∧ (s 1000).cmd? 1 = some c
       ∧ (3999999000 : Int) + max 1000 0 ≤ ((s 1000).now : Int) ∧ ((s 1001).now : Int) < (3999999000 : Int) + max 1001 0
       ∧ c.opcode = 0x3004 ∧ c.stage = .waiting ∧ c.p 8 4 ≠ 0 ∧ c.since + usec (c.p 8 4) ≤ (s 1000).now
       ∧ ((s 1001).barrier 15).release = some (1001, 3999999000) ∧ ((c.since + usec (c.p 8 4) : Nat) : Int) < (3999999000 : Int) + max 1001 0
       ∧ (3999999000 : Int) + max 1000 0 ≤ ((c.since + usec (c.p 8 4) : Nat) : Int)
       ∧ ((bed c).barrier (c.p 0 1)).release = none) := by
  decide +kernel
theorem meets_SignalsAndBarriers_4 :
      (let c := early 0x3004 (pk [(1, 15), (3, 0), (4, 4000), (4, 10000)]); (bed c).cmd? 1 = some c ∧ ¬ (c.since + usec (c.p 8 4) ≤ (bed c).now)) := by
  decide +kernel

theorem meets_SignalsAndBarriers_child (h : Config.barrierChild 5 1 = true) : (wpBed 1 (wpOf 2)).barrierChildren.contains 1 = true := by
  have hp : ((wpBed 1 (wpOf 2)).fabric.parent, (wpBed 1 (wpOf 2)).fabric.node) = (255, 5) := by decide +kernel
  have hn : (NMap.get none (wpBed 1 (wpOf 2)).fabric.neighbours 1).isSome = true := by decide +kernel
  injection hp with hp hq
  simp [State.barrierChildren, List.mem_filter, hp, hq, hn, h]

/-! ### An image with no neighbours -/

/-- The bytes up to the members of an image of node 0 alone. -/
def imageHead (crc : Nat) : List Byte :=
  pk [(4, 1), (4, 139328), (2, 0), (2, 0), (4, 0), (2, 0), (1, 0xFF), (5, 0), (4, crc), (4, 0), (8, 2 ^ 64 - 1), (8, 2 ^ 64 - 1), (16, 0), (1, 1)]
def imageOf (crc : Nat) : List Byte := imageHead crc ++ List.replicate (imageLength - 65) 0
def imageCrc : Nat := crc32c ((imageOf 0).take 24 ++ leBytes 4 0 ++ (imageOf 0).drop 28)
/-- The module detached, the image in host memory at 0; and joined to the partition of the image. -/
def imageBed (c : Cmd) : State := { detachedBed c with host := [(0, Memory.writeN [] 0 (imageHead imageCrc))] }
def joinOf : Cmd := cmdFor 0x4021 (pk [(32, 0)])
def routesOf : Cmd := cmdFor 0x4021 (pk [(1, 1), (31, 0)])
def joinedBed (c : Cmd) : State :=
  let s := imageBed c
  { s with fabric := { s.fabric with st := 1, fenced := false, node := 0, rank := 0, members := imgMembers (imageOf imageCrc).toArray } }

theorem readN_head (bs : List Byte) (n : Nat) (h : bs.length ≤ n) :
    Memory.readN (Memory.writeN [] 0 bs) 0 n = bs ++ List.replicate (n - bs.length) 0 := by
  have hw : Memory.wf (Memory.writeN [] 0 bs) = true := Memory.wf_writeN rfl 0 bs
  have hr : ∀ (m : Memory) (a : Nat) (bs : List Byte) (x : Nat), Memory.wf m = true →
      Memory.read (Memory.writeN m a bs) x = if a ≤ x ∧ x < a + bs.length then bs.getD (x - a) 0 else Memory.read m x := by
    intro m a bs
    induction bs generalizing m a with
    | nil => intro x _; rw [if_neg (by simp)]; rfl
    | cons b bs ih =>
      intro x hm
      rw [Memory.writeN, ih _ _ x (Memory.wf_write hm a b)]
      have hg : Memory.read (Memory.write m a b) x = if x = a then b else Memory.read m x := NMap.get_set hm a b x
      rw [hg]
      by_cases h1 : x = a
      · subst h1; simp
      · by_cases h2 : a + 1 ≤ x ∧ x < a + 1 + bs.length
        · rw [if_pos h2, if_pos (by simp; omega)]
          obtain ⟨k, rfl⟩ : ∃ k, x = a + 1 + k := ⟨x - (a + 1), by omega⟩
          have e1 : a + 1 + k - (a + 1) = k := by omega
          have e2 : a + 1 + k - a = k + 1 := by omega
          rw [e1, e2]; simp
        · rw [if_neg h2, if_neg h1, if_neg (by simp; omega)]
  rw [Memory.readN_eq hw]
  refine List.ext_getElem (by simp; omega) fun i h1 h2 => ?_
  simp only [List.getElem_map, List.getElem_range, hr [] 0 bs _ rfl, Nat.zero_le, Nat.zero_add, true_and, Nat.sub_zero]
  by_cases h3 : i < bs.length
  · rw [if_pos h3, List.getElem_append_left h3]; simp [h3]
  · rw [if_neg h3, List.getElem_append_right (by omega)]; simp [Memory.read, NMap.get]

theorem head_length (v : Nat) : (imageHead v).length = 65 := rfl
theorem leNat_leBytes (n v : Nat) : leNat (leBytes n v) = v % 256 ^ n := by
  induction n generalizing v with
  | zero => simp [leBytes, leNat, Nat.mod_one]
  | succ n ih =>
    rw [leBytes, leNat, ih, Nat.pow_succ, Nat.mul_comm (256 ^ n) 256, Nat.mod_mul]
    simp

theorem crc32c_lt (bs : List Byte) : crc32c bs < 2 ^ 32 := by
  have hs : ∀ c b, c < 2 ^ 32 → crcByte c b < 2 ^ 32 := by
    intro c b hc
    have hb : ∀ c, c < 2 ^ 32 → crcBit c < 2 ^ 32 := by
      intro c hc
      unfold crcBit
      split
      · exact Nat.xor_lt_two_pow (by omega) (by decide)
      · omega
    exact hb _ (hb _ (hb _ (hb _ (hb _ (hb _ (hb _ (hb _ (Nat.xor_lt_two_pow hc (by have := b.isLt; omega)))))))))
  have hf : ∀ (bs : List Byte) c, c < 2 ^ 32 → bs.foldl crcByte c < 2 ^ 32 := by
    intro bs
    induction bs with
    | nil => intro c h; exact h
    | cons b bs ih => intro c h; exact ih _ (hs c b h)
  exact Nat.xor_lt_two_pow (hf bs _ (by decide)) (by decide)

theorem imageBytes_eq (c : Cmd) (he : c.entry = .pf) (hp : c.p 16 8 = 0) : (imageBed c).imageBytes c = imageOf imageCrc := by
  have hm : (imageBed c).hostMem 0 = Memory.writeN [] 0 (imageHead imageCrc) := by simp only [State.hostMem, imageBed, NMap.get, if_true]
  rw [State.imageBytes, if_neg (by simp [he]), hp, hm, readN_head _ _ (by rw [head_length]; decide), head_length, imageOf]

theorem image_getD (v i : Nat) : (imageOf v).toArray.getD i 0 = (imageHead v).getD i 0 := by
  simp only [Array.getD_eq_getD_getElem?, List.getElem?_toArray, imageOf, List.getD_eq_getElem?_getD]
  by_cases h : i < 65
  · rw [List.getElem?_append_left (by rw [head_length]; exact h)]
  · rw [List.getElem?_append_right (by rw [head_length]; omega), head_length, List.getElem?_eq_none (l := imageHead v) (by rw [head_length]; omega)]
    simp [List.getElem?_replicate]
    split <;> rfl

theorem image_member (v n : Nat) : imgMember (imageOf v).toArray n = decide (n = 0) := by
  unfold imgMember
  rw [image_getD]
  by_cases h : n < 8
  · have : n / 8 = 0 := by omega
    rw [this]
    have h64 : (imageHead v).getD (64 + 0) 0 = 1 := rfl
    rw [h64]
    interval_cases n <;> decide
  · rw [List.getD_eq_getElem?_getD, List.getElem?_eq_none (by rw [head_length]; omega)]
    simp; omega

theorem image_node (v p : Nat) (h : p < 8) : imgNode (imageOf v).toArray p = 0xFFFF := by
  unfold imgNode imgHalf
  have h1 : (imageHead v).getD (32 + 2 * p) 0 = 0xFF := by interval_cases p <;> rfl
  have h2 : (imageHead v).getD (32 + 2 * p + 1) 0 = 0xFF := by interval_cases p <;> rfl
  rw [image_getD, image_getD, h1, h2]
  decide

theorem image_route (v d cls : Nat) : imgRoute (imageOf v).toArray d cls = 0 := by
  unfold imgRoute
  rw [image_getD, List.getD_eq_getElem?_getD, List.getElem?_eq_none (by rw [head_length]; omega)]
  rfl

theorem image_routes (v : Nat) : badRoute (imageOf v).toArray 0 0 = none := by
  unfold badRoute
  rw [List.findSome?_eq_none_iff]
  intro k _
  rw [if_pos]
  unfold routeOk
  rw [image_member, image_route]
  by_cases h : k / 2 = 0 <;> simp [h]

theorem image_used (v : Nat) : ((List.range 8).filter fun p => imgNode (imageOf v).toArray p ≠ 0xFFFF) = [] := by
  rw [List.filter_eq_nil_iff]
  intro p hp
  rw [image_node v p (List.mem_range.1 hp)]
  simp

theorem image_field (v o n : Nat) (h : o + n ≤ 65) : fieldAt (imageOf v) o n = fieldAt (imageHead v) o n := by
  unfold fieldAt imageOf
  rw [List.drop_append_of_le_length (by rw [head_length]; omega), List.take_append_of_le_length (by rw [List.length_drop, head_length]; omega)]

theorem head_fields (v : Nat) : fieldAt (imageHead v) 24 4 = leNat (leBytes 4 v) ∧ (imageHead v).take 24 = (imageHead 0).take 24
    ∧ (imageHead v).drop 28 = (imageHead 0).drop 28 ∧ zeroAt (imageHead v) 19 5 = true ∧ zeroAt (imageHead v) 28 4 = true
    ∧ fieldAt (imageHead v) 0 4 = leNat (leBytes 4 1) ∧ fieldAt (imageHead v) 4 4 = leNat (leBytes 4 139328)
    ∧ fieldAt (imageHead v) 8 2 = leNat (leBytes 2 0) ∧ fieldAt (imageHead v) 10 2 = leNat (leBytes 2 0)
    ∧ fieldAt (imageHead v) 12 4 = leNat (leBytes 4 0) ∧ fieldAt (imageHead v) 16 2 = leNat (leBytes 2 0) :=
  ⟨rfl, rfl, rfl, rfl, rfl, rfl, rfl, rfl, rfl, rfl, rfl⟩

theorem image_header : imageHeader (imageOf imageCrc) 0 0 0 0 = true := by
  obtain ⟨f1, f2, f3, f4, f5, f6, f7, f8, f9, f10, f11⟩ := head_fields imageCrc
  have h1 : fieldAt (imageHead imageCrc) 24 4 = imageCrc := by
    rw [f1, leNat_leBytes, Nat.mod_eq_of_lt]
    exact crc32c_lt _
  have ht : (imageOf imageCrc).take 24 = (imageOf 0).take 24 := by
    unfold imageOf
    rw [List.take_append_of_le_length (by rw [head_length]; omega), List.take_append_of_le_length (by rw [head_length]; omega), f2]
  have hd : (imageOf imageCrc).drop 28 = (imageOf 0).drop 28 := by
    unfold imageOf
    rw [List.drop_append_of_le_length (by rw [head_length]; omega), List.drop_append_of_le_length (by rw [head_length]; omega), f3]
  have hz : ∀ o n, o + n ≤ 65 → zeroAt (imageOf imageCrc) o n = zeroAt (imageHead imageCrc) o n := by
    intro o n h
    unfold zeroAt imageOf
    rw [List.drop_append_of_le_length (by rw [head_length]; omega), List.take_append_of_le_length (by rw [List.length_drop, head_length]; omega)]
  unfold imageHeader
  rw [ht, hd, hz 19 5 (by omega), hz 28 4 (by omega), image_field _ 0 4 (by omega), image_field _ 4 4 (by omega), image_field _ 24 4 (by omega), h1,
    image_field _ 8 2 (by omega), image_field _ 10 2 (by omega), image_field _ 12 4 (by omega), image_field _ 16 2 (by omega),
    f4, f5, f6, f7, f8, f9, f10, f11, leNat_leBytes, leNat_leBytes, leNat_leBytes, leNat_leBytes]
  have hc : (imageCrc == crc32c ((imageOf 0).take 24 ++ leBytes 4 0 ++ (imageOf 0).drop 28)) = true := beq_self_eq_true imageCrc
  rw [hc]
  decide

theorem meets_Links_join : Ready (imageBed joinOf) 0x4021 1 joinOf ∧ joinOf.p 0 1 = 0 ∧ checkPartitionSet (imageBed joinOf) joinOf = none := by
  refine ⟨by unfold Ready; decide +kernel, rfl, ?_⟩
  have hb : (imageBed joinOf).imageBad joinOf = false := by
    have : ∀ k, NMap.get false (imageBed joinOf).hostPoison k = false := fun _ => rfl
    have hu : (imageBed joinOf).link.up = true := rfl
    unfold State.imageBad
    simp only [this, hu]
    simp
  have hi := imageBytes_eq joinOf rfl rfl
  have hid : imageIdentity (imageBed joinOf) joinOf = (0, 0, 0, 0) := rfl
  have hu := image_used imageCrc
  have hh := image_header
  have hm := image_member imageCrc
  have hr := image_routes imageCrc
  generalize imageOf imageCrc = img at *
  unfold checkPartitionSet
  simp only [hb, hi, hid, hu, hh, hm, hr]
  rfl

theorem meets_Links_routes : Ready (joinedBed routesOf) 0x4021 1 routesOf ∧ routesOf.p 0 1 = 1 ∧ checkPartitionSet (joinedBed routesOf) routesOf = none := by
  refine ⟨by unfold Ready; decide +kernel, rfl, ?_⟩
  have hb : (joinedBed routesOf).imageBad routesOf = false := by
    have : ∀ k, NMap.get false (joinedBed routesOf).hostPoison k = false := fun _ => rfl
    have hu : (joinedBed routesOf).link.up = true := rfl
    unfold State.imageBad
    simp only [this, hu]
    simp
  have hi : (joinedBed routesOf).imageBytes routesOf = imageOf imageCrc := imageBytes_eq routesOf rfl rfl
  have hid : imageIdentity (joinedBed routesOf) routesOf = (0, 0, 0, 0) := rfl
  have hs : (joinedBed routesOf).fabric.members = imgMembers (imageOf imageCrc).toArray := by simp only [joinedBed]
  have hu := image_used imageCrc
  have hh := image_header
  have hm := image_member imageCrc
  have hr := image_routes imageCrc
  generalize imageOf imageCrc = img at *
  unfold checkPartitionSet
  simp only [hb, hi, hid, hs, hu, hh, hm, hr, beq_self_eq_true]
  rfl

def sampleParams (rows : Nat) : List Byte := pk [ref 1, ref 1, (4, rows), (4, 16), (8, 0), (4, 0x3F800000), (4, 0x3F800000), (24, 0)]
def resident (n : Nat) (g : Bool) : Resident := { tenant := 0, ctx := n, bytes := 0, guarded := g, lastUse := 0 }
/-- The bed with commands of its own, and core 0 as `f` makes it. -/
def dispatchBed (cs : List Cmd) (f : Core → Core) : State := let s := { quiet with cmds := cs }; s.setCore 0 (f (s.core 0))
def guardedBy (l : List Nat) (x : Core) : Core := { x with residents := l.map fun n => resident n true }
def waitingRadio : RadioCmd := { id := 9, cell := 0, time := 1000, disagree := false, issuedAt := 0, run := none }
def radioAt (t : Nat) : State := { dispatchBed [] id with radioCmds := [{ waitingRadio with run := some (31, t) }] }
def radioDone (die : Nat) (s : State) : Option RadioCmd :=
  s.radioCmds.find? fun r => (r.run.map fun x => decide (dieOf x.1 = die ∧ s.now ≥ x.2 + r.time)).getD false

theorem meets_Dispatchers_grant :
      (∀ op ∈ [0x2013, 0x1003], let c := { cmdFor op [] with stage := .accepted }
      (bed c).cmd? 1 = some c ∧ (bed c).mayGrant c = true ∧ ∀ d ∈ (bed c).cmds, d.tenant = c.tenant → d.id < 1 → (bed c).mayGrant d = false)
    ∧ (let c := { cmdFor 0x2013 [] with stage := .accepted }; (∃ k, k < 64 ∧ (bed c).eligible c k = true))
    ∧ coreOp 0x2013 = true
    ∧ coreOp 0x1003 = false
    ∧ (bed (cmdFor 4 [])).mayGrant (cmdFor 4 []) = false
    ∧ quiet.cmd? 1 = none := by
  decide +kernel

theorem meets_Dispatchers_start :
      ({ dispatchBed [] id with radioCmds := [waitingRadio] }).nextRadio 0 = some waitingRadio
    ∧ (quiet.nextRadio 0 = none ∧ quiet.choices 0 = [])
    ∧ ((dispatchBed [] fun x => { x with running := some 1 }).nextRadio 0 = none ∧ (dispatchBed [] fun x => { x with running := some 1 }).coreIdle 0 = false)
    ∧ (let c := cmdFor 0x2013 (sampleParams 1)
       let s := dispatchBed [c] (guardedBy [0])
       s.nextRadio 0 = none ∧ s.coreIdle 0 = true ∧ s.choices 0 = [c] ∧ (s.core 0).hosts c = true ∧ (s.contextAtStart c <|> coreOpCheck s c) = none) := by
  decide +kernel
theorem meets_Dispatchers_start_2 :
      (let c := cmdFor 0x2013 (sampleParams 1)
       let s := dispatchBed [c] (guardedBy [0])
       (s.core 0).running = none ∧ s.heldCore 0 = false ∧ s.placedOn 0 = none ∧ s.entering 0 c = .ready ∧ s.eligible c 0 = true ∧ s.stalled c.tenant = false
       ∧ s.heldBack c = false)
    ∧ (let c := cmdFor 0x2013 (sampleParams 4097)
       let s := dispatchBed [c] (guardedBy [0])
       s.choices 0 = [c] ∧ s.entering 0 c = .ready ∧ (s.contextAtStart c <|> coreOpCheck s c).isSome = true)
    ∧ (let c := { cmdFor 0x2013 (sampleParams 1) with core := some 0 }
       let s := dispatchBed [c] id
       s.nextRadio 0 = none ∧ s.placedOn 0 = some c)
    ∧ (let c := cmdFor 0x2013 (sampleParams 1)
       let s := dispatchBed [c] (guardedBy [1, 2, 3, 4])
       s.choices 0 = [c] ∧ s.entering 0 c = .full ∧ [c].find? (s.core 0).hosts = none) := by
  decide +kernel
theorem meets_Dispatchers_start_3 :
      (let c := cmdFor 0x2013 (sampleParams 1)
       let d := { c with id := 2, ctx := 1 }
       let s := dispatchBed [c, d] (guardedBy [1, 2, 3, 4])
       s.nextRadio 0 = none ∧ s.coreIdle 0 = true ∧ s.choices 0 = [c, d] ∧ s.entering 0 c = .full ∧ [c, d].find? (s.core 0).hosts = some d)
    ∧ (let c := cmdFor 0x2013 (sampleParams 1)
       let s := dispatchBed [c] fun x => { x with residents := [resident 1 false, resident 2 true, resident 3 true, resident 4 true] }
       s.eligible c 0 = true ∧ s.stalled c.tenant = false ∧ s.heldBack c = false ∧ s.entering 0 c = .spill (resident 1 false))
    ∧ (let c := cmdFor 0x2013 (sampleParams 1)
       let s := { dispatchBed [c] id with spilled := [(0, resident 0 true)] }
       s.eligible c 0 = true ∧ s.stalled c.tenant = false ∧ s.heldBack c = false ∧ s.entering 0 c = .fill) := by
  decide +kernel
theorem meets_Dispatchers_start_4 :
      (let c := cmdFor 0x2013 (sampleParams 1)
       let s := dispatchBed [c] fun x => { x with quarantined := true }
       s.eligible c 0 = false)
    ∧ (let c := cmdFor 0x2013 (sampleParams 1)
       let s := { ringOpen 128 with cmds := [c] }
       s.eligible c 0 = true ∧ s.stalled c.tenant = true)
    ∧ (let c := cmdFor 0x2013 (sampleParams 1)
       let s := dispatchBed [c] fun x => { x with filling := some (resident 0 true) }
       s.eligible c 0 = true ∧ s.entering 0 c = .wait) := by
  decide +kernel

theorem meets_Dispatchers_end :
      (∀ v ∈ [none, some (resident 1 false)], let s := dispatchBed [] fun x => { x with spilling := some (v, none) }
       (s.core 0).spilling = some (v, none))
    ∧ (let s := dispatchBed [] fun x => { x with spilling := some (some (resident 1 false), some (resident 0 true)) }
       (s.core 0).spilling = some (some (resident 1 false), some (resident 0 true)) ∧ (s.core 0).residents.length < 4 ∧ (s.core 0).filling = none)
    ∧ (let s := dispatchBed [] fun x => { x with filling := some (resident 2 true) }
       (s.core 0).filling = some (resident 2 true))
    ∧ (quiet.core 0).spilling = none
    ∧ (quiet.core 0).filling = none
    ∧ (radioDone 0 (radioAt 3999999000)).isSome = true
    ∧ radioDone 0 (radioAt 3999999001) = none
    ∧ radioDone 1 (radioAt 0) = none
    ∧ (radioAt 3999999001).nextPost 0 = none
    ∧ (let c := { cmdFor 4 [] with stage := .done }; (dispatchBed [c] id).nextPost 0 = some c ∧ radioDone 0 (dispatchBed [c] id) = none) := by
  decide +kernel
theorem meets_Dispatchers_end_2 :
      (let c := { cmdFor 4 [] with stage := .done, flags := 1 }
       let s := { ringOpen 256 with cmds := [c] }
       c.signalled = false ∧ (s.giveSignals c).recordWaits c = true ∧ (quiet.giveSignals c).recordWaits c = false)
    ∧ (let c := { coreCmd 0x2013 (sampleParams 1) with limit := 100 }
       let s (t : Nat) := dispatchBed [{ c with startedAt := t }] fun x => { x with running := some 1 }
       ((s 3999996000).core 0).running.bind (s 3999996000).cmd? = some { c with startedAt := 3999996000 } ∧ c.stage ≠ .done
       ∧ (s 3999996000).limitReached { c with startedAt := 3999996000 } = true ∧ (s 3999996001).limitReached { c with startedAt := 3999996001 } = false)
    ∧ (quiet.core 0).running.bind quiet.cmd? = none := by
  decide +kernel
theorem meets_Dispatchers_end_3 :
      (let c := coreCmd 0x2013 (sampleParams 1)
       let s := { quiet with cmds := [{ c with stage := .started, startedAt := 0 }] }
       let d := { c with stage := .started, startedAt := 0 }
       s.cmd? 1 = some d ∧ scopeC d.opcode = true ∧ d.entry ≠ .mgmt ∧ unwatched d.opcode = false ∧ s.watchedSince d = some 0
       ∧ 16 * (0 + msec (s.tenant d.tenant).watchdog) + d.slowed ≤ 16 * s.now
       ∧ ¬ (16 * (1 + msec (s.tenant d.tenant).watchdog) + d.slowed ≤ 16 * s.now))
    ∧ (let d := { cmdFor 0x1002 [] with stage := .waiting, fence := [(0, 0)] }; quiet.watchedSince d = none)
    ∧ unwatched 0x3003 = true := by
  decide +kernel
theorem meets_Dispatchers_end_4 :
      ((radioBed .running 0 default).variant.radio = true ∧ ((radioBed .running 0 default).cell 0).isSome = true
       ∧ (((radioBed .running 0 default).cell 0).map fun x => x.st.started) = some true ∧ quiet.cell 0 = none ∧ Variant.damson.radio = false)
    ∧ Starts bed 0x5020 checkRadioReserve (pk [(8, 0x0101010101010101), (4, 100)]) := by
  unfold Starts Ready; decide +kernel

/-- A SAMPLE done on core 0, checked, whose check disagreed as `d` says. -/
def disputedCmd (d : Nat) : Cmd := { coreCmd 0x2013 (sampleParams 1) with stage := .done, flags := 8, disputed := d }
/-- The bed with `c` and every core but the first `n` quarantined. -/
def coresBed (c : Cmd) (n : Nat) : State :=
  (List.range 64).foldl (fun s k => if k < n then s else s.setCore k { s.core k with quarantined := true }) { quiet with cmds := [c] }
def recordingOf : Recording := { ring := mkRef 1, bytes := 65536, sources := 1, cell := 0, end_ := 64, entries := 0, step := 0, seed := 0, version := 0x10 }
theorem meets_Dispatchers_noCore :
    (let c := { cmdFor 0x2013 [] with stage := .accepted }
     let s := coresBed c 0
     s.cmd? 1 = some c ∧ s.mayGrant c = true ∧ (∀ d ∈ s.cmds, d.tenant = c.tenant → d.id < 1 → s.mayGrant d = false) ∧ ∀ k, k < 64 → s.eligible c k = false) := by
  decide +kernel
theorem meets_RecordingAndReplay :
      Starts bed 0x9001 checkRecordStart (pk [ref 1, (8, 65536), (1, 1)])
    ∧ (let c := cmdFor 0x9002 []
       let s := (bed c).setCtx 0 0 { (bed c).ctx 0 0 with recording := some recordingOf }
       Ready s 0x9002 1 c ∧ (s.ctx 0 0).recording = some recordingOf ∧ Ready (bed c) 0x9002 1 c ∧ ((bed c).ctx 0 0).recording = none)
    ∧ Starts bed 0x9004 checkSeedSet (pk [(8, 1), (8, 2), (1, 3)])
    ∧ (let c := cmdFor 0x9003 (pk [ref 1])
       Ready (ringBed c) 0x9003 1 c ∧ checkReplayStart (ringBed c) c = none ∧ Settled runReplayStart (Begun (ringBed c) c) (begun (ringBed c) c)) := by
  unfold Starts Ready Settled; decide +kernel
theorem meets_RecordingAndReplay_ring :
      (let c := cmdFor 0x9003 (pk [ref 1]); okd (ringHead (Begun (ringBed c) c) (begun (ringBed c) c)) = true)
    ∧ (let c := cmdFor 0x9003 (pk [ref 99])
       Ready (bed c) 0x9003 1 c ∧ checkReplayStart (bed c) c = none ∧ Settled runReplayStart (Begun (bed c) c) (begun (bed c) c)
       ∧ (match ringHead (Begun (bed c) c) (begun (bed c) c) with | .ok _ => false | .error f => decide (f.1 ≠ stShape)) = true)
    ∧ (let c := cmdFor 0x9003 (pk [ref 1])
       Ready (bed c) 0x9003 1 c ∧ (match ringHead (bed c) c with | .ok _ => false | .error f => decide (f.1 = stShape)) = true)
    ∧ (quiet.ctx 0 0).recording = none := by
  unfold Ready Settled; decide +kernel
theorem meets_RecordingAndReplay_2 :
      (let c := { cmdFor 4 [] with core := some 0 }
       { quiet with cmds := [c] }.cmd? 1 = some c ∧ c.core = some 0 ∧ ¬ (coreOp c.opcode = true))
    ∧ (∀ d ∈ [0, 5, 6], let c := disputedCmd d
       let s := coresBed c 2
       s.cmd? 1 = some c ∧ c.core = some 0 ∧ coreOp c.opcode = true ∧ c.stage = .done ∧ c.status = stOK ∧ c.signalled = false ∧ readsWrites c = false
       ∧ c.checked = true ∧ ((List.range 64).filter fun j => j ≠ 0 && s.eligible c j) = [1] ∧ [1].find? s.coreIdle = some 1)
    ∧ (let s := coresBed (disputedCmd 0) 1; ((List.range 64).filter fun j => j ≠ 0 && s.eligible (disputedCmd 0) j) = []) := by
  decide +kernel
theorem meets_RecordingAndReplay_3 :
      (let s := coresBed (disputedCmd 0) 2
       let t := s.setCore 1 { s.core 1 with running := some 5 }
       ((List.range 64).filter fun j => j ≠ 0 && t.eligible (disputedCmd 0) j) = [1] ∧ [1].find? t.coreIdle = none) := by
  decide +kernel
theorem meets_RecordingAndReplay_4 :
      (∀ kind ∈ [0, 5, 6], let c := { disputedCmd 0 with replay := some (1, kind) }
       let s := coresBed c 2
       s.cmd? 1 = some c ∧ c.core = some 0 ∧ coreOp c.opcode = true ∧ c.stage = .done ∧ c.signalled = false ∧ c.replay = some (1, kind) ∧ c.status = stOK ∧ c.disputed = 0)
    ∧ (let first (kind : Nat) (o : ReplayObs) := o.passes = true ∧ (kind = 5 ∨ (kind ≠ 6 ∧ o.same = true))
       let second (kind : Nat) (o : ReplayObs) := o.passes = true ∧ (kind = 6 ∨ (o.same = false ∧ o.agrees = true))
       let p : ReplayObs := { same := false, passes := true, agrees := false }
       first 5 p ∧ first 0 { p with same := true } ∧ ¬ first 6 p ∧ second 6 p ∧ ¬ first 0 { p with agrees := true } ∧ second 0 { p with agrees := true }
       ∧ ¬ first 0 p ∧ ¬ second 0 p)
    ∧ (let c := { disputedCmd 0 with status := stOverrun }; (coresBed c 2).cmd? 1 = some c ∧ c.replay = none ∧ c.status ≠ stOK)
    ∧ ({ disputedCmd 5 with flags := 0 }.checked = false ∧ (disputedCmd 5).replay = none)
    ∧ ((quiet.core 0).suspect = false ∧ ((quiet.setCore 0 { quiet.core 0 with suspect := true }).core 0).suspect = true) := by
  decide +kernel

/-- The bed with cell 0 as `f` makes it, the output at time `t`. -/
def cellBed (st : CellState) (t : Nat) (f : Cell → Cell) (c : Cmd) : State :=
  let s := radioBed st 2 c
  { s with cells := s.cells.map fun e => (e.1, e.2.map f), sx := { s.sx with time := t } }
theorem meets_Cells :
      Starts (fun c => { plainRadioBed c with cells := [] }) 0x5001 checkCellConfig (cellParams 0 0)
    ∧ Starts plainRadioBed 0x5001 checkCellConfig (pk [(1, 0), (1, 1)])
    ∧ (∀ st ∈ [CellState.configured, .running, .holdover, .muted], Starts (radioBed st 0) 0x5002 checkCellStart (pk [(1, 0), (1, 1)]))
    ∧ (lockedBed default).sx.out = 0
    ∧ (let c := cmdFor 0x5002 (pk [(1, 0)])
       let s := { plainRadioBed c with sx := { (plainRadioBed c).sx with out := 1 } }
       Ready s 0x5002 1 c ∧ checkCellStart s c = none ∧ (c.p 1 1).testBit 0 = false) := by
  unfold Starts Ready; decide +kernel
theorem meets_Cells_2 :
      (∀ st ∈ [CellState.admitted, .configured, .running, .holdover, .muted], Starts (radioBed st 0) 0x5003 noCheck (pk [(1, 0)])
        ∧ ((radioBed st 0 default).cell 0).map Cell.st = some st)
    ∧ (Starts bed 0x5003 noCheck (pk [(1, 0)]) ∧ (bed default).cell 0 = none)
    ∧ (let s (t : Nat) := cellBed .configured t (fun x => { x with starting := some ([1], 40000000) }) default
       (((s 40000000).cell 0).bind Cell.starting) = some ([1], 40000000) ∧ (s 39999999).sx.time < 40000000 ∧ 40000000 ≤ (s 40000000).sx.time)
    ∧ (∀ op ∈ [0x5010, 0x5011], Starts plainRadioBed op checkFapi (pk [(1, 0), (1, 1), (2, 1), (4, 8), (8, 64), (8, 0)])) := by
  unfold Starts Ready; decide +kernel
theorem meets_Cells_3 :
      (let c := cmdFor 0x5011 (pk [(1, 0), (1, 1), (2, 1), (4, 8), (8, 64), (8, 0)])
       let s := { plainRadioBed c with hostPoison := [(hostLine 0 64, true)] }
       Ready s 0x5011 1 c ∧ checkFapi s c = none ∧ (fapiMessages (Begun s c) (begun s c)).toOption = none)
    ∧ (let s := cellBed .running 0 id default
       (s.cell 0).isSome = true ∧ ((s.cell 0).map fun x => s.deadlinePassed x 0 1) = some true ∧ ((s.cell 0).map fun x => s.deadlinePassed x 0 4) = some false)
    ∧ (∀ st ∈ [CellState.running, .configured], ((cellBed st 0 id default).cell 0).map Cell.st = some st) := by
  unfold Ready; decide +kernel
/-- A block that holds one message, and a message of the kinds P7 takes, where there are such. -/
theorem meets_Cells_message (bs : List Byte) (hl : bs.length = 8) (h : Config.fapiLength bs = 8) : (cutMessages 1 bs).isSome = true := by
  simp [cutMessages, h, hl]
theorem meets_Cells_4 (m : List Byte) (h : Config.fapiKind m = 4) : ¬ (Config.fapiKind m < 4 ∨ 7 < Config.fapiKind m) ∧ 4 ≤ Config.fapiKind m ∧ Config.fapiKind m ≤ 7 := by
  simp [h]

theorem meets_SlotsAndHead :
      quiet.cell 0 = none
    ∧ (∀ st ∈ [CellState.running, .holdover, .muted], let s := cellBed st 2000000 id default
       (s.cell 0).map (fun x => (x.st.started, decide (s.slotNow x ≠ (x.sfn, x.slot)), x.stopping, x.st, x.mutePending)) = some (true, true, [], st, false))
    ∧ (let s := cellBed .running 1999999 id default; (s.cell 0).map (fun x => decide (s.slotNow x = (x.sfn, x.slot))) = some true)
    ∧ (let s := cellBed .running 2000000 (fun x => { x with stopping := [1] }) default; (s.cell 0).map (fun x => decide (x.stopping ≠ [])) = some true)
    ∧ (let s := cellBed .holdover 2000000 (fun x => { x with mutePending := true }) default; (s.cell 0).map Cell.mutePending = some true) := by
  decide +kernel
theorem meets_SlotsAndHead_2 :
      (let s := cellBed .running 0 id default
       (s.cell 0).map (fun x => (x.windows.contains (13, true), x.noUplink, x.head.isSome, cfAnt x.config)) = some (false, false, true, 4) ∧ 13 ≤ 13)
    ∧ (let s := cellBed .running 0 (fun x => { x with windows := [(13, true), (13, false)] }) default
       (s.cell 0).map (fun x => (x.windows.contains (13, true), x.windows.contains (13, false))) = some (true, true))
    ∧ (let s := cellBed .running 0 (fun x => { x with noUplink := true, windows := [(13, true)] }) default
       (s.cell 0).map (fun x => (x.windows.contains (13, true), x.noUplink)) = some (true, true))
    ∧ (let s := radioBed .running 0 default
       let d : DeadlineObs := { (default : DeadlineObs) with dir := 1, step := 2 }
       (s.cell 0).map (fun x => (cfSplit x.config, x.st)) = some (0, .running) ∧ d.dir = 1 ∧ d.step = 2 ∧ ¬ ((default : DeadlineObs).dir = 0 ∧ (default : DeadlineObs).step = 5))
    ∧ ((default : DeadlineObs).dir ≤ 2 ∧ (default : DeadlineObs).dir ≠ 2 ∧ { (default : DeadlineObs) with met := true }.met = true ∧ (default : DeadlineObs).met = false) := by
  decide +kernel
theorem meets_SlotsAndHead_3 :
      (let h := Head.init 4
       h.flags.testBit 0 = true ∧ NMap.get none h.prev 3 = none ∧ h.frozen = false ∧ (-1400 : Int) ≤ 25 * (h.target + h.hysteresis)
       ∧ 25 * (h.target + h.hysteresis) < (-1399 : Int) ∧ 3 < 4 ∧ ¬ (h.flags.testBit 1 = false ∨ (0 : Int) < h.hold) ∧ (h.flags.testBit 1 = false ∨ (-1 : Int) < h.hold))
    ∧ ((radioBed .running 0 default).cell 0).map Cell.head = some none
    ∧ (let ps := pk [(1, 0), (1, 0), (1, 3), (1, 0), (2, 65536 - 4), (1, 40), (1, 4), (1, 16), (1, 8), (1, 6), (1, 0), (4, 1000000), (4, 0), (2, 300)]
       Starts (radioBed .running 2) 0x5030 checkHeadControl ps) := by
  unfold Starts Ready; decide +kernel
theorem meets_SlotsAndHead_4 :
      Starts (radioBed .running 2) 0x5030 checkHeadControl (pk [(1, 0), (1, 1), (1, 0), (1, 3), (12, 0), (4, 255)])
    ∧ Starts (radioBed .running 2) 0x5030 checkHeadControl (pk [(1, 0), (1, 2), (1, 0), (1, 0), (12, 0), (4, 10000000)])
    ∧ Starts (radioBed .running 2) 0x5030 checkHeadControl (pk [(1, 0), (1, 3)]) := by
  unfold Starts Ready; decide +kernel

/-- An engine's address of byte `o` of cluster 7's shared memory, and of one past its end. -/
def sharedAt (o : Nat) : Nat := 2 ^ 39 + 7 * 2 ^ 36 + o
def hdrOf : DescHdr := { cell := 0, sfn := 1023, slot := 255, flag := 255, reserved := 0, memError := false }
def fftOf (input : Nat) : FftDesc :=
  { hdr := hdrOf, size := 0, flags := 0, cp := 32, symbols := 1, nsc := 2, schedule := 0, input := input, output := sharedAt 4096, exponents := sharedAt 0 }
def mapOf (m : Nat) : MapDesc :=
  { hdr := hdrOf, map := m, entries := 0, symbol := 13, input := sharedAt 0, output := sharedAt 0, weights := sharedAt 0, weightMode := false, llrScale := 15, evmSums := sharedAt 0 }
def ldpcOf (input : Nat) : LdpcDesc :=
  { hdr := hdrOf, bg := 2, z := 2, k := 20, filler := 0, e := 4, rv := 3, qm := 1, ncb := 4, combine := false, writeback := false, crcType := 2, tbCrc := true,
    maxIter := 1, input := input, harq := sharedAt 0, output := sharedAt 4096 }
def polarDescOf (input : Nat) : PolarDesc :=
  { hdr := hdrOf, uplink := true, n := 32, k := 12, e := 16, crcBits := 11, list := 8, input := input, output := sharedAt 4096 }
def prachOf (input : Nat) : PrachDesc :=
  { hdr := hdrOf, lra := 139, roots := [1], ncs := 0, antennas := 1, repetitions := 1, thr := 0, restricted := 0, deltaF := 15000, mu := 0, input := input }
def isOk {α : Type} (x : Except Nat α) : Bool := match x with | .ok _ => true | .error _ => false

/-- A module with a cell that runs. -/
def engineBed : State := radioBed .running 0 default
theorem meets_Engines :
      (∀ e ∈ [0, 15], engineBed.engineReady e 0 15 = true)
    ∧ engineBed.engineReady 16 0 15 = false
    ∧ quiet.engineReady 0 0 15 = false
    ∧ (∀ e ∈ [16, 23], engineBed.engineReady e 16 23 = true)
    ∧ (∀ e ∈ [24, 27], engineBed.engineReady e 24 27 = true)
    ∧ (∀ e ∈ [28, 29], engineBed.engineReady e 28 29 = true)
    ∧ (∀ e ∈ [30, 33], engineBed.engineReady e 30 33 = true)
    ∧ (∀ e ∈ [34, 35], engineBed.engineReady e 34 35 = true)
    ∧ hdrOk hdrOf = true
    ∧ hdrOk { hdrOf with sfn := 1024 } = false
    ∧ { hdrOf with memError := true }.memError = true
    ∧ (fftOk (fftOf (sharedAt 0)) = true ∧ isOk (fftBody (fftOf (sharedAt 0)) quiet) = true ∧ isOk (fftBody (fftOf (sharedAt 4194303)) quiet) = false
       ∧ fftOk { fftOf 0 with symbols := 15 } = false) := by
  decide +kernel
theorem meets_Engines_2 :
      (mapOk (mapOf (sharedAt 0)) = true ∧ isOk (mapBody (mapOf (sharedAt 0)) quiet) = true ∧ isOk (demapBody (mapOf (sharedAt 0)) quiet) = true
       ∧ isOk (mapBody { mapOf (mkRef 9) with entries := 1 } quiet) = false ∧ isOk (demapBody { mapOf (mkRef 9) with entries := 1 } quiet) = false
       ∧ mapOk { mapOf 0 with symbol := 14 } = false) := by
  decide +kernel
theorem meets_Engines_3 :
      (ldpcOk (ldpcOf (sharedAt 0)) = true ∧ (crcPoly (ldpcOf 0).crcType).1 < (ldpcOf 0).k - (ldpcOf 0).filler ∧ 1 ≤ (ldpcOf 0).maxIter
       ∧ isOk (ldpcEncodeBody (ldpcOf (sharedAt 0)) quiet) = true ∧ isOk (ldpcEncodeBody (ldpcOf (mkRef 9)) quiet) = false
       ∧ isOk (ldpcDecodeBody (ldpcOf (sharedAt 4194303)) quiet) = false ∧ ldpcOk { ldpcOf 0 with rv := 4 } = false)
    ∧ (polarOk (polarDescOf (sharedAt 0)) = true
       ∧ isOk (polarEncodeBody (polarDescOf (mkRef 9)) quiet) = false ∧ isOk (polarDecodeBody (polarDescOf (sharedAt 4194303)) quiet) = false
       ∧ polarOk { polarDescOf 0 with n := 33 } = false) := by
  decide +kernel
theorem meets_Engines_4 :
      (prachOk (prachOf (sharedAt 0)) = true ∧ isOk (prachBody (prachOf (sharedAt 0)) quiet) = true ∧ isOk (prachBody (prachOf (sharedAt 4194303)) quiet) = false
       ∧ prachOk { prachOf 0 with lra := 140 } = false)
    ∧ (isOk (engineRead quiet (sharedAt 0) 4) = true ∧ isOk (engineWrite quiet (sharedAt 4194303) [0]) = true)
    ∧ (engineShared (sharedAt 4194303) = some (7, 4194303) ∧ 4194304 < 4194303 + 2 ∧ quiet.clusterOn 7 = true
       ∧ { quiet with pw := { quiet.pw with on := 0 } }.clusterOn 7 = false)
    ∧ (engineShared (mkRef 1) = none ∧ quiet.obj 0 (refHandle (mkRef 1)) = some objT2 ∧ quiet.obj 0 (refHandle (mkRef 9)) = none ∧ objT2.size < refOff (mkRef 1) + 65537
       ∧ (quiet.readRef 0 0 (mkRef 1) 0 4).fail = none ∧ (quiet.readRef 0 0 (mkRef 1) 0 4).poison = false
       ∧ ((poisonBed default).readRef 0 0 (mkRef 1) 64 4).poison = true)
    ∧ NMap.wf Cluster.init quiet.clusters = true := by
  decide +kernel

theorem meets_Reliability :
      Starts bed 0x8001 checkErrorLogRead (pk [(8, 0), (2, 256), (6, 0), (8, 64)])
    ∧ Starts bed 0x8002 checkCheckConfig (pk [(2, 1), (2, 168)])
    ∧ Starts bed 0x8003 checkScrub (pk [(1, 3)])
    ∧ (let c := cmdFor 0x8003 (pk [(1, 3)])
       scrubFailed (Begun (bed c) c) (scrubDies (bed c) c) = []
       ∧ (let s := { bed c with rel := { (bed c).rel with channels := [(0, true)] } }
          let bad := scrubFailed (Begun s c) (scrubDies s c)
          Ready s 0x8003 1 c ∧ checkScrub s c = none ∧ bad ≠ [] ∧ bad.length < 16 * popCount 2 (scrubDies s c)))
    ∧ (∀ k ∈ [1, 2], Starts bed 0x8004 checkInject (pk [(1, k), (1, 0), (2, 63), (4, 0), (8, 0x1FFFFF)])) := by
  unfold Starts Ready; decide +kernel
theorem meets_Reliability_2 :
      (∀ k ∈ [3, 4], Starts bed 0x8004 checkInject (pk [(1, k), (1, 0), (2, 0), (1, 0), (3, 0), ref 1]))
    ∧ (∀ k ∈ [5, 6, 7], Starts bed 0x8004 checkInject (pk [(1, k), (1, 255), (2, 63)]))
    ∧ Starts bed 0x8004 checkInject (pk [(1, 8), (1, 255), (2, 6)])
    ∧ Starts bed 0x8004 checkInject (pk [(1, 9), (1, 255)])
    ∧ Starts bed 0x8005 checkQuarantineQuery (pk [(8, 64)])
    ∧ (quiet.stewardRuns = true ∧ quiet.variant.domainPresent 0 = true ∧ quiet.pw.on.testBit 0 = true ∧ NMap.get none quiet.rel.clerkDown 0 = none)
    ∧ State.reset.stewardRuns = false
    ∧ quiet.clusterOn 7 = true
    ∧ quiet.interpreted 3 = none := by
  unfold Starts Ready; decide +kernel
theorem meets_Reliability_3 :
      (∀ op ∈ [0x0001, 0x0002], (bed (cmdFor op [])).interpreted 0 = some (cmdFor op []) ∧ (bed (cmdFor op [])).stewardRuns = true ∧ 0 < 4) := by
  decide +kernel

theorem meets_StepRead :
      Starts bed 0x9005 noCheck [] := by
  unfold Starts Ready; decide +kernel

theorem meets_DeadContextCheck :
      (∀ st ∈ [CtxState.dead, .closed, .closing], let s := quiet.setCtx 0 63 { quiet.ctx 0 63 with st := st }
      63 < (s.tenant 0).contexts ∧ (s.ctx 0 63).st = st)
    ∧ (quiet.tenant 0).contexts ≤ 64
    ∧ (let s := quiet.setCtx 0 0 { quiet.ctx 0 0 with st := .dead }; (cmdFor 0x0007 []).opcode = 0x0007 ∧ (s.ctx (cmdFor 0x0007 []).tenant (cmdFor 0x0007 []).ctx).st = .dead) := by
  decide +kernel

/-- The bed with Sexton as `f` makes it, port 0 up. -/
def sextonBed (f : Sexton → Sexton) (c : Cmd) : State := let s := plainRadioBed c; { s with sx := f s.sx }
def domBed (d : Nat) (st : Nat) : State := let s := sextonBed id default; s.setDom d { s.dom d with st := st, heard := 2500000000, masters := 1 }
def triggerOf (n : Nat) : Trigger := { armed := true, flags := 0, start := 0, period := 0, width := 4, left := some 1, next := n, edges := 0, until_ := 0 }
theorem meets_Time :
      Starts bed 0x6001 checkDomainConfig (pk [(1, 0), (1, 1), (1, 24), (1, 0), (1, 0xFF), (1, 0), (2, 16), (4, 100), (4, 1000)])
    ∧ Starts lockedBed 0x6002 checkDomainSelect (pk [(1, 0), (1, 1), (2, 100)])
    ∧ (let s := sextonBed (fun x => { x with stepped := true, selected := 1, out := 1 }) default
       s.sx.stepped = true ∧ s.sx.selected = 1 ∧ s.sx.out = 1 ∧ s.sx.auto = false ∧ (s.sx.dom 0).st ≠ 2)
    ∧ ((sextonBed (fun x => { x with stepped := true, selected := 0, out := 1 }) default).sx.selected ≠ 1
       ∧ (sextonBed (fun x => { x with selected := 1, out := 1 }) default).sx.stepped = false ∧ (sextonBed id default).sx.stepped = false ∧ (sextonBed id default).sx.out ≠ 1)
    ∧ (let s := (domBed 0 2)
       let t := { s with sx := { s.sx with selected := 1, out := 1, auto := true } }
       t.sx.out = 1 ∧ t.sx.selected = 1 ∧ t.sx.auto = true ∧ (t.sx.dom (1 - 1)).st = 2 ∧ s.sx.out ≠ 1) := by
  unfold Starts Ready; decide +kernel
theorem meets_Time_2 :
      (1 ≤ 1 ∧ ((domBed 1 1).dom 1).st ≠ 0 ∧ (domBed 1 1).subUp ((domBed 1 1).dom 1).slave = true ∧ (quiet.dom 0).st = 0 ∧ quiet.subUp 0 = false)
    ∧ (let m : PtpMsg := { (default : PtpMsg) with domain := 1, kind := .sync }
       let s := (domBed 1 1).setDom 1 { (domBed 1 1).dom 1 with loss := 1000, lock := 100 }
       let n (k : Int) : PtpMsg := { m with filtered := k }
       (quiet.sx.selected ≠ m.domain ∨ quiet.sx.out ≠ 1) ∧ (s.dom 1).loss < (n (-1001)).filtered.natAbs ∧ (n 1000).filtered.natAbs ≤ (s.dom 1).loss
       ∧ (s.dom 1).lock ≤ (n 1000).filtered.natAbs ∧ (n 99).filtered.natAbs < (s.dom 1).lock ∧ (s.dom 1).good < 15
       ∧ 15 ≤ { s.dom 1 with good := 15 }.good ∧ ((domBed 1 3).dom 1).back.2 = false ∧ { (domBed 1 3).dom 1 with back := (true, true) }.back.2 = true)
    ∧ (∀ st ∈ [1, 2], ((domBed 1 st).dom 1).st = st ∧ ((domBed 1 st).dom 1).heard + msec 375 ≤ (domBed 1 st).now)
    ∧ ((domBed 1 3).dom 1).st = 3
    ∧ (sextonBed (fun x => { x with slew := some 0 }) default).sx.slew = some 0
    ∧ quiet.sx.slew ≠ some 0
    ∧ (((domBed 1 1).dom 1).masters.testBit 0 = true ∧ (domBed 1 1).subUp 0 = true ∧ ((domBed 1 1).dom 1).masters.testBit 1 = false) := by
  decide +kernel
theorem meets_Time_3 :
      (let s := quiet.setTrigger 4 (triggerOf 0)
       (s.sx.trigger 4).armed = true ∧ (s.sx.trigger 4).next ≤ s.sx.time ∧ (s.sx.trigger 0).armed = false
       ∧ s.sx.time < ((quiet.setTrigger 4 (triggerOf 1)).sx.trigger 4).next)
    ∧ (let x (t : Nat) : Capture := { Capture.init with edges := 3, last := some t }
       4 ≤ 4 ∧ (x 0).edges.testBit (b2n true) = true ∧ Capture.init.edges.testBit 0 = false ∧ (x 0).last = some 0 ∧ 0 + 400 ≤ quiet.now
       ∧ ¬ (quiet.now + 400 ≤ quiet.now) ∧ (x 0).fifo.length < 64 ∧ 64 ≤ { x 0 with fifo := List.replicate 64 (0, 0, 0) }.fifo.length)
    ∧ Starts bed 0x6003 checkTriggerSet (pk [(1, 3), (1, 0), (1, 0), (1, 0), (6, 0), (4, 0), (2, 0), (8, 4000), (4, 40), (4, 1)]) := by
  unfold Starts Ready; decide +kernel
theorem meets_Time_4 :
      Starts bed 0x6003 checkTriggerSet (pk [(1, 4), (1, 1)])
    ∧ Starts bed 0x6004 checkCaptureRead (pk [(1, 4), (1, 0), (1, 0), (1, 0), (2, 0), (2, 64), (8, 16)])
    ∧ Starts bed 0x6004 checkCaptureRead (pk [(1, 16), (1, 1), (1, 3)])
    ∧ (let c := { cmdFor 0x6004 (pk [(1, 4), (1, 0), (1, 0), (1, 0), (2, 0), (2, 8), (8, 0)]) with entry := Entry.mgmt }
       Ready (bed c) 0x6004 1 c ∧ checkCaptureRead (bed c) c = none ∧ c.p 1 1 ≠ 1)
    ∧ Starts bed 0x6005 noCheck [] := by
  unfold Starts Ready; decide +kernel

/-- The bed with port 0's sub-port as `f` makes it. -/
def portBed (f : SubPort → SubPort) : State := let s := plainRadioBed default; s.setSub 0 (f (s.sub 0))
def frameOf : EthFrame := { (default : EthFrame) with length := 9216, fcsOk := true, tags := 1, vlan := 5, bytes := List.replicate 60 0 }
def queueOf (fs : List TxFrame) : Queue := { Queue.init 63 with tenant := some 0, rxRing := mkRef 1, txRing := mkRef 1, vlan := 5, entries := 16, frames := fs }
def policerOf : Policer := { cir := 0, pir := 0, cbs := 9216, pbs := 9216, aware := true, yellow := 0, red := 0, mark := 0, tc := 32000 * 100, tp := 32000 * 200, at_ := 4000000000 }
theorem meets_NetworkAndFrames_opcodes :
      Starts bed 0x7001 checkPortConfig (pk [(1, 0), (3, 0), (1, 2), (1, 15), (1, 1)])
    ∧ Starts bed 0x7001 checkPortConfig (pk [(1, 0), (3, 0), (1, 0), (1, 0), (1, 0)])
    ∧ (cmdFor 0x7001 (pk [(1, 0), (3, 0), (1, 2), (1, 15), (1, 1)])).p 6 1 = 1
    ∧ Starts bed 0x7002 checkQueueConfig (pk [(1, 0), (1, 63), (2, 0), (1, 0), (1, 7), (2, 1023), ref 1, (8, 0), (4, 16)])
    ∧ Starts bed 0x7002 checkQueueConfig (pk [(1, 0), (1, 63), (2, 0), (1, 0xFF)])
    ∧ Starts bed 0x7003 checkShaperConfig (pk [(1, 0), (1, 0xFF), (2, 0), (4, 0), (4, 9236)])
    ∧ Starts bed 0x7003 checkShaperConfig (pk [(1, 0), (1, 0), (2, 0), (4, 0), (4, 9236)]) := by
  unfold Starts Ready; decide +kernel
theorem meets_NetworkAndFrames_opcodes_2 :
      Starts bed 0x7004 checkPolicerConfig (pk [(1, 0), (1, 0), (2, 4095), (4, 1), (4, 1), (4, 9216), (4, 9216)]) := by
  unfold Starts Ready; decide +kernel

theorem meets_NetworkAndFrames :
      (quiet.subUp 0 = false ∧ (portBed id).subUp 0 = true ∧ frameOf.port = 0 ∧ frameOf.fcsOk = true ∧ frameOf.length ≤ 9216 ∧ frameOf.tags ≤ 1 ∧ frameOf.pfc = []
       ∧ ¬ ({ frameOf with length := 9217 }.length ≤ 9216) ∧ { frameOf with pfc := [(0, 1)] }.pfc ≠ [])
    ∧ (let s := portBed fun p => { p with ingress := [(0, 2097152 - 9215)] }
       (s.sub 0).sharedSize < (s.sub 0).ingress.foldl (fun a e => a + e.2) 0 + frameOf.length ∧ (s.sub 0).lossless.testBit 0 = false)
    ∧ ¬ ((portBed id).sub 0).sharedSize < ((portBed id).sub 0).ingress.foldl (fun a e => a + e.2) 0 + frameOf.length
    ∧ (({ frameOf with etherType := 0x88F7 }.etherType = 0x88F7) ∧ frameOf.etherType ≠ 0x88F7 ∧ frameOf.etherType ≠ 0x8809) := by
  decide +kernel
theorem meets_NetworkAndFrames_2 :
      (portBed id).frontCell frameOf = none
    ∧ (portBed id).rxQueue frameOf = none
    ∧ (portBed id).frontCell { frameOf with etherType := 0xAEFE, tags := 1, vlan := 5, src := 1, eaxc := 0 } = some 0
    ∧ (let s := portBed fun p => p.setQueue 63 (queueOf [])
       s.frontCell frameOf = none ∧ s.rxQueue frameOf = some (queueOf []) ∧ (s.police frameOf).2.isSome = true)
    ∧ (let s := portBed fun p => { p.setQueue 63 (queueOf []) with policers := [(5, some { policerOf with pir := 1, pbs := 100, tp := 0, red := 2, at_ := 4000000000 })] }
       (s.police frameOf).2 = none) := by
  decide +kernel
theorem meets_NetworkAndFrames_3 :
      (refill policerOf.tp policerOf.pir policerOf.pbs 0 < 201 * 32000 ∧ 200 * 32000 ≤ refill policerOf.tp policerOf.pir policerOf.pbs 0
       ∧ refill policerOf.tc policerOf.cir policerOf.cbs 0 < 101 * 32000 ∧ 100 * 32000 ≤ refill policerOf.tc policerOf.cir policerOf.cbs 0)
    ∧ (let s := portBed fun p => { p with xoff := 128, lossless := 128, ingress := [(7, 98304)] }
       s.subUp 0 = true ∧ 7 ≤ 7 ∧ (s.sub 0).xoff.testBit 7 = true)
    ∧ (let s := portBed fun p => { p with paused := 128, pauseEnd := [(7, 4000000000)] }
       (s.sub 0).paused.testBit 7 = true ∧ NMap.get 0 (s.sub 0).pauseEnd 7 ≤ s.now ∧ ((portBed id).sub 0).paused.testBit 7 = false) := by
  decide +kernel
theorem meets_NetworkAndFrames_4 :
      (let s (t : Nat) := portBed fun p => { p with busy := some (0, t) }
       ((s 4000000001).sub 0).busy = some (0, 4000000001) ∧ (s 4000000001).now < 4000000001 ∧ ((s 4000000000).sub 0).busy = some (0, 4000000000) ∧ 4000000000 ≤ (s 4000000000).now)
    ∧ ({ (portBed id).sub 0 with busy := none }.choose 4000000000 = none)
    ∧ (let f : TxFrame := { tag := 0, length := 64, bytes := List.replicate 60 0, poison := false }
       let p := { ((portBed fun p => p.setQueue 63 (queueOf [f])).sub 0) with busy := none }
       p.choose 4000000000 = some 63 ∧ (p.queue 63).frames = [f])
    ∧ ((quiet.sub 0).queue 63).tenant = none := by
  decide +kernel
theorem meets_NetworkAndFrames_5 :
      (let s := portBed fun p => p.setQueue 63 (queueOf [])
       ((s.sub 0).queue 63).tenant = some 0 ∧ s.portExists 0 = true ∧ ((s.sub 0).queue 63).txRing ≠ 0 ∧ s.ringNum 0 ((s.sub 0).queue 63).txRing 0 4 = some 0
       ∧ s.ringNum 0 ((s.sub 0).queue 63).txRing 4 4 = some 0 ∧ (0 + 2 ^ 33 - 0 - ((s.sub 0).queue 63).frames.length) % 2 ^ 32 ≤ ((s.sub 0).queue 63).entries)
    ∧ (let s := portBed id; s.portExists 0 = true ∧ (s.sub 0).enabled = true ∧ s.pw.on.testBit 16 = true ∧ ¬ (true = true ↔ (s.sub 0).link ≠ 2)
       ∧ (false = true ↔ (s.sub 0).link ≠ 2)) := by
  decide +kernel

/-! ### Worked examples of the spec -/

/-- MATMUL_CHAIN of shape M × N × K with operand codes `a` and `b`. -/
def shape (m n k a b : Nat) : Cmd := cmdFor 0x2001 (pk [zeros 104, (2, m), (2, n), (4, k), zeros 18, (1, a + 16 * b), zeros 40])
def accountOf (c : Cmd) : Nat × Nat × Nat × Nat :=
  let y := chainCycles c c.chM (cycleBound c c.chM)
  (y.busy, y.fed, y.weight, y.tail)

/-- Example 4-2 (04): M = 4, N = 1,024, K = 128 in 8-bit mode: MC_BUSY 521, MC_FED 32, MC_STALL_WEIGHT 484, MC_TAIL 5. -/
theorem test_example_4_2 : accountOf (shape 4 1024 128 2 2) = (521, 32, 484, 5) := by decide +kernel
/-- Example 5-1 (05): the four chunk sums fold to 1.0 by the canonical tree, and so do its two halves. -/
theorem test_example_5_1 : canonSum 0 [some 0x4B800000, some 0x3F800000, some 0x3F800000, some 0xCB800000] = some 0x3F800000
    ∧ add32 0x3F800000 0xCB800000 = 0xCB7FFFFF ∧ add32 0x4B800000 0x3F800000 = 0x4B800000 := by decide +kernel
/-- Example 6-2 (06): 3.99609375 and 1.0 as an MXFP4 block: scale byte 0x7E, elements 0b0111 and 0b0100. -/
theorem test_example_6_2 : mxQuantise 0xC true [dec32 0x407FC000, dec32 0x3F800000] = (0x7E, [7, 4])
    ∧ mxQuantise 0xC true [dec32 0x40800000, dec32 0x3F800000] = (0x7F, [6, 2]) := by decide +kernel
/-- Example 6-3 (06): FP8 E4M3 of 1.0634765625 is 0x39, of the BF16 value 1.0625 the even 0x38. -/
theorem test_example_6_3 : convert e4m3 false 0x3F882000 = 0x39 ∧ convert e4m3 false 0x3F880000 = 0x38 ∧ convert bf16 false 0x3F882000 = 0x3F88 := by decide +kernel
/-- Example 13-1 (13): 16 CLU for 100 MHz 4T4R, 128 for 64T64R, 4 for 20 MHz 2T2R. -/
theorem test_example_13_1 : bandFactor 100 * antFactor 4 = 16 ∧ bandFactor 100 * antFactor 64 = 128 ∧ bandFactor 20 * antFactor 2 = 4 := by decide +kernel
/-- Example 16-1 (16): the tags of queues 8 (weight 768) and 9 (weight 256) for frames of 1,500 bytes. -/
theorem test_example_16_1 :
    let p := (SubPort.init.setQueue 8 { Queue.init 8 with weight := 768 }).setQueue 9 { Queue.init 9 with weight := 256 }
    ((((p.enqueue 0 8 1500 [] false).enqueue 0 8 1500 [] false).queue 8).frames.map TxFrame.tag = [2027, 4054])
    ∧ ((p.enqueue 0 9 1500 [] false).queue 9).frames.map TxFrame.tag = [6080] := by decide +kernel
/-- Example 2-1 (02): a 64-byte packet at stream position 65,504 is sealed with lap 1; with lap 0 the seal is bad. -/
theorem test_example_2_1 : sealOk (packetBytes 0x0004 0 9 0 (zeros 40 |> fun z => pk [z]) 1) 65560 = true
    ∧ sealOk (packetBytes 0x0004 0 9 0 (zeros 40 |> fun z => pk [z]) 0) 65560 = false := by decide +kernel
/-- Example 18-1 (18): target 1 claims source 30; target 6 then finds nothing; a target that is not the owner completes nothing. -/
theorem test_example_18_1 :
    let s := eventBed 30 { Source.init with pending := true, mask := 0x42, prio := 4, input := true }
    let after (o : Host.Outcome State Fault Refusal) : State := match o with | .next t => t | _ => s
    let t := after (exec (.evClaim 1) s)
    s.line 1 = true ∧ s.line 6 = true ∧ t.readData = [30] ∧ (t.src 30).owner = some 1 ∧ (t.src 30).pending = false
    ∧ (after (exec (.evClaim 6) t)).readData = [0] ∧ ((after (exec (.evComplete 6 30) t)).src 30).owner = some 1
    ∧ ((after (exec (.evComplete 1 30) t)).src 30).owner = none := by decide +kernel

end Sys2Proof.Tests
end

section
/-! ### Check 9 on CONTEXT_RESET and CONTEXT_CLOSE (R58)

What the context check answers for an opcode that names a context, one lemma per case of the context, and the statement O60. -/
namespace Sys2Proof.Machine

theorem scopeC_resetOrClose {op : Nat} (hop : op = 0x0006 ∨ op = 0x0007) : scopeC op = true := by
  rcases hop with rfl | rfl <;> rfl

namespace State
variable {s : State} {op t c : Nat}

theorem contextCheck_absent (hscope : scopeC op = true) (habsent : (s.tenant t).contexts ≤ c) :
    s.contextCheck op t c = failWith stContextDead 2 := by
  simp [contextCheck, hscope, habsent]

theorem contextCheck_closed (hscope : scopeC op = true) (hc : c < (s.tenant t).contexts) (hst : (s.ctx t c).st = .closed) :
    s.contextCheck op t c = failWith stContextDead 1 := by
  simp [contextCheck, hscope, hst, hc]

theorem contextCheck_closing (hscope : scopeC op = true) (hc : c < (s.tenant t).contexts) (hst : (s.ctx t c).st = .closing) :
    s.contextCheck op t c = failWith stContextDead 1 := by
  simp [contextCheck, hscope, hst, hc]

theorem contextCheck_dead_resetOrClose (hop : op = 0x0006 ∨ op = 0x0007) (hc : c < (s.tenant t).contexts)
    (hst : (s.ctx t c).st = .dead) : s.contextCheck op t c = none := by
  simp [contextCheck, scopeC_resetOrClose hop, hst, hop, hc]

theorem contextAtStart_dead_resetOrClose {d : Cmd} (hop : d.opcode = 0x0006 ∨ d.opcode = 0x0007)
    (hst : (s.ctx d.tenant d.ctx).st = .dead) : s.contextAtStart d = none := by
  simp [contextAtStart, hst, hop]

end State

/-- Settles O60, case by case of the context named. -/
theorem deadContextCheck : Obligations.DeadContextCheck := by
  intro s t c op hop
  have hscope : scopeC op = true := scopeC_resetOrClose hop
  refine ⟨fun hc => ⟨State.contextCheck_dead_resetOrClose hop hc, ?_⟩, State.contextCheck_absent hscope, ?_⟩
  · rintro (hclosed | hclosing)
    · exact State.contextCheck_closed hscope hc hclosed
    · exact State.contextCheck_closing hscope hc hclosing
  · intro d hd hdead
    exact State.contextAtStart_dead_resetOrClose (hd ▸ hop) hdead

end Sys2Proof.Machine
end

section
/-! ### Elements of the vector engine (R129–R142)

What a tile, a predicate and a scalar register hold after a write; what each kind of vector instruction leaves in one element; the
arithmetic of R129, R135 and R138 on that element; and the statement O44. -/
namespace Sys2Proof.Machine

/-! #### Fields and registers (Tables 7-1, 7-2a to 7-2d) -/

theorem bits_lt (n hi lo : Nat) : bits n hi lo < 2 ^ (hi + 1 - lo) := Nat.mod_lt _ (Nat.two_pow_pos _)

theorem tVD_lt (w : Dbl) : tVD w < 32 := bits_lt _ 50 46
theorem tQD_lt (w : Dbl) : tQD w < 8 := bits_lt _ 26 24
theorem xQD_lt (w : Dbl) : xQD w < 8 := bits_lt _ 32 30
theorem xPos_lt (w : Dbl) : xPos w < 16 := bits_lt _ 24 21
theorem fSD_lt (w : Dbl) : fSD w < 16 := bits_lt _ 55 52

theorem el_mkTile (f : Nat → Word) {i : Nat} (hi : i < 256) : (mkTile f).el i = f i := by
  simp [Tile.el, mkTile, hi]

/-- A number built from its bits, lowest first, has them. -/
theorem testBit_foldr_range' (f : Nat → Bool) (n s i : Nat) (hi : i < n) :
    ((List.range' s n).foldr (fun k a => 2 * a + b2n (f k)) 0).testBit i = f (s + i) := by
  induction n generalizing s i with
  | zero => omega
  | succ n ih =>
    rw [List.range'_succ, List.foldr_cons]
    cases i with
    | zero => cases f s <;> simp [b2n]
    | succ i =>
      have hhalf (a : Nat) : (2 * a + b2n (f s)) / 2 = a := by unfold b2n; split <;> omega
      rw [Nat.testBit_succ, hhalf, ih (s + 1) i (by omega), Nat.add_right_comm, Nat.add_assoc]

theorem on_mkPred (f : Nat → Bool) {i : Nat} (hi : i < 256) : on (mkPred f) i = f i := by
  have hbit := testBit_foldr_range' f 256 0 i hi
  rw [on, mkPred, BitVec.toNat_ofNat, Nat.testBit_mod_two_pow, List.range_eq_range', hbit, Nat.zero_add]
  simp [hi]

namespace Ve
variable (v : Ve)

theorem tile_setTile_same {n : Nat} (hn : n < 32) (t : Tile) : (v.setTile n t).tile n = t := by
  simp [tile, setTile, hn]

theorem tile_setTile_ne {n m : Nat} (hne : m ≠ n) (t : Tile) : (v.setTile n t).tile m = v.tile m := by
  simp [tile, setTile, Vector.getElem?_setIfInBounds_ne (Ne.symm hne)]

@[simp] theorem scalar_zero : v.scalar 0 = 0 := rfl
@[simp] theorem pred_zero : v.pred 0 = BitVec.allOnes 256 := rfl
@[simp] theorem setScalar_zero (x : Dbl) : v.setScalar 0 x = v := rfl
@[simp] theorem setPred_zero (p : BitVec 256) : v.setPred 0 p = v := rfl

@[simp] theorem tile_setPred (n m : Nat) (p : BitVec 256) : (v.setPred n p).tile m = v.tile m := by
  unfold setPred; split <;> rfl

theorem pred_setPred_same {n : Nat} (h0 : n ≠ 0) (hn : n < 8) (p : BitVec 256) : (v.setPred n p).pred n = p := by
  simp [pred, setPred, h0, hn]

theorem scalar_setScalar_same {n : Nat} (h0 : n ≠ 0) (hn : n < 16) (x : Dbl) : (v.setScalar n x).scalar n = x := by
  simp [scalar, setScalar, h0, hn]

end Ve

/-! #### Element-wise results, predicates and compares (R130) -/

section
variable {v : Ve} {w : Dbl} {i : Nat}

theorem el_elementwise (f : Ve → Dbl → Nat → Word) (hi : i < 256) :
    ((elementwise f w v).tile (tVD w)).el i =
      if on (v.pred (tQP w)) i then f v w i else if tZero w then 0 else (v.tile (tVD w)).el i := by
  rw [elementwise, Ve.tile_setTile_same v (tVD_lt w), writeActive, el_mkTile _ hi]

theorem el_elementwise_active (f : Ve → Dbl → Nat → Word) (hi : i < 256) (hact : on (v.pred (tQP w)) i = true) :
    ((elementwise f w v).tile (tVD w)).el i = f v w i := by
  rw [el_elementwise f hi, if_pos hact]

theorem el_elementwise_inactive (f : Ve → Dbl → Nat → Word) (hi : i < 256) (hact : on (v.pred (tQP w)) i = false) :
    ((elementwise f w v).tile (tVD w)).el i = if tZero w then 0 else (v.tile (tVD w)).el i := by
  rw [el_elementwise f hi, hact, if_neg Bool.false_ne_true]

theorem on_predActive_active (old qp : BitVec 256) (zero : Bool) (f : Nat → Bool) (hi : i < 256) (hact : on qp i = true) :
    on (predActive old qp zero f) i = f i := by
  rw [predActive, on_mkPred _ hi, if_pos hact]

theorem on_predOp_active (f : Bool → Bool → Bool) (hi : i < 256) (hd : tVD w % 8 ≠ 0) (hact : on (v.pred (tQP w)) i = true) :
    on ((predOp f w v).pred (tVD w % 8)) i = f (on (v.pred (tVA w % 8)) i) (on (v.pred (tVB w % 8)) i) := by
  rw [predOp, Ve.pred_setPred_same v hd (by omega), on_predActive_active _ _ _ _ hi hact]

theorem predOp_to_Q0 (f : Bool → Bool → Bool) (hd : tVD w % 8 = 0) : predOp f w v = v := by
  rw [predOp, hd, Ve.setPred_zero]

theorem on_compareOp_active (f : Fl → Fl → Bool) (g : Int → Int → Bool) (n : Nat) (hi : i < 256) (hq : tQD w ≠ 0)
    (hact : on (v.pred (tQP w)) i = true) : on ((compareOp f g n w v).pred (tQD w)) i = compareBit f g n v w i := by
  rw [compareOp, Ve.pred_setPred_same v hq (tQD_lt w), on_predActive_active _ _ _ _ hi hact]

theorem compareBit_fp32 (f : Fl → Fl → Bool) (g : Int → Int → Bool) (n : Nat) (hty : veType w = 0) :
    compareBit f g n v w i = f (dec32 ((v.tile (tVA w)).el i)) (dec32 (bOperand v w i)) := by
  simp [compareBit, hty]

theorem compareBit_int32 (f : Fl → Fl → Bool) (g : Int → Int → Bool) (n : Nat) (hty : veType w = 1) :
    compareBit f g n v w i = g ((v.tile (tVA w)).el i).toInt (bOperand v w i).toInt := by
  simp [compareBit, hty]

/-! #### Arithmetic by TYPE (R129) -/

theorem byFloat_fp32 {ty : Nat} (f : Fl → Fl → Fl → Fl) (a b c : Word) (hty : ty = 0) :
    byFloat ty f a b c = enc32 (f (dec32 a) (dec32 b) (dec32 c)) := if_pos hty

theorem arith2_fp32 (f : Fl → Fl → Fl) (g : Int → Int → Int) (hty : veType w = 0) :
    arith2 f g v w i = enc32 (f (dec32 ((v.tile (tVA w)).el i)) (dec32 (bOperand v w i))) := by
  simp [arith2, byFloat_fp32, hty]

theorem arith2_int32 (f : Fl → Fl → Fl) (g : Int → Int → Int) (hty : veType w = 1) :
    arith2 f g v w i = intResult (tSat w) (g ((v.tile (tVA w)).el i).toInt (bOperand v w i).toInt) := if_pos hty

/-- A pair type acts on each half in its own format. -/
theorem arith2_pair (f : Fl → Fl → Fl) (g : Int → Int → Int) (h0 : veType w ≠ 0) (h1 : veType w ≠ 1) :
    let p := pairFmt (veType w)
    arith2 f g v w i = onHalves (fun x y _ => p.enc false (f (p.dec x) (p.dec y))) ((v.tile (tVA w)).el i) (bOperand v w i) 0 := by
  simp only [arith2, byFloat, if_neg h0, if_neg h1]

theorem signOp_sat (f : Fl → Fl) (g : Int → Int) (n : Nat) (hi : i < 256) (hact : on (v.pred (tQP w)) i = true)
    (hty : veType w = 1) (hsat : tSat w = true) :
    ((signOp f g n w v).tile (tVD w)).el i = intResult true (g ((v.tile (tVA w)).el i).toInt) := by
  rw [signOp, el_elementwise_active _ hi hact]
  simp [hty, hsat]

end

/-! #### INT32 results (R135) -/

theorem clampInt_eq_max_min {lo hi : Int} (h : lo ≤ hi) (x : Int) : clampInt lo hi x = max lo (min hi x) := by
  unfold clampInt
  split
  · omega
  · split <;> omega

theorem toInt_ofInt_word {x : Int} (hlo : -(2 ^ 31) ≤ x) (hhi : x < 2 ^ 31) : (BitVec.ofInt 32 x).toInt = x :=
  BitVec.toInt_ofInt_eq_self (by decide) hlo hhi

theorem toInt_word_bounds (a : Word) : -(2 ^ 31) ≤ a.toInt ∧ a.toInt < 2 ^ 31 :=
  ⟨BitVec.le_toInt a, BitVec.toInt_lt⟩

theorem toInt_intResult_sat (x : Int) : (intResult true x).toInt = max (-(2 ^ 31)) (min (2 ^ 31 - 1) x) := by
  rw [intResult, if_pos rfl, clampInt_eq_max_min (by decide), toInt_ofInt_word] <;> omega

/-- A result that INT32 holds is not touched by SAT. -/
theorem toInt_intResult_fits (sat : Bool) {x : Int} (hlo : -(2 ^ 31) ≤ x) (hhi : x < 2 ^ 31) : (intResult sat x).toInt = x := by
  cases sat with
  | false => exact toInt_ofInt_word hlo hhi
  | true => rw [toInt_intResult_sat]; omega

theorem intResult_wrap_add (a b : Word) : intResult false (a.toInt + b.toInt) = a + b := by
  simp [intResult, BitVec.ofInt_add]
theorem intResult_wrap_sub (a b : Word) : intResult false (a.toInt - b.toInt) = a - b := by
  simp [intResult, Int.sub_eq_add_neg, BitVec.ofInt_add, BitVec.ofInt_neg, BitVec.sub_eq_add_neg]
theorem intResult_wrap_mul (a b : Word) : intResult false (a.toInt * b.toInt) = a * b := by
  simp [intResult, BitVec.ofInt_mul]

/-! #### The order of MIN and MAX (R135) -/

theorem enc32_nan : enc32 .nan = nan32 := rfl
theorem enc32_inf_true : enc32 (.inf true) = ninf32 := by decide
theorem enc32_inf_false : enc32 (.inf false) = inf32 := by decide
theorem dec32_ninf32 : dec32 ninf32 = .inf true := by decide
theorem dec32_inf32 : dec32 inf32 = .inf false := by decide

theorem minFl_of_nan {x y : Fl} (h : x.isNan = true ∨ y.isNan = true) : minFl x y = .nan :=
  if_pos (by simpa using h)
theorem maxFl_of_nan {x y : Fl} (h : x.isNan = true ∨ y.isNan = true) : maxFl x y = .nan :=
  if_pos (by simpa using h)
theorem minFl_of_not_nan {x y : Fl} (hx : x.isNan = false) (hy : y.isNan = false) :
    minFl x y = if Fl.lt0 y x then y else x := if_neg (by simp [hx, hy])
theorem maxFl_of_not_nan {x y : Fl} (hx : x.isNan = false) (hy : y.isNan = false) :
    maxFl x y = if Fl.lt0 x y then y else x := if_neg (by simp [hx, hy])

namespace Fl

/-- Nothing lies below −∞. -/
theorem lt0_neg_inf (x : Fl) : lt0 x (.inf true) = false := by
  rcases x with _ | (_ | _) | _ <;> rfl

/-- +∞ lies below nothing. -/
theorem pos_inf_lt0 (x : Fl) : lt0 (.inf false) x = false := by
  rcases x with _ | (_ | _) | _ <;> rfl

/-- The signed rational a finite datum means. -/
def ratValue (s : Bool) (m : Nat) (e : Int) : ℚ := (if s then -1 else 1 : ℚ) * m * 2 ^ e

theorem at_mul_zpow (s : Bool) (m : Nat) {e q : Int} (h : q ≤ e) : (at_ s m e q : ℚ) * 2 ^ q = ratValue s m e := by
  obtain ⟨k, rfl⟩ := Int.le.dest h
  have hsplit : (2 : ℚ) ^ (q + k) = 2 ^ k * 2 ^ q := by
    rw [zpow_add₀ two_ne_zero, zpow_natCast, mul_comm]
  cases s <;> simp [at_, ratValue, hsplit, mul_assoc]

theorem cmp_fin_neg_iff (s : Bool) (m : Nat) (e : Int) (t : Bool) (n : Nat) (f : Int) :
    cmp (.fin s m e) (.fin t n f) < 0 ↔ ratValue s m e < ratValue t n f := by
  have hpos : (0 : ℚ) < 2 ^ min e f := zpow_pos two_pos _
  rw [← at_mul_zpow s m (min_le_left e f), ← at_mul_zpow t n (min_le_right e f), mul_lt_mul_iff_left₀ hpos, Int.cast_lt]
  simp [cmp]

/-- Two zeros are equal under `cmp`, whatever their signs and exponents. -/
theorem cmp_zeros (s : Bool) (e : Int) (t : Bool) (f : Int) : cmp (.fin s 0 e) (.fin t 0 f) = 0 := by
  cases s <;> cases t <;> simp [cmp, at_]

theorem lt0_fin (s : Bool) (m : Nat) (e : Int) (t : Bool) (n : Nat) (f : Int) :
    lt0 (.fin s m e) (.fin t n f) = (decide (ratValue s m e < ratValue t n f) || (decide (m = 0 ∧ n = 0) && s && !t)) := by
  have hlt : decide (cmp (.fin s m e) (.fin t n f) < 0) = decide (ratValue s m e < ratValue t n f) :=
    decide_eq_decide.mpr (cmp_fin_neg_iff ..)
  have hzero : (cmp (.fin s m e) (.fin t n f) == 0 && m == 0 && n == 0) = decide (m = 0 ∧ n = 0) := by
    by_cases hz : m = 0 ∧ n = 0
    · obtain ⟨rfl, rfl⟩ := hz
      simp [cmp_zeros]
    · simpa [hz, Bool.and_assoc] using fun _ hm hn => hz ⟨hm, hn⟩
  simp only [lt0, isZero, sign, hlt, hzero]

end Fl

section
variable {a b : Word}

/-- The two zeros: −0 is the least, +0 the greatest, and a compare finds them equal. -/
theorem minMax_of_zeros (h : (a = 0x80000000 ∧ b = 0) ∨ (a = 0 ∧ b = 0x80000000)) :
    enc32 (minFl (dec32 a) (dec32 b)) = 0x80000000 ∧ enc32 (maxFl (dec32 a) (dec32 b)) = 0
      ∧ (!(dec32 a).isNan && !(dec32 b).isNan && Fl.cmp (dec32 a) (dec32 b) == 0) = true := by
  obtain ⟨rfl, rfl⟩ | ⟨rfl, rfl⟩ := h <;> decide

theorem minFl_of_ninf32 (ha : a = ninf32) (hb : (dec32 b).isNan = false) : enc32 (minFl (dec32 a) (dec32 b)) = ninf32 := by
  rw [ha, dec32_ninf32, minFl_of_not_nan rfl hb, Fl.lt0_neg_inf]
  exact enc32_inf_true

theorem maxFl_of_inf32 (ha : a = inf32) (hb : (dec32 b).isNan = false) : enc32 (maxFl (dec32 a) (dec32 b)) = inf32 := by
  rw [ha, dec32_inf32, maxFl_of_not_nan rfl hb, Fl.pos_inf_lt0]
  exact enc32_inf_false

end

/-! #### Reductions (R138) -/

section
variable {v : Ve} {w : Dbl} {l : Nat}

/-- The element of line `l` at POS: where a reduction puts its value (Table 7-2b). -/
def posIndex (w : Dbl) (l : Nat) : Nat := if xDir w then 16 * xPos w + l else 16 * l + xPos w

theorem posIndex_lt (hl : l < 16) : posIndex w l < 256 := by
  have := xPos_lt w
  unfold posIndex; split <;> omega

theorem posIndex_line (hl : l < 16) :
    (if xDir w then (posIndex w l % 16, posIndex w l / 16) else (posIndex w l / 16, posIndex w l % 16)) = (l, xPos w) := by
  have := xPos_lt w
  unfold posIndex
  split <;> simp only [Prod.mk.injEq] <;> omega

theorem el_putLine (t : Tile) (f : Nat → Word) (hl : l < 16) : (putLine w t f).el (posIndex w l) = f l := by
  rw [putLine, el_mkTile _ (posIndex_lt hl), posIndex_line hl]
  exact if_pos rfl

theorem on_putEmpty (p : BitVec 256) (f : Nat → Bool) (hl : l < 16) : on (putEmpty w p f) (posIndex w l) = f l := by
  rw [putEmpty, on_mkPred _ (posIndex_lt hl), posIndex_line hl]
  exact if_pos rfl

theorem el_reduce (f : List (Option Word) → Option Word) (identity : Word) (hl : l < 16) :
    ((reduce f identity w v).tile (tVD w)).el (posIndex w l) = (f (leaves v w l)).getD identity := by
  rw [reduce, Ve.tile_setPred, Ve.tile_setTile_same v (tVD_lt w), el_putLine _ _ hl]

theorem on_reduce (f : List (Option Word) → Option Word) (identity : Word) (hl : l < 16) (hq : xQD w ≠ 0) :
    on ((reduce f identity w v).pred (xQD w)) (posIndex w l) = (f (leaves v w l)).isNone := by
  rw [reduce, Ve.pred_setPred_same _ hq (xQD_lt w), on_putEmpty _ _ hl]

theorem el_xRcnt (hl : l < 16) :
    ((xRcnt w v).tile (tVD w)).el (posIndex w l) = BitVec.ofNat 32 (present (leaves v w l)).length := by
  rw [xRcnt, el_reduce _ _ hl]
  cases present (leaves v w l) <;> simp

theorem on_xRcnt (hl : l < 16) (hq : xQD w ≠ 0) :
    on ((xRcnt w v).pred (xQD w)) (posIndex w l) = (present (leaves v w l)).isEmpty := by
  rw [xRcnt, on_reduce _ _ hl hq]
  cases present (leaves v w l) <;> simp

theorem el_xRsum_int32 (hl : l < 16) (hty : veType w = 1) :
    ((xRsum w v).tile (tVD w)).el (posIndex w l) = (present (leaves v w l)).foldl (· + ·) 0 := by
  rw [xRsum, if_pos hty, el_reduce _ _ hl]
  cases present (leaves v w l) <;> simp

theorem el_xRsum_fp32 (hl : l < 16) (hty : veType w = 0) :
    ((xRsum w v).tile (tVD w)).el (posIndex w l) = (canonFold add32 4 (leaves v w l)).getD 0 := by
  rw [xRsum, if_neg (by omega), el_reduce _ _ hl, fold16]

end

/-! #### Scalars (R132) -/

theorem scalar_scalarOp {v : Ve} {w : Dbl} (f : Dbl → Dbl → Dbl → Dbl) (hd : fSD w ≠ 0) :
    (scalarOp f w v).scalar (fSD w) = f (v.scalar (fSA w)) (v.scalar (fSB w)) (fImm64 w) :=
  Ve.scalar_setScalar_same v hd (fSD_lt w) _

theorem scalar_shiftBy {v : Ve} {w : Dbl} (f : Dbl → Nat → Dbl) (n : Nat) (hd : fSD w ≠ 0) (hcount : fImm w < 64) :
    (shiftBy f n w v).scalar (fSD w) = f (v.scalar (fSA w)) (fImm w) := by
  rw [shiftBy, Ve.scalar_setScalar_same v hd (fSD_lt w), if_pos hcount]

/-- Settles O44, kind of instruction by kind of instruction: each reads its element by the rules above. -/
theorem vectorElements : Obligations.VectorElements := by
  unfold Obligations.VectorElements
  intro v w i hi a b c old active r q halves
  have element (f) (hact : active = true) : r (elementwise f) = f v w i := el_elementwise_active f hi hact
  have float (f g) (hact : active = true) (hty : veType w = 0) : r (elementwise (arith2 f g)) = enc32 (f (dec32 a) (dec32 b)) :=
    (element _ hact).trans (arith2_fp32 f g hty)
  have integer (f g) (hact : active = true) (hty : veType w = 1) :
      r (elementwise (arith2 f g)) = intResult (tSat w) (g a.toInt b.toInt) :=
    (element _ hact).trans (arith2_int32 f g hty)
  have pair (f g) (hact : active = true) (h0 : veType w ≠ 0) (h1 : veType w ≠ 1) :
      r (elementwise (arith2 f g)) = halves f (pairFmt (veType w)) :=
    (element _ hact).trans (arith2_pair f g h0 h1)
  have compare (f g n) (hq : tQD w ≠ 0) (hact : active = true) : q (compareOp f g n) (tQD w) = compareBit f g n v w i :=
    on_compareOp_active f g n hi hq hact
  have logic (f) (hd : tVD w % 8 ≠ 0) (hact : active = true) :
      q (predOp f) (tVD w % 8) = f (on (v.pred (tVA w % 8)) i) (on (v.pred (tVB w % 8)) i) :=
    on_predOp_active f hi hd hact
  refine ⟨?frame, ?rounded, ?order, Fl.lt0_fin, ?wrapped, ?saturated, ?minMax, ?bf16Pairs, ?fp16Pairs, ?units, ?logic, ?logicToQ0,
    ?compares, ?signs, ?reductions, ?zeroRegisters, ?scalars⟩
  case frame =>
    intro f hf
    obtain ⟨g, rfl⟩ : ∃ g, f = elementwise g := by fin_cases hf <;> exact ⟨_, rfl⟩
    exact ⟨el_elementwise_inactive g hi, fun n hn => Ve.tile_setTile_ne v hn _, rfl⟩
  case rounded =>
    intro hact hty
    exact ⟨float _ _ hact hty, float _ _ hact hty, float _ _ hact hty, (element _ hact).trans (byFloat_fp32 _ _ _ _ hty),
      float _ _ hact hty, float _ _ hact hty, (element _ hact).trans (byFloat_fp32 _ _ _ _ hty)⟩
  case order =>
    intro hact hty
    have hmin : r tMin = enc32 (minFl (dec32 a) (dec32 b)) := float _ _ hact hty
    have hmax : r tMax = enc32 (maxFl (dec32 a) (dec32 b)) := float _ _ hact hty
    have hcmp (f g n) (hq : tQD w ≠ 0) : q (compareOp f g n) (tQD w) = f (dec32 a) (dec32 b) :=
      (compare f g n hq hact).trans (compareBit_fp32 f g n hty)
    rw [hmin, hmax]
    refine ⟨fun hnan => ⟨?_, ?_, fun n hq => ⟨(hcmp _ _ n hq).trans ?_, (hcmp _ _ n hq).trans ?_⟩⟩, fun ha hb => ⟨?_, ?_⟩,
      fun hzeros => ?_, minFl_of_ninf32, maxFl_of_inf32⟩
    · rw [minFl_of_nan hnan, enc32_nan]
    · rw [maxFl_of_nan hnan, enc32_nan]
    · rcases hnan with h | h <;> simp [h]
    · rcases hnan with h | h <;> simp [h]
    · rw [minFl_of_not_nan ha hb]
    · rw [maxFl_of_not_nan ha hb]
    · obtain ⟨hleast, hgreatest, hequal⟩ := minMax_of_zeros hzeros
      exact ⟨hleast, hgreatest, fun n hq => (hcmp _ _ n hq).trans hequal⟩
  case wrapped =>
    intro hact hty hsat
    rw [hsat] at integer
    exact ⟨(integer _ _ hact hty).trans (intResult_wrap_add a b), (integer _ _ hact hty).trans (intResult_wrap_sub a b),
      (integer _ _ hact hty).trans (intResult_wrap_mul a b)⟩
  case saturated =>
    intro hact hty hsat
    have hres (f g) : (r (elementwise (arith2 f g))).toInt = max (-(2 ^ 31)) (min (2 ^ 31 - 1) (g a.toInt b.toInt)) := by
      rw [integer f g hact hty, hsat, toInt_intResult_sat]
    exact ⟨hres _ _, hres _ _, hres _ _⟩
  case minMax =>
    intro hact hty
    obtain ⟨halo, hahi⟩ := toInt_word_bounds a
    obtain ⟨hblo, hbhi⟩ := toInt_word_bounds b
    exact ⟨(congrArg BitVec.toInt (integer _ _ hact hty)).trans (toInt_intResult_fits _ (le_min halo hblo) (min_lt_of_left_lt hahi)),
      (congrArg BitVec.toInt (integer _ _ hact hty)).trans (toInt_intResult_fits _ (le_max_of_le_left halo) (max_lt hahi hbhi))⟩
  case bf16Pairs =>
    intro hact hty
    rw [hty] at pair
    exact ⟨pair _ _ hact (by decide) (by decide), pair _ _ hact (by decide) (by decide), pair _ _ hact (by decide) (by decide)⟩
  case fp16Pairs =>
    intro hact hty
    rw [hty] at pair
    exact ⟨pair _ _ hact (by decide) (by decide), pair _ _ hact (by decide) (by decide), pair _ _ hact (by decide) (by decide)⟩
  case units =>
    intro hact
    have unary (f) : r (unary32 f) = f a := element _ hact
    have binary (f) : r (bitwise f) = f a b := element _ hact
    exact ⟨unary _, unary _, unary _, unary _, unary _, unary _, unary _, element _ hact, binary _, binary _, binary _, binary _, binary _,
      element _ hact, element _ hact, element _ hact, element _ hact, element _ hact, element _ hact⟩
  case logic =>
    intro hd hact
    exact ⟨logic _ hd hact, logic _ hd hact, logic _ hd hact, logic _ hd hact, logic _ hd hact⟩
  case logicToQ0 =>
    intro hd
    exact ⟨predOp_to_Q0 _ hd, predOp_to_Q0 _ hd, predOp_to_Q0 _ hd, predOp_to_Q0 _ hd, predOp_to_Q0 _ hd⟩
  case compares =>
    intro n hq hact hty
    have hcmp (f g) : q (compareOp f g n) (tQD w) = g a.toInt b.toInt := (compare f g n hq hact).trans (compareBit_int32 f g n hty)
    have heq : (a.toInt == b.toInt) = (a == b) := by simp [Bool.beq_eq_decide_eq, BitVec.toInt_inj]
    exact ⟨(hcmp _ _).trans heq, hcmp _ _, hcmp _ _, hcmp _ _⟩
  case signs =>
    intro n hact hty hsat
    obtain ⟨halo, hahi⟩ := toInt_word_bounds a
    have hres (f g) : (r (signOp f g n)).toInt = max (-(2 ^ 31)) (min (2 ^ 31 - 1) (g a.toInt)) := by
      rw [← toInt_intResult_sat, ← signOp_sat f g n hi hact hty hsat]
    exact ⟨(hres _ _).trans (by omega), (hres _ _).trans (by omega)⟩
  case reductions =>
    intro l hl hpos
    have hat : i = posIndex w l := hpos
    subst hat
    exact ⟨el_xRcnt hl, el_xRsum_int32 hl, el_xRsum_fp32 hl, on_xRcnt hl⟩
  case zeroRegisters => exact fun x => ⟨v.scalar_zero, v.pred_zero, v.setScalar_zero x, v.setPred_zero⟩
  case scalars =>
    intro hd n
    exact ⟨scalar_scalarOp _ hd, scalar_scalarOp _ hd, scalar_scalarOp _ hd, scalar_scalarOp _ hd, scalar_scalarOp _ hd,
      fun hcount => ⟨scalar_shiftBy _ n hd hcount, scalar_shiftBy _ n hd hcount⟩, Ve.scalar_setScalar_same v hd (fSD_lt w) _⟩

end Sys2Proof.Machine
end

section
/-! ### Event sources, claims and completions (R378–R383)

What an input, a claim and a completion leave of a source; when a source is offered to a target; and the statement O26. -/
namespace Sys2Proof.Machine

/-! #### Sampling a level source (R378, R382) -/

namespace Source
variable {x : Source}

theorem sample_of_not_active (h : x.owner = none) : x.sample = { x with pending := x.input || x.pending } := by
  obtain ⟨pending, owner, mask, prio, input⟩ := x
  cases h
  cases input <;> simp [sample]

theorem sample_of_active (h : x.owner ≠ none) : x.sample = x := by
  simp [sample, Option.isNone_iff_eq_none, h]

end Source

namespace State
variable {s : State} {n t : Nat} {high : Bool}

theorem src_setSrc_same (hwf : NMap.wf Source.init s.ev.src = true) (x : Source) : (s.setSrc n x).src n = x :=
  (NMap.get_set hwf n x n).trans (if_pos rfl)

/-! #### Inputs (R378, R382) -/

theorem drive_absent (hn : sourcePresent s.variant n = false) : s.drive n high = s := by
  simp [drive, hn]

theorem drive_edge (hn : sourcePresent s.variant n = true) (hedge : sourceLevel n = false) :
    s.drive n high = s.setSrc n { s.src n with input := high, pending := (s.src n).pending || (high && !(s.src n).input) } := by
  simp [drive, hn, hedge]

theorem drive_level_not_active (hn : sourcePresent s.variant n = true) (hlevel : sourceLevel n = true) (hidle : (s.src n).owner = none) :
    s.drive n high = s.setSrc n { s.src n with input := high, pending := high || (s.src n).pending } := by
  simp [drive, hn, hlevel, Source.sample_of_not_active, hidle]

theorem drive_level_active (hn : sourcePresent s.variant n = true) (hlevel : sourceLevel n = true) (hactive : (s.src n).owner ≠ none) :
    s.drive n high = s.setSrc n { s.src n with input := high } := by
  simp [drive, hn, hlevel, Source.sample_of_active, hactive]

/-! #### Completions (R381) -/

theorem completeSource_edge (hedge : sourceLevel n = false) :
    s.completeSource n = s.setSrc n { s.src n with owner := none } := by
  simp [completeSource, hedge]

theorem completeSource_level (hlevel : sourceLevel n = true) :
    s.completeSource n = s.setSrc n { s.src n with owner := none, pending := (s.src n).pending || (s.src n).input } := by
  simp [completeSource, hlevel, Source.sample_of_not_active, Bool.or_comm]

/-! #### Offering (R379, R383) -/

theorem offered_iff : s.offered t n = true ↔ (s.src n).pending = true ∧ (s.src n).owner = none ∧ (s.src n).mask.testBit t = true
    ∧ s.threshold t ≤ (s.src n).prio ∧ s.ev.disable = false := by
  simp [offered, and_assoc]

theorem not_offered_of_active (hactive : (s.src n).owner ≠ none) : s.offered t n = false :=
  Bool.eq_false_iff.mpr fun h => hactive (offered_iff.mp h).2.1

/-- A source completed while pending is offered again (R382); the threshold and the disable are those of `s`. -/
theorem offered_setSrc_not_active (hwf : NMap.wf Source.init s.ev.src = true) (hpend : (s.src n).pending = true)
    (hmask : (s.src n).mask.testBit t = true) (hprio : s.threshold t ≤ (s.src n).prio) (hdis : s.ev.disable = false) :
    (s.setSrc n { s.src n with owner := none }).offered t n = true := by
  rw [offered_iff, src_setSrc_same hwf]
  exact ⟨hpend, rfl, hmask, hprio, hdis⟩

end State

/-! #### The commands -/

section
variable {s : State} {t : Nat} {v : Word}

theorem exec_eventSourceInput (n : Nat) (high : Bool) (s : State) : exec (.eventSourceInput n high) s = .next (s.drive n high) := rfl

theorem exec_evClaim_offered (ht : t < 12) (hn : s.claimable t ≠ 0) :
    exec (.evClaim t) s = .next (({ s with readData := [BitVec.ofNat 32 (s.claimable t)] }).setSrc (s.claimable t)
      { s.src (s.claimable t) with pending := false, owner := some t }) := by
  change execEvClaim t s = _
  simp only [execEvClaim, ge_iff_le, Nat.not_le.mpr ht, hn, if_false]
  rfl

theorem exec_evClaim_spurious (ht : t < 12) (hn : s.claimable t = 0) :
    exec (.evClaim t) s = .next ({ s with readData := [0] }.bump (aEV 0x10) 1) := by
  change execEvClaim t s = _
  simp [execEvClaim, Nat.not_le.mpr ht, hn]

theorem exec_evComplete_zero (hv : v.toNat % 256 = 0) : exec (.evComplete t v) s = .next s :=
  if_pos (Or.inr hv)

theorem exec_evComplete_owner (ht : t < 12) (hv : v.toNat % 256 ≠ 0) (hown : (s.src (v.toNat % 256)).owner = some t) :
    exec (.evComplete t v) s = .next (s.completeSource (v.toNat % 256)) := by
  change execEvComplete t v s = _
  simp [execEvComplete, Nat.not_le.mpr ht, hv, hown]

theorem exec_evComplete_not_owner (ht : t < 12) (hv : v.toNat % 256 ≠ 0) (hown : (s.src (v.toNat % 256)).owner ≠ some t) :
    exec (.evComplete t v) s = .next (s.bump (aEV 0x08) 1) := by
  change execEvComplete t v s = _
  simp [execEvComplete, Nat.not_le.mpr ht, hv, hown]

end

/-- Settles O26, command by command: each answers by the rule above of the source it names. -/
theorem eventController : Obligations.EventController := by
  unfold Obligations.EventController
  refine ⟨?edgeRises, ?levelIdle, ?levelActive, ?absent, ?claim, ?spurious, ?completeEdge, ?completeLevel, ?badCompletion, ?zeroCompletion,
    ?offeredAgain, ?disable⟩
  case edgeRises =>
    intro n s hn hedge
    rw [exec_eventSourceInput, State.drive_edge hn hedge, Bool.true_and]
  case levelIdle =>
    intro n high s hn hlevel hidle
    rw [exec_eventSourceInput, State.drive_level_not_active hn hlevel hidle]
  case levelActive =>
    intro n high s hn hlevel hactive
    rw [exec_eventSourceInput, State.drive_level_active hn hlevel hactive]
  case absent =>
    intro n high s hn
    rw [exec_eventSourceInput, State.drive_absent hn]
  case claim => exact fun t s => exec_evClaim_offered
  case spurious => exact fun t s => exec_evClaim_spurious
  case completeEdge =>
    intro t v s ht hv hown hedge
    rw [exec_evComplete_owner ht hv hown, State.completeSource_edge hedge]
  case completeLevel =>
    intro t v s ht hv hown hlevel
    rw [exec_evComplete_owner ht hv hown, State.completeSource_level hlevel]
  case badCompletion => exact fun t v s => exec_evComplete_not_owner
  case zeroCompletion => exact fun t v s => exec_evComplete_zero
  case offeredAgain =>
    intro t n s hwf hactive hpend hmask hprio hdis
    exact ⟨State.not_offered_of_active hactive, State.offered_setSrc_not_active hwf hpend hmask hprio hdis⟩
  case disable => exact fun on s => rfl

end Sys2Proof.Machine
end

section
/-! ### Reading the step counter (R413)

What a STEP_READ that starts does, where its packet may come in, and the statement O59. -/
namespace Sys2Proof.Machine

@[simp] theorem State.ctx_setCmd (s : State) (d : Cmd) (t c : Nat) : (s.setCmd d).ctx t c = s.ctx t c := rfl

/-- The start of a command is no change to any context. -/
@[simp] theorem ctx_Begun (s : State) (d : Cmd) (t c : Nat) : (Begun s d).ctx t c = s.ctx t c :=
  s.ctx_setCmd (begun s d) t c

/-- What STEP_READ returns is what stood in the context before it started. -/
theorem runStepRead_begun (s : State) (c : Cmd) :
    runStepRead (Begun s c) (begun s c) = (Begun s c).ok c.id
      (leBytes 8 (s.ctx c.tenant c.ctx).step.toNat ++ leBytes 8 (s.ctx c.tenant c.ctx).seed.toNat) := by
  simp only [runStepRead, ctx_Begun]
  rfl

theorem exec_opStepRead (s : State) (id : Nat) :
    exec (.opStepRead id) s = .next (runCoreless 0x9005 (fun _ _ => none) runStepRead id s) := rfl

theorem exec_opStepRead_ready {s : State} {id : Nat} {c : Cmd} (h : Ready s 0x9005 id c) :
    exec (.opStepRead id) s = .next ((Begun s c).ok c.id
      (leBytes 8 (s.ctx c.tenant c.ctx).step.toNat ++ leBytes 8 (s.ctx c.tenant c.ctx).seed.toNat)) := by
  rw [exec_opStepRead, runCoreless_runs h rfl, runStepRead_begun]

theorem entryAllowed_stepRead (e : Entry) : entryAllowed 0x9005 e = true ↔ e = .pf ∨ e = .vf := by
  cases e with
  | pf | vf => exact iff_of_true (by decide) (by decide)
  | mgmt | remote => exact iff_of_false (by decide) (by decide)

/-- Settles O59: the effect of a STEP_READ that starts, then the shape of its packet, its scope and its entries. -/
theorem stepRead : Obligations.StepRead := by
  unfold Obligations.StepRead
  refine ⟨?effect, ?noParameters, ?fixedLength, ?packet, ?namesContext, ?entries⟩
  case effect => exact fun _ _ _ => exec_opStepRead_ready
  case noParameters => exact fun _ => rfl
  case fixedLength => decide
  case packet => decide
  case namesContext => decide
  case entries => exact entryAllowed_stepRead

end Sys2Proof.Machine
end

section
/-! ### A step of the block (logs 2, 12) and the flash (R448, R458)

What every command answers, keeps and only raises, gathered from the laws of what each operation keeps; the statements O1 to O5 and O7. -/
namespace Sys2Proof.Machine

theorem step_cons {c : Instr} {rest : List Instr} {s : State} (h : s.pending = c :: rest) :
    step s = exec c { s with pending := rest } := by
  simp only [step, h]

theorem step_nil {s : State} (h : s.pending = []) : step s = .next (tick s) := by
  simp only [step, h]

/-- Of what `State.kept` gathers, a tick moves the local counter alone. -/
theorem tick_kept (s : State) : (tick s).kept = (s.pending, s.variant, (s.now + 1) % 2 ^ 64, s.st) := by
  simp [tick]

/-- Settles O1. -/
theorem stepRunsFront : Obligations.StepRunsFront := fun _ _ _ => step_cons

/-- Settles O2: the tick's own equation, then what it keeps. -/
theorem emptyQueueTicks : Obligations.EmptyQueueTicks := fun s h =>
  have hk := tick_kept s
  ⟨tick s, step_nil h, congrArg (·.2.2.1) hk, (congrArg (·.1) hk).trans h⟩

/-- At reset no tenant lists a context: tenant 0 as it is made, any other unprovisioned. -/
theorem tenant_reset_ctxs (t : Nat) : (State.reset.tenant t).ctxs = [] := by
  cases t <;> rfl

/-- Settles O3: every map of the reset state lists nothing, so every key reads its default. -/
theorem resetLeaves : Obligations.ResetLeaves :=
  ⟨rfl, rfl, rfl, rfl, rfl, rfl, rfl, fun t c => by rw [State.ctx, tenant_reset_ctxs]; rfl, fun _ => rfl, fun _ => rfl, fun _ => rfl, fun _ => rfl, fun _ => rfl, fun _ => rfl,
    fun _ _ => rfl, rfl, rfl⟩

/-- Settles O7. -/
theorem resetSigIndexBounded : Obligations.ResetSigIndexBounded := Nat.zero_le _

/-! #### Engine items and signal-core instructions -/

theorem engineWrite_kept {s t : State} {a : Nat} {bs : List Byte} (h : engineWrite s a bs = .ok t) : t.kept = s.kept := by
  unfold engineWrite at h
  split at h
  · split at h
    · cases h
    · split at h
      · cases h
      · cases h; rfl
  · split at h
    · cases h
    · split at h
      · cases h
      · split at h
        · next hw =>
          cases h
          simpa [hw] using State.writeRef_kept s 0 0 0 a 0 bs false false
        · cases h

theorem map_eq_ok {ε α β : Type} {x : Except ε α} {f : α → β} {b : β} (h : x.map f = .ok b) : ∃ a, x = .ok a ∧ f a = b := by
  cases x with
  | error e => cases h
  | ok a => exact ⟨a, rfl, Except.ok.inj h⟩

/-- What a write that is followed by a pure function of its state keeps. -/
theorem engineWrite_map_kept {s t : State} {a n : Nat} {bs : List Byte} {f : State → State × Nat} (hf : ∀ s, (f s).1.kept = s.kept)
    (h : (engineWrite s a bs).map f = .ok (t, n)) : t.kept = s.kept := by
  obtain ⟨s1, hw, ht⟩ := map_eq_ok h
  rw [← engineWrite_kept hw, ← hf s1, ht]

theorem putPoints_kept {out : Nat} {l : List (Nat × (Int × Int))} {s t : State} (h : putPoints out l s = .ok t) : t.kept = s.kept := by
  induction l generalizing s with
  | nil => cases h; rfl
  | cons p l ih =>
    unfold putPoints at h
    split at h
    · next hw => rw [ih h, engineWrite_kept hw]
    · cases h

theorem fftBody_kept {d : FftDesc} {s t : State} {n : Nat} (h : fftBody d s = .ok (t, n)) : t.kept = s.kept := by
  simp only [fftBody] at h
  split at h
  · cases h
  · split at h
    · cases h
    · next h1 =>
      split at h
      · cases h
      · next h2 => cases h; simp [engineWrite_kept h2, engineWrite_kept h1]

theorem mapBody_kept {d : MapDesc} {s t : State} {n : Nat} (h : mapBody d s = .ok (t, n)) : t.kept = s.kept := by
  simp only [mapBody] at h
  split at h
  · cases h
  · split at h
    · cases h
    · obtain ⟨s1, hw, heq⟩ := map_eq_ok h
      cases heq
      exact putPoints_kept hw

theorem demapBody_kept {d : MapDesc} {s t : State} {n : Nat} (h : demapBody d s = .ok (t, n)) : t.kept = s.kept := by
  simp only [demapBody] at h
  split at h
  · cases h
  · split at h
    · cases h
    · split at h
      · cases h
      · next hw => rw [engineWrite_map_kept (fun _ => rfl) h, engineWrite_kept hw, State.draw_kept]

theorem ldpcDecodeBody_kept {d : LdpcDesc} {s t : State} {n : Nat} (h : ldpcDecodeBody d s = .ok (t, n)) : t.kept = s.kept := by
  simp only [ldpcDecodeBody] at h
  split at h
  · cases h
  · split at h
    · cases h
    · split at h
      · cases h
      · next s1 hharq =>
        split at h
        · cases h
        · next s2 hout =>
          have h1 : s1.kept = s.kept := by
            split at hharq
            · exact engineWrite_kept hharq
            · cases hharq; rfl
          cases h
          simp [State.kept_ite, engineWrite_kept hout, h1]

theorem ldpcEncodeBody_kept {d : LdpcDesc} {s t : State} {n : Nat} (h : ldpcEncodeBody d s = .ok (t, n)) : t.kept = s.kept := by
  simp only [ldpcEncodeBody] at h
  split at h
  · cases h
  · rw [engineWrite_map_kept (fun _ => rfl) h, State.draw_kept]

theorem polarEncodeBody_kept {d : PolarDesc} {s t : State} {n : Nat} (h : polarEncodeBody d s = .ok (t, n)) : t.kept = s.kept := by
  simp only [polarEncodeBody] at h
  split at h
  · cases h
  · rw [engineWrite_map_kept (fun _ => State.bump_kept ..) h, State.draw_kept]

theorem polarDecodeBody_kept {d : PolarDesc} {s t : State} {n : Nat} (h : polarDecodeBody d s = .ok (t, n)) : t.kept = s.kept := by
  simp only [polarDecodeBody] at h
  split at h
  · cases h
  · split at h
    · cases h
    · next hw =>
      have hk := (engineWrite_kept hw).trans (State.draw_kept s)
      split at h <;> cases h <;> simp [hk]

theorem prachBody_kept {d : PrachDesc} {s t : State} {n : Nat} (h : prachBody d s = .ok (t, n)) : t.kept = s.kept := by
  simp only [prachBody] at h
  split at h
  · cases h
  · cases h
    split <;> simp

theorem scPush_kept {s : State} {r : ScRegs} {n c : Nat} {t} (h : scPush s r n c = .ok t) : t.1.kept = s.kept := by
  unfold scPush at h
  (repeat' split at h) <;> cases h <;> rfl

/-- A coreless command raises what its body raises. -/
theorem runCoreless_rises {op : Nat} {check : State → Cmd → Option Fail} {body : State → Cmd → State} (id : Nat) (s : State)
    (hb : ∀ (s : State) c, s.rises (body s c)) : s.rises (runCoreless op check body id s) := by
  unfold runCoreless
  split
  · exact s.rises_refl
  · split
    · split
      · exact State.rises_of_kept (by simp)
      · exact State.rises_trans (State.rises_of_kept (State.setCmd_kept ..)) (hb _ _)
    · split
      · exact hb _ _
      · exact s.rises_refl

theorem State.rises_ite {p : Prop} [Decidable p] {s a b : State} (ha : s.rises a) (hb : s.rises b) : s.rises (if p then a else b) := by
  split <;> assumption

/-- No command answers a fault or a refusal, none changes the queue or the variant, and none lowers a flash counter: the few that touch
Steward's flash each by their own law, every other by what it keeps. -/
theorem exec_rises (c : Instr) (s : State) : ∃ t, exec c s = .next t ∧ s.rises t := by
  cases c
  case resetTrip => exact ⟨_, rfl, s.trip_rises⟩
  case overvoltageTrip => exact ⟨_, rfl, s.trip_rises⟩
  case thermalTrip die => exact ⟨_, rfl, State.rises_ite s.trip_rises s.rises_refl⟩
  case moduleReset =>
    refine ⟨_, rfl, ?_⟩
    split
    · exact State.rises_ite s.resetModule_rises s.rises_refl
    · exact s.rises_refl
  case inputValid o => exact ⟨_, rfl, inputValid_rises o s⟩
  case startupComplete t => exact ⟨_, rfl, startupComplete_rises t s⟩
  case brownoutWarning v => exact ⟨_, rfl, brownoutWarning_rises v s⟩
  case opFwStage id => exact ⟨_, rfl, State.rises_ite s.rises_refl (runCoreless_rises id s runFwStage_rises)⟩
  case opFwActivate id => exact ⟨_, rfl, State.rises_ite s.rises_refl (runCoreless_rises id s runFwActivate_rises)⟩
  case hotRestartResume => exact ⟨_, rfl, hotRestartResume_rises s⟩
  case hotRestartTimeout => exact ⟨_, rfl, hotRestartTimeout_rises s⟩
  case opAttest id => exact ⟨_, rfl, runCoreless_rises id s runAttest_rises⟩
  case opRegWrite id => exact ⟨_, rfl, runCoreless_rises id s runRegWrite_rises⟩
  case registerWrite r v =>
    refine ⟨_, rfl, ?_⟩
    split
    · exact State.rises_of_kept (barWrite_kept ..)
    · exact State.rises_ite s.rises_refl (State.rises_of_kept (State.aerEvent_kept ..))
    · exact s.regWrite_rises _ _
  case mcCtlClear k => exact ⟨_, rfl, State.rises_ite (s.regWrite_rises _ _) s.rises_refl⟩
  case veCtlClear k => exact ⟨_, rfl, State.rises_ite (s.regWrite_rises _ _) s.rises_refl⟩
  case dpCtlClear d => exact ⟨_, rfl, State.rises_ite (s.regWrite_rises _ _) s.rises_refl⟩
  case tmCtlClear n => exact ⟨_, rfl, State.rises_ite (s.regWrite_rises _ _) s.rises_refl⟩
  case wfCtlClear => exact ⟨_, rfl, s.regWrite_rises _ _⟩
  case sxCtlClear => exact ⟨_, rfl, s.regWrite_rises _ _⟩
  case evClaim t =>
    change ∃ u, execEvClaim t s = .next u ∧ _
    unfold execEvClaim
    dsimp only
    split
    · exact ⟨_, rfl, s.rises_refl⟩
    · split <;> exact ⟨_, rfl, State.rises_of_kept (by simp)⟩
  case evComplete t v =>
    change ∃ u, execEvComplete t v s = .next u ∧ _
    unfold execEvComplete
    dsimp only
    split
    · exact ⟨_, rfl, s.rises_refl⟩
    · split <;> exact ⟨_, rfl, State.rises_of_kept (by simp)⟩
  case scAccrd | scCmpw | scLdil | scLdih | scNop | scDone | scSetf | scClrf =>
    exact ⟨_, rfl, State.rises_of_kept (scStep_kept _ _ _ _ _ _ fun r t h => by cases h; rfl)⟩
  case scMovr => exact ⟨_, rfl, State.rises_of_kept (scStep_kept _ _ _ _ _ _ fun r t h => by cases h; exact movrRead_kept ..)⟩
  case scAddpi =>
    refine ⟨_, rfl, State.rises_of_kept (scStep_kept _ _ _ _ _ _ fun r t h => ?_)⟩
    obtain ⟨q, -, rfl⟩ := map_eq_ok h
    rfl
  case scLd | scSt | scCall | scRet | scBreak | scWaitf =>
    refine ⟨_, rfl, State.rises_of_kept (scStep_kept _ _ _ _ _ _ fun r t h => ?_)⟩
    (repeat' split at h) <;> cases h <;> simp
  case scBr =>
    refine ⟨_, rfl, State.rises_of_kept (scStep_kept _ _ _ _ _ _ fun r t h => ?_)⟩
    dsimp only at h
    (repeat' split at h) <;> cases h <;> rfl
  case scLoop | scLoopr =>
    exact ⟨_, rfl, State.rises_of_kept (scStep_kept _ _ _ _ _ _ fun r t h => scPush_kept h)⟩
  case scSfFir | scSfSearch =>
    refine ⟨_, rfl, State.rises_of_kept (scStep_kept _ _ _ _ _ _ fun r t h => ?_)⟩
    dsimp only at h
    (repeat' split at h) <;> cases h
    all_goals simp (disch := simp) [foldl_kept_fst, macLoads_kept _ _ _ _ _ _ ‹_›]
  case fftIfft => exact ⟨_, rfl, State.rises_of_kept (runItem_kept _ _ _ _ _ _ _ fun _ _ => fftBody_kept)⟩
  case map => exact ⟨_, rfl, State.rises_of_kept (runItem_kept _ _ _ _ _ _ _ fun _ _ => mapBody_kept)⟩
  case demap => exact ⟨_, rfl, State.rises_of_kept (runItem_kept _ _ _ _ _ _ _ fun _ _ => demapBody_kept)⟩
  case ldpcDecode => exact ⟨_, rfl, State.rises_of_kept (runItem_kept _ _ _ _ _ _ _ fun _ _ => ldpcDecodeBody_kept)⟩
  case ldpcEncode => exact ⟨_, rfl, State.rises_of_kept (runItem_kept _ _ _ _ _ _ _ fun _ _ => ldpcEncodeBody_kept)⟩
  case polarEncode => exact ⟨_, rfl, State.rises_of_kept (runItem_kept _ _ _ _ _ _ _ fun _ _ => polarEncodeBody_kept)⟩
  case polarDecode => exact ⟨_, rfl, State.rises_of_kept (runItem_kept _ _ _ _ _ _ _ fun _ _ => polarDecodeBody_kept)⟩
  case prach => exact ⟨_, rfl, State.rises_of_kept (runItem_kept _ _ _ _ _ _ _ fun _ _ => prachBody_kept)⟩
  case domainSwitchDone t => exact ⟨_, rfl, State.rises_of_kept (domainSwitchDone_kept t s)⟩
  case opContextReset | dynamicAddressAssignment =>
    refine ⟨_, rfl, State.rises_of_kept ?_⟩
    (repeat' split) <;> simp
  all_goals exact ⟨_, rfl, State.rises_of_kept (by simp [runCoreless_kept, runTier_kept, runCore_kept, reading_kept, runRouter_kept, State.kept_ite])⟩

theorem step_rises (s : State) : ∃ t, step s = .next t ∧ ({ s with pending := s.pending.tail } : State).rises t := by
  cases hp : s.pending with
  | nil =>
    obtain ⟨hpending, hvariant, hsecurity, hsig⟩ := tick_rises s
    exact ⟨_, step_nil hp, hpending.trans hp, hvariant, hsecurity, hsig⟩
  | cons c rest => rw [step_cons hp]; exact exec_rises c _

/-- Settles O4. -/
theorem execKeepsQueueAndVariant : Obligations.ExecKeepsQueueAndVariant := by
  intro c s t h
  obtain ⟨u, hu, hpending, hvariant, -, -⟩ := exec_rises c s
  obtain rfl : u = t := by simpa [hu] using h
  exact ⟨hpending, hvariant⟩

/-- Settles O5. -/
theorem flashCountersRise : Obligations.FlashCountersRise := by
  intro s t h
  obtain ⟨u, hu, -, -, hsecurity, hsig⟩ := step_rises s
  obtain rfl : u = t := by simpa [hu] using h
  exact ⟨hsecurity, hsig⟩

/-! #### The signature index (R448) -/

/-- A module that has one ATTEST left started, its signature index spent up: nothing in the statement rules it out. -/
def attestLeftStarted : State :=
  { State.reset with
    pending := [.opAttest 0]
    cmds := [{ parseCmd (leBytes 2 0xE003) .pf 0 with stage := .started }]
    st := { Steward.init with sigIndex := 2 ^ 20 } }

/-- ATTEST without KEY spends one index, whatever the index is. -/
theorem runAttest_sigIndex {s : State} {c : Cmd} (h : atKey c = false) : (runAttest s c).st.sigIndex = s.st.sigIndex + 1 := by
  simp only [runAttest, h, Bool.false_eq_true, if_false]
  rw [State.kept_st (State.ok_kept ..), State.kept_st (State.writeBlock_kept ..)]

/-- Refutes O6: the limit is judged where ATTEST is accepted and where it starts, and its body runs without that check when the command
is found started. `attestLeftStarted` is such a state within the bound; the step spends index 2^20 and leaves SIG_INDEX at 2^20 + 1. (No
ATTEST stays started after its step, so the bound wants that as a further part of its invariant.) -/
theorem not_sigIndexBounded : ¬ Obligations.SigIndexBounded := by
  intro h
  have hstep : step attestLeftStarted = .next (runAttest { attestLeftStarted with pending := [] }
      { parseCmd (leBytes 2 0xE003) .pf 0 with stage := .started }) := rfl
  have hbound : (runAttest _ _).st.sigIndex ≤ 2 ^ 20 := h _ _ (by decide) hstep
  rw [runAttest_sigIndex (by decide)] at hbound
  exact absurd hbound (by decide)

end Sys2Proof.Machine
end

section
/-! ### Byte memories, counters and records (R9, R12, R24, R34, R87, R380)

What a byte string, a field and a counter read after a write, the lists of fields in a record and in a packet, and the choice among offered
event sources; the statements O8 to O11 and O25. -/
namespace Sys2Proof

/-! #### Little-endian strings and the fields of a list (R9) -/

@[simp] theorem length_leBytes (n v : Nat) : (leBytes n v).length = n := by
  induction n generalizing v with
  | zero => rfl
  | succ n ih => rw [leBytes, List.length_cons, ih]

theorem leNat_leBytes (n v : Nat) : leNat (leBytes n v) = v % 256 ^ n := by
  induction n generalizing v with
  | zero => simp [leBytes, leNat, Nat.mod_one]
  | succ n ih =>
    rw [leBytes, leNat, ih, BitVec.toNat_ofNat, pow_succ' 256 n]
    exact (Nat.mod_mul (a := 256)).symm

/-- A field past what stands before a list lies in the list. -/
theorem fieldAt_append_right {a b : List Byte} {o : Nat} (n : Nat) (h : a.length ≤ o) : fieldAt (a ++ b) o n = fieldAt b (o - a.length) n := by
  rw [fieldAt, List.drop_append, List.drop_eq_nil_of_le h, List.nil_append, fieldAt]

/-- The field that a little-endian string at the front is. -/
theorem fieldAt_leBytes_front (n v : Nat) (b : List Byte) : fieldAt (leBytes n v ++ b) 0 n = v % 256 ^ n := by
  rw [fieldAt, List.drop_zero, List.take_append_of_le_length (by simp), List.take_of_length_le (by simp), leNat_leBytes]

theorem fieldAt_leBytes_skip {k v o : Nat} (n : Nat) (b : List Byte) (h : k ≤ o) : fieldAt (leBytes k v ++ b) o n = fieldAt b (o - k) n := by
  rw [fieldAt_append_right n (by simpa using h), length_leBytes]

/-- Word `i` of a list of words. -/
theorem fieldAt_words {l : List Nat} {i : Nat} (b : List Byte) (h : i < l.length) : fieldAt (l.flatMap (leBytes 4) ++ b) (4 * i) 4 = l[i] % 2 ^ 32 := by
  induction l generalizing i with
  | nil => simp at h
  | cons x l ih =>
    rw [List.flatMap_cons, List.append_assoc]
    cases i with
    | zero => exact fieldAt_leBytes_front 4 x _
    | succ i =>
      rw [fieldAt_leBytes_skip 4 _ (by omega), show 4 * (i + 1) - 4 = 4 * i by omega]
      exact ih (by simpa using h)

/-- A list of words reads back after what stands before it. -/
theorem words_read_back {l : List Nat} (a b : List Byte) (h : ∀ k ∈ l, k < 2 ^ 32) :
    ((List.range l.length).map fun i => fieldAt (a ++ (l.flatMap (leBytes 4) ++ b)) (a.length + 4 * i) 4) = l := by
  refine List.ext_getElem (by simp) fun i hi hi' => ?_
  rw [List.getElem_map, List.getElem_range, fieldAt_append_right 4 (by omega), Nat.add_sub_cancel_left, fieldAt_words b hi']
  exact Nat.mod_eq_of_lt (h _ (List.getElem_mem _))

/-- A cut that takes the middle of three parts. -/
theorem take_drop_middle {α : Type} (a b c : List α) : ((a ++ (b ++ c)).drop a.length).take b.length = b := by
  rw [List.drop_left, List.take_left]

theorem fitBytes_of_le {n : Nat} {bs : List Byte} (h : bs.length ≤ n) : fitBytes n bs = bs ++ List.replicate (n - bs.length) 0 :=
  List.take_of_length_le (by simp; omega)

/-! #### Maps with keys dropped (R87) -/

namespace NMap
variable {α : Type}

theorem get_drop (d : α) {m : NMap α} (p : Nat → Bool) (k : Nat) : ∀ {lo : Option Nat}, sortedFrom lo m = true →
    get d (drop p m) k = if p k then d else get d m k := by
  induction m with
  | nil => intro _ _; exact (ite_self d).symm
  | cons e m ih =>
    intro lo h
    obtain ⟨j, v⟩ := e
    have ht := sorted_tail h
    have hrest : get d (drop p m) k = if p k then d else get d m k := ih ht
    rw [drop, List.filter_cons]
    by_cases hj : p j
    · simp only [hj, Bool.not_true, Bool.false_eq_true, if_false]
      change get d (drop p m) k = _
      rw [hrest]
      by_cases hk : p k
      · rw [if_pos hk, if_pos hk]
      · have hne : k ≠ j := fun h => hk (h ▸ hj)
        rw [if_neg hk, if_neg hk, get, if_neg hne]
        split
        · exact get_below ht (by omega)
        · rfl
    · simp only [hj, Bool.not_false, if_true, get]
      change (if k = j then v else if k < j then d else get d (drop p m) k) = _
      rw [hrest]
      split
      · next heq => subst heq; rw [if_neg hj]
      · split
        · exact (ite_self d).symm
        · rfl

end NMap

namespace Machine

/-! #### Byte memories -/

namespace Memory
variable {m : Memory}

theorem read_write (h : Memory.wf m = true) (a : Nat) (b : Byte) (x : Nat) :
    Memory.read (Memory.write m a b) x = if x = a then b else Memory.read m x := NMap.get_set h a b x

/-- Nothing outside a string written changes. -/
theorem read_writeN_outside (h : Memory.wf m = true) {a : Nat} {bs : List Byte} {x : Nat} (hx : x < a ∨ a + bs.length ≤ x) :
    Memory.read (Memory.writeN m a bs) x = Memory.read m x := by
  induction bs generalizing m a with
  | nil => rfl
  | cons b bs ih =>
    rw [List.length_cons] at hx
    rw [Memory.writeN, ih (wf_write h a b) (by omega), read_write h, if_neg (by omega)]

/-- A string written reads back byte by byte. -/
theorem read_writeN_inside (h : Memory.wf m = true) (a : Nat) {bs : List Byte} {i : Nat} (hi : i < bs.length) :
    Memory.read (Memory.writeN m a bs) (a + i) = bs[i] := by
  induction bs generalizing m a i with
  | nil => simp at hi
  | cons b bs ih =>
    rw [Memory.writeN]
    cases i with
    | zero => rw [read_writeN_outside (wf_write h a b) (by omega), read_write h, if_pos (by omega)]; rfl
    | succ i => rw [show a + (i + 1) = a + 1 + i by omega, ih (wf_write h a b)]; rfl

theorem readN_writeN (h : Memory.wf m = true) (a : Nat) (bs : List Byte) : Memory.readN (Memory.writeN m a bs) a bs.length = bs := by
  rw [readN_eq (wf_writeN h a bs)]
  refine List.ext_getElem (by simp) fun i hi hi' => ?_
  rw [List.getElem_map, List.getElem_range, read_writeN_inside h a hi']

end Memory

/-- Settles O8, from the reads after one byte and after a string, and the value of a little-endian string. -/
theorem memoriesAndFieldsReadBack : Obligations.MemoriesAndFieldsReadBack := by
  unfold Obligations.MemoriesAndFieldsReadBack
  refine ⟨⟨fun m a b h => ⟨Memory.wf_write h a b, Memory.read_write h a b⟩, fun m a bs h => ⟨Memory.wf_writeN h a bs, ?inside, ?outside⟩⟩,
    fun n v => ⟨length_leBytes n v, leNat_leBytes n v⟩, fun m a n v h => ?field⟩
  case inside => exact fun i hi => Memory.read_writeN_inside h a hi
  case outside => exact fun x hx => Memory.read_writeN_outside h hx
  case field =>
    have hread := Memory.readN_writeN h a (leBytes n v)
    rw [length_leBytes] at hread
    rw [hread, leNat_leBytes]

/-! #### Counters (R12, R87) -/

/-- Settles O9. -/
theorem countersSaturateAndClear : Obligations.CountersSaturateAndClear := by
  unfold Obligations.CountersSaturateAndClear
  refine ⟨fun s a n h => ⟨NMap.wf_set h .., ?added, ?others⟩, fun s lo hi h => ⟨?wf, rfl, ?cleared⟩⟩
  case added => exact (NMap.get_set h a _ a).trans (if_pos rfl)
  case others => exact fun b hb => (NMap.get_set h a _ b).trans (if_neg hb)
  case wf => exact NMap.wf_drop h fun a => decide (lo ≤ a) && decide (a < hi)
  case cleared =>
    intro a
    have hget := NMap.get_drop 0 (fun a => decide (lo ≤ a) && decide (a < hi)) a (NMap.wf_iff.1 h).1
    simp only [Bool.and_eq_true, decide_eq_true_eq] at hget
    exact hget

/-! #### Reply records (R34, Table 2-6) -/

/-- The flags byte of a record. -/
theorem flags_testBit (a b c : Bool) : let v := b2n a * 128 + b2n b * 64 + b2n c * 32
    (v % 256).testBit 7 = a ∧ (v % 256).testBit 6 = b ∧ (v % 256).testBit 5 = c := by
  cases a <;> cases b <;> cases c <;> decide

/-- Settles O10: the fields follow one another, each where the ones before it end. -/
theorem replyRecordFields : Obligations.ReplyRecordFields := by
  intro r mark ns tail size htag hstatus hctx hmark hstep hres
  obtain ⟨hphase, hfinal, horigin⟩ := flags_testBit (decide (tail / size % 2 = 0)) r.final r.origin
  have hskip := @fieldAt_leBytes_skip
  simp only [replyBytes, List.append_assoc]
  refine ⟨?length, ?tag, ?status, ?ctx, ?mark, ?phase, ?final, ?origin, ?time, ?step, ?result⟩
  case length => simp [fitBytes_of_le hres]; omega
  case tag => rw [fieldAt_leBytes_front]; exact Nat.mod_eq_of_lt htag
  case status => rw [hskip _ _ (by omega), fieldAt_leBytes_front]; exact Nat.mod_eq_of_lt hstatus
  case ctx => simp only [hskip, Nat.reduceLeDiff, Nat.reduceSub, fieldAt_leBytes_front]; exact Nat.mod_eq_of_lt hctx
  case mark => simp only [hskip, Nat.reduceLeDiff, Nat.reduceSub, fieldAt_leBytes_front]; exact Nat.mod_eq_of_lt hmark
  case phase => simp only [hskip, Nat.reduceLeDiff, Nat.reduceSub, fieldAt_leBytes_front]; exact hphase
  case final => simp only [hskip, Nat.reduceLeDiff, Nat.reduceSub, fieldAt_leBytes_front]; exact hfinal
  case origin => simp only [hskip, Nat.reduceLeDiff, Nat.reduceSub, fieldAt_leBytes_front]; exact horigin
  case time => simp only [hskip, Nat.reduceLeDiff, Nat.reduceSub, fieldAt_leBytes_front]; rfl
  case step => simp only [hskip, Nat.reduceLeDiff, Nat.reduceSub, fieldAt_leBytes_front]; exact Nat.mod_eq_of_lt hstep
  case result => simp only [fitBytes_of_le hres, leBytes, List.cons_append, List.nil_append, List.drop_succ_cons, List.drop_zero]

/-! #### Packets (R24, Tables 2-2, 2-3) -/

/-- The 16 bytes of a packet's header. -/
def packetHeader (op flags tag ctx w g : Nat) : List Byte :=
  leBytes 2 op ++ (leBytes 1 0 ++ (leBytes 1 flags ++ (leBytes 2 0 ++ (leBytes 2 tag ++ (leBytes 2 ctx ++ (leBytes 1 w ++ (leBytes 1 g ++ leBytes 4 0)))))))

theorem length_packetHeader (op flags tag ctx w g : Nat) : (packetHeader op flags tag ctx w g).length = 16 := by
  simp [packetHeader]

theorem packetOf_eq (op flags tag ctx : Nat) (waits signals : List Nat) (params tail : List Byte) :
    packetOf op flags tag ctx waits signals params tail = packetHeader op flags tag ctx waits.length signals.length
      ++ (waits.flatMap (leBytes 4) ++ (signals.flatMap (leBytes 4) ++ (params ++ tail))) := by
  simp only [packetOf, packetHeader, List.append_assoc]

theorem length_words (l : List Nat) : (l.flatMap (leBytes 4)).length = 4 * l.length := by
  simp [List.length_flatMap, Nat.mul_comm]

section
variable {op flags tag ctx : Nat} {waits signals : List Nat} (params tail : List Byte)

/-- The fields of the header. -/
theorem packetOf_header_fields (hop : op < 2 ^ 16) (hflags : flags < 2 ^ 8) (htag : tag < 2 ^ 16) (hctx : ctx < 2 ^ 16)
    (hw : waits.length < 2 ^ 8) (hg : signals.length < 2 ^ 8) :
    let p := packetOf op flags tag ctx waits signals params tail
    fieldAt p 0 2 = op ∧ fieldAt p 3 1 = flags ∧ fieldAt p 6 2 = tag ∧ fieldAt p 8 2 = ctx ∧ fieldAt p 10 1 = waits.length
      ∧ fieldAt p 11 1 = signals.length := by
  simp only [packetOf, List.append_assoc, fieldAt_leBytes_skip, Nat.reduceLeDiff, Nat.reduceSub, fieldAt_leBytes_front]
  omega

theorem packetOf_waits (h : ∀ k ∈ waits, k < 2 ^ 32) :
    ((List.range waits.length).map fun i => fieldAt (packetOf op flags tag ctx waits signals params tail) (16 + 4 * i) 4) = waits := by
  have hread := words_read_back (packetHeader op flags tag ctx waits.length signals.length)
    (signals.flatMap (leBytes 4) ++ (params ++ tail)) h
  rwa [length_packetHeader, ← packetOf_eq] at hread

theorem packetOf_signals (h : ∀ k ∈ signals, k < 2 ^ 32) :
    ((List.range signals.length).map fun i => fieldAt (packetOf op flags tag ctx waits signals params tail) (16 + 4 * waits.length + 4 * i) 4)
      = signals := by
  have hread := words_read_back (packetHeader op flags tag ctx waits.length signals.length ++ waits.flatMap (leBytes 4)) (params ++ tail) h
  rwa [List.length_append, length_packetHeader, length_words, List.append_assoc, ← packetOf_eq] at hread

theorem packetOf_params :
    ((packetOf op flags tag ctx waits signals params tail).drop (16 + 4 * (waits.length + signals.length))).take params.length = params := by
  have hcut := take_drop_middle
    (packetHeader op flags tag ctx waits.length signals.length ++ waits.flatMap (leBytes 4) ++ signals.flatMap (leBytes 4)) params tail
  rwa [List.length_append, List.length_append, length_packetHeader, length_words, length_words, List.append_assoc, List.append_assoc,
    ← packetOf_eq, Nat.add_assoc, ← Nat.mul_add] at hcut

end

/-- Settles O11: the header's fields give the two counts, these the places of the words and of the parameters. -/
theorem packetFieldsReadBack : Obligations.PacketFieldsReadBack := by
  intro op flags tag ctx waits signals params tail e tenant hop hvaries hflags htag hctx hw hg hk hparams
  obtain ⟨hopcode, hflagbits, htagfield, hctxfield, hwcount, hgcount⟩ :=
    packetOf_header_fields (waits := waits) (signals := signals) params tail hop hflags htag hctx hw hg
  have hwaits := packetOf_waits (op := op) (flags := flags) (tag := tag) (ctx := ctx) (signals := signals) params tail
    fun k hkw => hk k (List.mem_append_left _ hkw)
  have hsignals := packetOf_signals (op := op) (flags := flags) (tag := tag) (ctx := ctx) (waits := waits) params tail
    fun k hks => hk k (List.mem_append_right _ hks)
  have hcut := packetOf_params (op := op) (flags := flags) (tag := tag) (ctx := ctx) (waits := waits) (signals := signals) params tail
  rw [hparams] at hcut
  generalize packetOf op flags tag ctx waits signals params tail = bs at *
  simp only [parseCmd, hopcode, hflagbits, htagfield, hctxfield, hwcount, hgcount, hvaries, Bool.false_eq_true, if_false, true_and, and_true]
  exact ⟨hwaits, hsignals, hcut⟩

/-! #### The claim (R380) -/

/-- One source looked at: the best so far gives way to a strictly higher priority. -/
def claimBetter (s : State) (best : Option (Nat × Nat)) (n : Nat) : Option (Nat × Nat) :=
  match best with
  | some (b, p) => if p < (s.src n).prio then some (n, (s.src n).prio) else some (b, p)
  | none => some (n, (s.src n).prio)

theorem claimable_eq (s : State) (t : Nat) :
    s.claimable t = (((List.range 256).filter (s.offered t)).foldl (claimBetter s) none).elim 0 Prod.fst := rfl

/-- Of a rising list that is not empty, the choice is a member that none outranks, the lowest of its priority. -/
theorem claimBetter_foldl (s : State) (l : List Nat) (hl : l.Pairwise (· < ·)) (hne : l ≠ []) :
    ∃ b, l.foldl (claimBetter s) none = some (b, (s.src b).prio) ∧ b ∈ l
      ∧ ∀ n ∈ l, (s.src n).prio < (s.src b).prio ∨ (s.src n).prio = (s.src b).prio ∧ b ≤ n := by
  induction l using List.reverseRecOn with
  | nil => exact absurd rfl hne
  | append_singleton l n ih =>
    obtain ⟨hpl, -, hlt⟩ := List.pairwise_append.mp hl
    rw [List.foldl_append]
    by_cases hempty : l = []
    · subst hempty
      exact ⟨n, rfl, by simp, by simp⟩
    · obtain ⟨b, hb, hmem, hbest⟩ := ih hpl hempty
      have hbn : b < n := hlt b hmem n (by simp)
      simp only [List.foldl_cons, List.foldl_nil, hb, claimBetter]
      by_cases hprio : (s.src b).prio < (s.src n).prio
      · refine ⟨n, if_pos hprio, by simp, fun m hm => ?_⟩
        rcases List.mem_append.mp hm with hm | hm
        · rcases hbest m hm with h | h <;> omega
        · obtain rfl := List.mem_singleton.mp hm; exact .inr ⟨rfl, le_refl _⟩
      · refine ⟨b, if_neg hprio, List.mem_append_left _ hmem, fun m hm => ?_⟩
        rcases List.mem_append.mp hm with hm | hm
        · exact hbest m hm
        · obtain rfl := List.mem_singleton.mp hm; omega

/-- Settles O25. -/
theorem claimIsHighestPriority : Obligations.ClaimIsHighestPriority := by
  intro s t hzero
  have hmem (n : Nat) : n ∈ (List.range 256).filter (s.offered t) ↔ n < 256 ∧ s.offered t n = true := by simp
  refine ⟨fun hnone => ?_, fun n hn hoff => ?_⟩
  · have hempty : (List.range 256).filter (s.offered t) = [] :=
      List.eq_nil_iff_forall_not_mem.mpr fun n h => by simp [hnone n ((hmem n).mp h).1] at h
    rw [claimable_eq, hempty]
    rfl
  · have hn' := (hmem n).mpr ⟨hn, hoff⟩
    obtain ⟨b, hb, hbmem, hbest⟩ := claimBetter_foldl s _ (List.pairwise_lt_range.filter _) (List.ne_nil_of_mem hn')
    obtain ⟨hlt, hboff⟩ := (hmem b).mp hbmem
    rw [claimable_eq, hb]
    refine ⟨hboff, hlt, ?_, hbest n hn'⟩
    rintro rfl
    rw [hzero] at hboff
    cases hboff

end Machine
end Sys2Proof
end

section
/-! ### Windows, rings and the ends of commands (R26–R37, R54, R65)

What becomes of a command's end and of a record, the two together as the window's packets need them; the statements O12 to O19. -/
namespace Sys2Proof.NMap

/-- A map that holds something but the default lists it. -/
theorem set_ne_nil {α : Type} [DecidableEq α] {d : α} {m : NMap α} {k : Nat} {v : α} (h : v ≠ d) : set d m k v ≠ [] := by
  intro hnil
  have hget := get_set_self (m := m) (k := k) h
  rw [hnil] at hget
  exact h hget.symm

end Sys2Proof.NMap

namespace Sys2Proof.Machine

/-! #### The end of a command (R33, R38) -/

/-- Settles O12, by the case of the command that is found. -/
theorem commandsEndOnce : Obligations.CommandsEndOnce := by
  intro s id status result c hc
  refine ⟨fun hdone => ?ended, fun hopen hentry => ?posted, fun hopen hentry => ?answered⟩
  case ended => simp [State.finish, hc, hdone]
  case posted =>
    simp only [State.finish, hc, if_neg hopen]
    cases he : c.entry with
    | mgmt => exact absurd he hentry
    | pf | vf | remote => rfl
  case answered =>
    simp only [State.finish, hc, if_neg hopen, hentry]
    rfl

/-! #### Records (R37, R54, R65) -/

namespace State
variable {s : State} {n : Nat} {r : Reply}

theorem reply_discarded (h : s.hostGone = true ∨ (s.tenant n).provisioned = false) : s.reply n r = s := by
  rcases h with h | h <;> simp [reply, h]

section
variable (hhost : s.hostGone = false) (hprov : (s.tenant n).provisioned = true)
include hhost hprov

theorem reply_written (hheld : (s.fn n).held = []) (hroom : (s.fn n).ringBlocked = false) : s.reply n r = s.writeRecord n r := by
  simp [reply, hhost, hprov, hheld, hroom]

theorem reply_held (hwait : (s.fn n).held ≠ [] ∨ (s.fn n).ringBlocked = true) (hlen : (s.fn n).held.length < 256) :
    s.reply n r = s.setFn n { s.fn n with held := (s.fn n).held ++ [r] } := by
  have hcond : ((s.fn n).held.isEmpty && !(s.fn n).ringBlocked) = false := by
    rcases hwait with h | h <;> simp [h]
  simp [reply, hhost, hprov, hcond, hlen]

/-- A record that finds 256 others held: one of the device's own is counted, a packet's stays owed. -/
theorem reply_full (hlen : (s.fn n).held.length ≥ 256) : s.reply n r =
    if r.origin then s.setFn n { s.fn n with noticeDrop := min 0xFFFF ((s.fn n).noticeDrop + 1) }
    else s.setFn n { s.fn n with owed := (s.fn n).owed ++ [r] } := by
  have hcond : ((s.fn n).held.isEmpty && !(s.fn n).ringBlocked) = false := by
    cases h : (s.fn n).held with
    | nil => simp [h] at hlen
    | cons => rfl
  simp only [reply, hhost, hprov, hcond, Bool.not_true, Bool.or_self, Bool.false_eq_true, if_false, if_neg (Nat.not_lt.mpr hlen)]

end

end State

/-- Settles O13. -/
theorem recordsAreWrittenHeldOrDropped : Obligations.RecordsAreWrittenHeldOrDropped := by
  intro s n r
  refine ⟨State.reply_discarded, fun hhost hprov => ⟨State.reply_written hhost hprov, State.reply_held hhost hprov, ?_, ?_⟩⟩
  · intro hlen horigin
    rw [State.reply_full hhost hprov hlen, if_pos horigin]
  · intro hlen horigin
    rw [State.reply_full hhost hprov hlen, horigin, if_neg Bool.false_ne_true]

/-! #### The ring's registers (R36, R37, R52) -/

section
variable {n : Nat} {s : State} {v : Word} (hn : n < 16)

theorem exec_hwRingHeadWrite_ignored (h : (s.fn n).ringSize < ((s.fn n).tail + 2 ^ 17 - v.toNat % 2 ^ 17) % 2 ^ 17) :
    exec (.hwRingHeadWrite n v) s = .next s :=
  congrArg Host.Outcome.next (if_pos (by simpa using Or.inr h))

include hn

theorem exec_hwRingCfgEnable : exec (.hwRingCfgEnable n v) s = .next (ringCfgWrite n v s) := by
  change Host.Outcome.next (if n < 16 then ringCfgWrite n v s else s) = _
  rw [if_pos hn]

theorem exec_hwRingHeadWrite_taken (h : ((s.fn n).tail + 2 ^ 17 - v.toNat % 2 ^ 17) % 2 ^ 17 ≤ (s.fn n).ringSize) :
    exec (.hwRingHeadWrite n v) s = .next (((s.setFn n { s.fn n with head := v.toNat % 2 ^ 17 }).drainHeld 256 n).payOwed n) :=
  congrArg Host.Outcome.next (if_neg (by simpa [Nat.lt_succ_iff.mp hn] using h))

theorem exec_hwNoticeDropRead : exec (.hwNoticeDropRead n) s =
    .next { s.setFn n { s.fn n with noticeDrop := 0 } with readData := [BitVec.ofNat 32 (s.fn n).noticeDrop] } :=
  congrArg Host.Outcome.next (if_neg (by omega))

theorem exec_hwHeartbeatWrite : exec (.hwHeartbeatWrite n v) s =
    .next ((s.setFn n { s.fn n with hbExpired := false }).setTenant n { s.tenant n with hbStart := some s.now }) :=
  congrArg Host.Outcome.next (if_neg (by omega))

theorem exec_replyTimeThreshold (hsince : 0 < (s.fn n).sinceIrq) (hdue : s.now ≥ (s.fn n).oldestAt + 4000 * (s.fn n).modTime) :
    exec (.replyTimeThreshold n) s = .next (s.setFn n (s.fn n).raise) :=
  congrArg Host.Outcome.next (if_pos ⟨hn, hsince, by rw [usec, Nat.mul_comm]; exact hdue⟩)

end

namespace State
variable {s : State} {n : Nat}

theorem drainHeld_nothing (k : Nat) (h : (s.fn n).held = []) : s.drainHeld k n = s := by
  cases k with
  | zero => rfl
  | succ k => simp [drainHeld, h]

theorem drainHeld_blocked (k : Nat) (h : (s.fn n).ringBlocked = true) : s.drainHeld k n = s := by
  cases k with
  | zero => rfl
  | succ k => simp only [drainHeld, h, if_true]; split <;> rfl

theorem drainHeld_succ (k : Nat) {r : Reply} {rest : List Reply} (hheld : (s.fn n).held = r :: rest) (hroom : (s.fn n).ringBlocked = false) :
    s.drainHeld (k + 1) n = ((s.setFn n { s.fn n with held := rest }).writeRecord n r).drainHeld k n := by
  simp [drainHeld, hheld, hroom]

end State

/-- Settles O14, register by register. -/
theorem ringsAndHeldRecords : Obligations.RingsAndHeldRecords := by
  unfold Obligations.RingsAndHeldRecords
  refine ⟨⟨?enable, fun n v s hn => ⟨exec_hwRingHeadWrite_ignored, exec_hwRingHeadWrite_taken hn⟩, fun n s hn => exec_hwNoticeDropRead hn,
    fun n v s hn => exec_hwHeartbeatWrite hn, fun n s hn => exec_replyTimeThreshold hn⟩, ?drain, fun s n => rfl⟩
  case enable =>
    intro n v s hn
    rw [exec_hwRingCfgEnable hn, ringCfgWrite, show bits v.toNat 21 16 = v.toNat / 2 ^ 16 % 64 from rfl,
      show bits v.toNat 4 0 = v.toNat % 32 by simp [bits]]
    dsimp only
    split <;> rfl
  case drain =>
    exact fun k s n => ⟨State.drainHeld_nothing k, State.drainHeld_blocked k, fun r rest => State.drainHeld_succ k⟩

/-! #### The window (R28–R32) -/

/-- Marking offsets true leaves a map that lists something. -/
theorem foldl_mark_ne_nil {m : NMap Bool} {off k : Nat} (h : 0 < k) :
    (List.range k).foldl (fun m i => NMap.set false m (off + i) true) m ≠ [] := by
  obtain ⟨k, rfl⟩ := Nat.exists_eq_succ_of_ne_zero h.ne'
  rw [List.range_succ, List.foldl_append]
  exact NMap.set_ne_nil (d := false) (v := true) (by decide)

theorem fn_setFn_of_ne {s : State} {n : Nat} {f : Fn} (h : f ≠ Fn.init) : (s.setFn n f).fn n = f := NMap.get_set_self h

/-- While the expected header is not whole nothing is evaluated. -/
theorem evalLoop_header_incomplete {s : State} {n : Nat} (k : Nat) (cur : NMap Bool) (h : allIn (s.fn n).written (s.fn n).expect 16 = false) :
    evalLoop k s n cur = s := by
  cases k with
  | zero => rfl
  | succ k => simp [evalLoop, evalOne, h]

/-- The window of function `n` takes the write (R28, R54). -/
def windowTakes (s : State) (n off : Nat) (data : List Byte) : Prop :=
  (s.tenant n).provisioned = true ∧ (s.fn n).halted = false ∧ (s.fn n).ready = true ∧ off + data.length ≤ 65536 ∧ data ≠ []
    ∧ s.pw.ready = true

/-- The function after a write that lands. -/
def Fn.landed (f : Fn) (off : Nat) (data : List Byte) (poisoned : Bool) : Fn :=
  let mark (m : NMap Bool) (v : Bool) : NMap Bool := (List.range data.length).foldl (fun m i => NMap.set false m (off + i) v) m
  { f with window := Memory.writeN f.window off data, written := mark f.written true, touched := mark f.touched true,
           poisoned := mark f.poisoned poisoned }

theorem landed_ne_init {f : Fn} {off : Nat} {data : List Byte} {poisoned : Bool} (h : data ≠ []) : f.landed off data poisoned ≠ Fn.init :=
  fun heq => foldl_mark_ne_nil (List.length_pos_of_ne_nil h) (congrArg Fn.written heq)

/-- A poisoned write is reported through AER whatever becomes of it (R67). -/
def State.reported (s : State) (poisoned : Bool) : State := if poisoned then s.aerEvent 12 else s

section
variable {n off : Nat} {data : List Byte} {poisoned : Bool} {s : State}

/-- What a write to a window that exists does, by what the window makes of it. -/
theorem windowWrite_eq (hn : n < 16) : windowWrite n off data poisoned s =
    let t := s.reported poisoned
    let f := t.fn n
    if (!(t.tenant n).provisioned || f.halted || !f.ready || off + data.length > 65536 || data.isEmpty || !t.pw.ready) = true then t
    else if (List.range data.length).any (fun i => f.holds (off + i)) = true then
      (t.setFn n { f with halted := true, haltCause := 1, ready := false }).notice n stWindowOverrun (leBytes 4 off)
    else evalLoop 4097 (t.setFn n (f.landed off data poisoned)) n
      ((List.range data.length).foldl (fun m i => NMap.set false m (off + i) true) []) := by
  have hexists : decide (n > 15) = false := by simp; omega
  simp only [windowWrite, hn, and_true, hexists, Bool.false_or]
  rfl

theorem windowTakes_iff {t : State} :
    (!(t.tenant n).provisioned || (t.fn n).halted || !(t.fn n).ready || decide (off + data.length > 65536) || data.isEmpty || !t.pw.ready) = false
      ↔ windowTakes t n off data := by
  simp [windowTakes, and_assoc]

theorem windowWrite_refused (hn : n < 16) (h : ¬ windowTakes (s.reported poisoned) n off data) :
    windowWrite n off data poisoned s = s.reported poisoned := by
  rw [windowWrite_eq hn]
  exact if_pos (Bool.not_eq_false _ ▸ mt windowTakes_iff.mp h)

theorem windowWrite_overruns (hn : n < 16) (h : windowTakes (s.reported poisoned) n off data)
    (hheld : ∃ i, i < data.length ∧ ((s.reported poisoned).fn n).holds (off + i) = true) :
    windowWrite n off data poisoned s = ((s.reported poisoned).setFn n { (s.reported poisoned).fn n with
      halted := true, haltCause := 1, ready := false }).notice n stWindowOverrun (leBytes 4 off) := by
  rw [windowWrite_eq hn]
  exact (if_neg (Bool.eq_false_iff.mp (windowTakes_iff.mpr h))).trans (if_pos (by simpa using hheld))

theorem windowWrite_lands (hn : n < 16) (h : windowTakes (s.reported poisoned) n off data)
    (hfree : ∀ i, i < data.length → ((s.reported poisoned).fn n).holds (off + i) = false)
    (hheader : allIn (((s.reported poisoned).fn n).landed off data poisoned).written ((s.reported poisoned).fn n).expect 16 = false) :
    windowWrite n off data poisoned s = (s.reported poisoned).setFn n (((s.reported poisoned).fn n).landed off data poisoned) := by
  rw [windowWrite_eq hn]
  have hdata : data ≠ [] := by obtain ⟨-, -, -, -, hdata, -⟩ := h; exact hdata
  refine (if_neg (Bool.eq_false_iff.mp (windowTakes_iff.mpr h))).trans ((if_neg (by simpa using hfree)).trans (evalLoop_header_incomplete _ _ ?_))
  rw [fn_setFn_of_ne (landed_ne_init hdata)]
  exact hheader

end

/-- Settles O15, by what the window makes of the write. -/
theorem windowWriteLands : Obligations.WindowWriteLands := by
  intro n off data poisoned s hn
  exact ⟨fun h => congrArg _ (windowWrite_refused hn h), fun h hheld => congrArg _ (windowWrite_overruns hn h hheld),
    fun h hfree hheader => congrArg _ (windowWrite_lands hn h hfree hheader)⟩

/-! #### Evaluation (R28, R29) -/

/-- Settles O16: the length first, then the seal word's touch, then the seal. -/
theorem packetEvaluation : Obligations.PacketEvaluation := by
  intro s n cur f hdr len bs good g hhalted hwritten
  have hready : (f.halted || !allIn f.written f.expect 16) = false := by simp [hhalted, hwritten]
  have heval : evalOne s n cur =
      if fieldAt hdr 4 2 < 2 ∨ fieldAt hdr 4 2 > 256 then
        some ((s.setFn n { f with halted := true, haltCause := 2, ready := false }).failRecord n (fieldAt hdr 6 2) stBadLength
          (s.headCtx n hdr).1 (s.headCtx n hdr).2 [])
      else if anyIn f.touched (f.expect + len - 8) 8 = true then
        let ok := sealOk bs (f.expect + len - 8) && !anyIn f.poisoned f.expect len
        some (if ok = true then s.setFn n (g !ok)
          else (s.setFn n (if s.stalled n then g !ok else (g !ok).skipBad)).failRecord n (fieldAt hdr 6 2) stBadSeal
            (s.headCtx n hdr).1 (s.headCtx n hdr).2 [])
      else none := by
    unfold evalOne
    exact if_neg (Bool.eq_false_iff.mp hready)
  rw [heval]
  refine ⟨fun hlen => if_pos (by omega), fun hlo hhi htouch => ?_, fun hlo hhi htouch => ⟨fun hgood => ?_, fun hbad => ?_⟩⟩
  · rw [if_neg (by omega), htouch, if_neg Bool.false_ne_true]
  · obtain ⟨hseal, hclean⟩ := hgood
    rw [if_neg (by omega), htouch, if_pos rfl, hseal, hclean]
    rfl
  · have hnot : (sealOk bs (f.expect + len - 8) && !anyIn f.poisoned f.expect len) = false := by simpa [good] using hbad
    rw [if_neg (by omega), htouch, if_pos rfl, hnot]
    rfl

/-! #### Resynchronisation (R32) -/

/-- Settles O17. -/
theorem resynchronisation : Obligations.Resynchronisation := by
  intro n s hn f lap
  have hexec : exec (.hwWinCtlResync n) s =
      .next (if f.submitted.isEmpty = true then finishResync s n else s.setFn n { f with ready := false, resync := true }) :=
    congrArg Host.Outcome.next (if_neg (by omega))
  rw [hexec]
  refine ⟨fun h => ?_, fun h => ?_⟩
  · exact congrArg _ (if_pos (by simp [h]))
  · exact congrArg _ (if_neg (by simpa using h))

/-! #### The checks of a packet (R33, Table 2-5) -/

theorem firstFail_cons_ok {ok : Bool} {f : Fail} {l : List (Bool × Fail)} (h : ok = true) : firstFail ((ok, f) :: l) = firstFail l := if_pos h

theorem firstFail_cons_fails {ok : Bool} {f : Fail} {l : List (Bool × Fail)} (h : ¬ ok = true) : firstFail ((ok, f) :: l) = some f := if_neg h

/-- Settles O19: each clause is about the first of the list's lines that does not hold. -/
theorem checkOrder : Obligations.CheckOrder := by
  intro s version bs c resv own v d e l r check
  have hv : v ↔ (decide (c.opcode = 0x0001) || fieldAt bs 2 1 == version) = true := by simp [v]
  have hr : r ↔ (headerReserved bs c && resv s c) = true := by simp [r]
  have hcheck : check = (formChecks s version bs c resv <|>
    (if c.entry = .mgmt then none else s.contextCheck c.opcode c.tenant c.ctx) <|> own s c) := rfl
  have hformed (h1 : v) (h2 : d) (h3 : e) (h4 : l) (h5 : r) (h6 : unitAbsent s.variant c = false) : formChecks s version bs c resv = none := by
    rw [formChecks, firstFail_cons_ok (hv.mp h1), firstFail_cons_ok h2, firstFail_cons_ok h3, firstFail_cons_ok h4,
      firstFail_cons_ok (hr.mp h5), h6]
    rfl
  refine ⟨fun h1 => ?_, fun h1 h2 => ?_, fun h1 h2 h3 => ?_, fun h1 h2 h3 h4 => ?_, fun h1 h2 h3 h4 h5 => ?_, fun h1 h2 h3 h4 h5 h6 => ?_,
    fun h1 h2 h3 h4 h5 h6 hentry f hf => ?_, fun h1 h2 h3 h4 h5 h6 h7 => ?_⟩
  · rw [hcheck, formChecks, firstFail_cons_fails (mt hv.mpr h1)]; rfl
  · rw [hcheck, formChecks, firstFail_cons_ok (hv.mp h1), firstFail_cons_fails h2]; rfl
  · rw [hcheck, formChecks, firstFail_cons_ok (hv.mp h1), firstFail_cons_ok h2, firstFail_cons_fails h3]; rfl
  · rw [hcheck, formChecks, firstFail_cons_ok (hv.mp h1), firstFail_cons_ok h2, firstFail_cons_ok h3, firstFail_cons_fails h4]; rfl
  · rw [hcheck, formChecks, firstFail_cons_ok (hv.mp h1), firstFail_cons_ok h2, firstFail_cons_ok h3, firstFail_cons_ok h4,
      firstFail_cons_fails (mt hr.mpr h5)]
    rfl
  · rw [hcheck, formChecks, firstFail_cons_ok (hv.mp h1), firstFail_cons_ok h2, firstFail_cons_ok h3, firstFail_cons_ok h4,
      firstFail_cons_ok (hr.mp h5), h6]
    rfl
  · rw [hcheck, hformed h1 h2 h3 h4 h5 h6, if_neg hentry, hf]; rfl
  · have hctx : (if c.entry = .mgmt then none else s.contextCheck c.opcode c.tenant c.ctx) = none := by
      rcases h7 with h | h <;> simp [h]
    rw [hcheck, hformed h1 h2 h3 h4 h5 h6, hctx]; rfl

/-! #### Acceptance (R30, R33, R37) -/

section
variable {n : Nat} {bs : List Byte} {s : State}

/-- What the checks say of a window's packet, as it is stamped. -/
def windowChecks (n : Nat) (bs : List Byte) (s : State) : Option Fail :=
  packetChecks s (s.fn n).version bs (s.stamp (parseCmd bs (windowEntry n) n)) opReserved (fun s c => replayBars s c <|> opCheck bs s c)

theorem acceptPacket_fails {e : Fail} (h : windowChecks n bs s = some e) : acceptPacket n bs s =
    let x := s.headCtx n (bs.take 16)
    (s.noteLast (s.stamp (parseCmd bs (windowEntry n) n)) none).failRecord n (s.stamp (parseCmd bs (windowEntry n) n)).tag e.1 x.1 x.2 e.2 := by
  unfold windowChecks at h
  simp only [acceptPacket, h]

theorem acceptPacket_passes (h : windowChecks n bs s = none) : acceptPacket n bs s =
    let c := s.stamp (parseCmd bs (windowEntry n) n)
    (s.noteLast c (some c.id)).accept { c with prev := if c.ordered then s.previous c else none } bs := by
  unfold windowChecks at h
  simp only [acceptPacket, h]
  rfl

end

/-- Settles O18. -/
theorem packetAcceptance : Obligations.PacketAccept := by
  intro n s hn f
  constructor
  · intro hstops
    exact congrArg _ (if_pos (by rcases hstops with h | h | h <;> simp [h]))
  intro p rest hready hprov hstalled hsub hresync s0 c check hc
  refine ⟨fun e => acceptPacket_fails, acceptPacket_passes, ?step⟩
  case step =>
    have hgo : (decide (n > 15) || !s.pw.ready || !(s.tenant n).provisioned || s.stalled n) = false := by
      simp [hready, hprov, hstalled]; omega
    change Host.Outcome.next (packetAccept n s) = _
    simp only [packetAccept, hgo, Bool.false_eq_true, if_false]
    rw [show (s.fn n).skipBad.submitted = p :: rest from hsub]

end Sys2Proof.Machine
end

section
/-! ### The other entries, registers and session opcodes (02, 04, 14) -/
namespace Sys2Proof.Machine

/-! #### The management port, remote commands and replay entries -/

theorem mctpMessage_running {bs : List Byte} {s : State} (hboot : s.pw.boot = .running) (hmod : bs.length % 16 = 0) (hlo : 32 ≤ bs.length)
    (hhi : bs.length ≤ 4096) (hseal : sealOk bs 0 = true)
    (hpass : packetChecks s s.mgmtVersion bs { s.stamp (parseCmd bs .mgmt 0) with stage := .granted } opReserved (opCheck bs) = none) :
    mctpMessage bs s = s.accept { s.stamp (parseCmd bs .mgmt 0) with stage := .granted } bs := by
  have hlen : ¬(bs.length % 16 ≠ 0 ∨ bs.length < 32 ∨ bs.length > 4096) := by omega
  simp only [mctpMessage, hboot]
  rw [if_neg hlen, hseal]
  simp [hpass]

theorem remoteCommand_unjoined {r : RemotePkt} {s : State} (h : s.variant.fabric = false ∨ s.fabric.st = 0) : remoteCommand r s = s :=
  if_pos (h.imp_left fun hfab => by simp [hfab])

theorem remoteCommand_joined {r : RemotePkt} {s : State} (hfab : s.variant.fabric = true) (hst : s.fabric.st ≠ 0) :
    remoteCommand r s = takenCommand r (fieldAt r.bytes 0 2)
      { src := r.src, epoch := 0, seq := 0, offset := r.offset, key := r.key, size := 0, enable := 0, data := [], poison := false,
        ownEpoch := 0, port := r.port } (s.freeIngress r.port 3 (1 + ceilDiv r.bytes.length 32)) :=
  if_neg (by simp [hfab, hst])

section
variable {r : RemotePkt} {op : Nat} {p : FabPkt} {s : State}

theorem takenCommand_outsider (h : NMap.get false s.fabric.members r.src = false) : takenCommand r op p s = s.bump (aWF 0x810) 1 := by
  simp [takenCommand, h]

theorem takenCommand_fenced (hm : NMap.get false s.fabric.members r.src = true) (hop : op ≠ 0x4020) (hst : s.fabric.st = 3) :
    takenCommand r op p s = s.answer p .fenced [] false := by
  simp [takenCommand, hm, hop, hst]

theorem takenCommand_rejected (hm : NMap.get false s.fabric.members r.src = true) (hop : op ≠ 0x4020) (hst : s.fabric.st ≠ 3)
    (hr : s.regionFor p 0 = none) : takenCommand r op p s = s.rejectKey p := by
  simp [takenCommand, hm, hop, hst, hr]

theorem takenCommand_region (hm : NMap.get false s.fabric.members r.src = true) (hop : op ≠ 0x4020) (hst : s.fabric.st ≠ 3)
    {num : Nat} {e : Export} (hr : s.regionFor p 0 = some (num, e)) (hc : e.complete = true) (hv : e.revoking = none)
    (hrem : e.remoteCmd = true) : takenCommand r op p s = remoteRegion r num e s := by
  simp [takenCommand, hm, hop, hst, hr, hc, hv, hrem]

theorem remoteRegion_accepts {num : Nat} {e : Export}
    (hpass : packetChecks s 0x10 r.bytes (s.stamp { parseCmd r.bytes .remote e.tenant with ctx := e.ctx }) opReserved (opCheck r.bytes) = none)
    (hop : (s.stamp { parseCmd r.bytes .remote e.tenant with ctx := e.ctx }).opcode ≠ 0x3001) :
    remoteRegion r num e s = s.accept (s.stamp { parseCmd r.bytes .remote e.tenant with ctx := e.ctx }) r.bytes := by
  simp [remoteRegion, hpass, hop]

end

theorem replayEntry_none {t c : Nat} {s : State} (h : (s.ctx t c).replaying = none) : replayEntry t c s = s := by
  simp only [replayEntry, h]

theorem replayEntry_fed {t c : Nat} {s : State} {r : Replaying} (h : (s.ctx t c).replaying = some r) (hfed : r.total ≤ r.fed) :
    replayEntry t c s = s.settleContexts := by
  simp only [replayEntry, h]
  exact if_pos hfed

/-- Settles O20. -/
theorem otherEntries : Obligations.OtherEntries := by
  refine ⟨fun bs s => ⟨fun h => ?_, fun h => ?_, fun h hm hlo hhi hseal hp => ?_⟩,
    fun r s => ⟨fun h => ?_, fun hf hst hm => ?_, fun hf hst hm hop => ⟨fun h3 => ?_, fun h3 hr => ?_, ?_⟩⟩,
    fun t c s => ⟨fun h => ?_, fun r h hfed => ?_⟩⟩
  · exact congrArg Host.Outcome.next (by simp only [mctpMessage, h])
  · exact congrArg Host.Outcome.next (by simp only [mctpMessage, h])
  · exact congrArg Host.Outcome.next (mctpMessage_running h hm hlo hhi hseal hp)
  · exact congrArg Host.Outcome.next (remoteCommand_unjoined h)
  · exact congrArg Host.Outcome.next ((remoteCommand_joined hf hst).trans (takenCommand_outsider hm))
  · exact congrArg Host.Outcome.next ((remoteCommand_joined hf hst).trans (takenCommand_fenced hm hop h3))
  · exact congrArg Host.Outcome.next ((remoteCommand_joined hf hst).trans (takenCommand_rejected hm hop h3 hr))
  · intro num e h3 hr hc hv hrem c hp hsig
    exact congrArg Host.Outcome.next
      ((remoteCommand_joined hf hst).trans ((takenCommand_region hm hop h3 hr hc hv hrem).trans (remoteRegion_accepts hp hsig)))
  · exact congrArg Host.Outcome.next (replayEntry_none h)
  · exact congrArg Host.Outcome.next (replayEntry_fed h hfed)

/-! #### Registers (R10–R12, R87, R305, R459) -/

section
variable {a : Nat} {s : State}

theorem regRead_absent (h : blockAbsent s.variant (blockOf a).1 = true) : s.regRead a = (0, s) := by
  simp [State.regRead, h]

theorem regRead_ctrLo (hup : BlockUp s (blockOf a).1) (h : regWord a = .ctrLo) :
    s.regRead a = (BitVec.ofNat 32 (s.countAt a), { s with cap := NMap.set 0 s.cap a (s.countAt a) }) := by
  simp [State.regRead, hup.1, hup.2, h]

theorem regRead_ctrHi (hup : BlockUp s (blockOf a).1) (h : regWord a = .ctrHi) :
    s.regRead a = (BitVec.ofNat 32 (NMap.get 0 s.cap (a - 4) / 2 ^ 32), s) := by
  simp [State.regRead, hup.1, hup.2, h]

/-- Settles O22. -/
theorem counterCapture : Obligations.CounterCapture := by
  refine ⟨fun a s hup h => ?_, fun a s hup h => regRead_ctrHi hup h, fun a s h => regRead_absent h⟩
  have hread : counterLoRead a s = { (s.regRead a).2 with readData := [(s.regRead a).1] } := if_pos h
  exact congrArg Host.Outcome.next (by rw [hread, regRead_ctrLo hup h])

/-- Settles O23. -/
theorem signalClusterRegisters : Obligations.SignalClusterRegisters := by
  refine ⟨fun k h s hon hset => ?_, fun k h s hno => ?_, fun k i v s hon hi hh => ?_, fun k i v s hon hi hh => ?_,
    fun n s hn hon => ?_, fun n s hno => ?_⟩
  · exact congrArg Host.Outcome.next (if_pos (by cases h <;> simp_all))
  · exact congrArg Host.Outcome.next (if_neg (by rcases hno with h | ⟨h, h'⟩ <;> simp [*]))
  · exact congrArg Host.Outcome.next (by simp [scWindowWrite, hon, hh, hi])
  · exact congrArg Host.Outcome.next (by simp [scWindowWrite, hon, hh, hi])
  · exact congrArg Host.Outcome.next (if_pos ⟨hn, hon⟩)
  · exact congrArg Host.Outcome.next (if_neg (by rcases hno with h | h <;> simp [*]))

/-- The threshold registers of the claimants stand in the event controller's block. -/
theorem blockOf_evThreshold {t : Nat} (ht : t < 12) : blockOf (0x09002000 + 16 * t) = (.ev, 0x2000 + 16 * t) := by
  interval_cases t <;> rfl

theorem regWord_evThreshold {t : Nat} (ht : t < 12) : regWord (0x09002000 + 16 * t) = .word 0xF := by
  interval_cases t <;> rfl

theorem regWrite_evThreshold {t : Nat} (ht : t < 12) (v : Word) : s.regWrite (0x09002000 + 16 * t) v =
    { s with ev := { s.ev with thresh := NMap.set 0 s.ev.thresh t (v.toNat % 16) } } := by
  have hup : ¬((0x09002000 + 16 * t) % 4 ≠ 0 ∨ blockAbsent s.variant .ev = true ∨ s.blockOff .ev = true) := by
    rintro (h | h | h)
    · omega
    · exact absurd h (by cases s.variant <;> decide)
    · exact absurd h (by simp [State.blockOff])
  have hoff : 0x2000 ≤ 0x2000 + 16 * t ∧ 0x2000 + 16 * t < 0x20C0 ∧ (0x2000 + 16 * t) % 16 = 0 := by omega
  have hnum : (0x2000 + 16 * t - 0x2000) / 16 = t := by omega
  simp only [State.regWrite, blockOf_evThreshold ht, regWord_evThreshold ht]
  rw [if_neg hup, State.regEffect, if_neg (by omega), if_neg (by omega), if_pos hoff, hnum]

theorem regWrite_ignored {v : Word} (h : a % 4 ≠ 0 ∨ ¬BlockUp s (blockOf a).1) : s.regWrite a v = s := by
  have hdown (hup : ¬BlockUp s (blockOf a).1) : blockAbsent s.variant (blockOf a).1 = true ∨ s.blockOff (blockOf a).1 = true := by
    simpa [BlockUp, Decidable.imp_iff_not_or] using hup
  exact if_pos (h.imp_right hdown)

end

/-- Settles O24. -/
theorem registerAccess : Obligations.RegisterAccess := by
  have hbar {n : Nat} {α : Type} {x y : α} (hn : n < 16) : (if n > 15 then x else y) = y := if_neg (by omega)
  refine ⟨⟨fun n v s hn => ?_, fun n v s hn => ?_, fun n v s hn => ?_, fun v s => rfl, fun n v s => ?_, fun n o v s hn => ?_,
    fun a v s h => ?_, fun t v s ht => ?_⟩, fun s id c h hc => ?_, fun a as s => rfl, fun s id c h hc => ?_⟩
  · exact congrArg Host.Outcome.next (hbar hn)
  · exact congrArg Host.Outcome.next (hbar hn)
  · exact congrArg Host.Outcome.next (hbar hn)
  · exact congrArg Host.Outcome.next (ite_self s)
  · exact congrArg Host.Outcome.next (hbar hn)
  · exact congrArg Host.Outcome.next (regWrite_ignored h)
  · exact congrArg Host.Outcome.next (regWrite_evThreshold ht v)
  · exact congrArg Host.Outcome.next (runCoreless_runs h hc)
  · exact congrArg Host.Outcome.next (runCoreless_runs h hc)

/-! #### Session opcodes (R41, R43, R45) and CONTEXT_OPEN (R57) -/

theorem writeBlock_host {s : State} {c : Cmd} (h : c.entry ≠ .mgmt) (iova : Nat) (bs : List Byte) :
    s.writeBlock c iova bs = s.dmaWrite c.fn iova bs false := if_neg h

theorem writeBlock_mgmt {s : State} {c : Cmd} (h : c.entry = .mgmt) (iova : Nat) (bs : List Byte) :
    s.writeBlock c iova bs = s.setCmd { c with trailer := bs } := if_pos h

/-- Settles O27. -/
theorem sessionOpcodes : Obligations.SessionOpcodes := by
  refine ⟨fun s id c h => ?_, fun s id c h => ?_, fun s id c h => ?_, fun s id c h hc hhost => ?_, fun s id c h hmgmt => ?_,
    fun offer s c => ?_⟩
  · exact congrArg Host.Outcome.next (runCoreless_runs h rfl)
  · exact congrArg Host.Outcome.next (runCoreless_runs h rfl)
  · exact congrArg Host.Outcome.next (runCoreless_runs h rfl)
  · refine congrArg Host.Outcome.next ((runCoreless_runs h hc).trans ?_)
    rw [runCaps, writeBlock_host (c := begun s c) hhost]
    rfl
  · refine congrArg Host.Outcome.next ((runCoreless_runs h ?_).trans ?_)
    · simp [checkCaps, bufferOk, hmgmt]
    · rw [runCaps, writeBlock_mgmt (c := begun s c) hmgmt]
      rfl
  · by_cases hm : c.entry = .mgmt <;> cases ho : s.anyOpen c.tenant <;> simp [helloAccepted, hm, ho, b2n]

/-- Settles O28. -/
theorem contextOpen : Obligations.ContextOpen := by
  intro s id c h hc n
  exact congrArg Host.Outcome.next ((runCoreless_runs h hc).trans (by simp only [runContextOpen, State.lowestClosed, ctx_Begun]; rfl))

end Sys2Proof.Machine
end

section
/-! ### Contexts, tenants, the host link, power and firmware (03, 21, 22) -/
namespace Sys2Proof.Machine

/-! #### The ends of contexts (R58–R60, Table 3-12) -/

section
variable {s : State}

/-- A started command that is told to wait stands in the queue as waiting. -/
theorem await_Begun {op id : Nat} {c : Cmd} (h : Ready s op id c) :
    (Begun s c).await c.id = (Begun s c).setCmd { begun s c with stage := .waiting } := by
  simp only [State.await, show (Begun s c).cmd? c.id = some (begun s c) by rw [h.id_eq]; exact h.begun_cmd]

theorem settleClose_waits {c : Cmd} (h : s.earlier c = true) : settleClose s c = s := if_pos h
theorem settleReset_waits {c : Cmd} (h : s.earlier c = true) : settleReset s c = s := if_pos h

theorem settleClose_ends {c : Cmd} (h : s.earlier c = false) : settleClose s c =
    (((((s.dropResidency fun r => r.tenant = c.tenant && r.ctx = c.ctx).stopRecording c.tenant c.ctx).dropHolds c.tenant c.ctx).setCtx
      c.tenant c.ctx Ctx.init).ok c.id []) := if_neg (by simp [h])

theorem exec_opContextReset_waiting {id : Nat} {c : Cmd} (h : s.cmd? id = some c) (hop : c.opcode = 0x0007) (hst : c.stage = .waiting) :
    exec (.opContextReset id) s = .next (settleReset s c) := by
  change Host.Outcome.next (match s.cmd? id with | some c => _ | none => _) = _
  rw [h]
  exact congrArg Host.Outcome.next (if_pos ⟨hop, hst⟩)

theorem dropHolds_one {t c h : Nat} {o : Obj} (hobjs : (s.tenant t).objs.map (·.1) = [h]) (ho : s.obj t h = some o) :
    s.dropHolds t c = if NMap.get 0 o.promos c = 0 ∧ NMap.get 0 o.pins c = 0 then s
      else tierSettle (s.setObj t h (some { o with promos := NMap.del c o.promos, pins := NMap.del c o.pins })) t h := by
  rw [State.dropHolds, hobjs]
  simp only [List.foldl_cons, List.foldl_nil, ho]

/-- What ending its unstarted commands leaves of a context unstarted: its closing and its reset. -/
theorem unstarted_of_mem_endUnstarted {t c : Nat} {d : Cmd} (hmem : d ∈ (s.endUnstarted t c).cmds) (ht : d.tenant = t) (hc : d.ctx = c)
    (hscope : scopeC d.opcode = true) (hun : d.unstarted = true) : d.opcode = 0x0006 ∨ d.opcode = 0x0007 := by
  obtain ⟨e, -, rfl⟩ := List.mem_map.mp hmem
  split at hun
  · exact absurd hun (by simp [Cmd.unstarted])
  · next hspared =>
    rw [if_neg hspared] at ht hc hscope ⊢
    by_contra hop
    exact hspared ⟨ht, hc, hscope, hun, fun h => hop (.inl h), fun h => hop (.inr h)⟩

theorem kill_live {t c : Nat} (hst : (s.ctx t c).st = .live)
    (hreset : ∀ d ∈ s.cmds, d.tenant = t → d.ctx = c → d.opcode = 0x0007 → d.stage = .done) :
    s.kill t c = (s.setCtx t c { s.ctx t c with st := .dead }).endUnstarted t c := by
  have hnone : (s.cmds.any fun d => d.tenant = t && d.ctx = c && d.opcode = 0x0007 && d.stage ≠ .done) = false := by
    simpa [List.any_eq_false, and_imp] using hreset
  simp only [State.kill, hst]
  rw [hnone, if_neg Bool.false_ne_true]

end

/-- Settles O29. -/
theorem contextEnds : Obligations.ContextEnds := by
  refine ⟨⟨fun s c => rfl, fun s id c h => ?_, fun s id c h hop hst => ?_, fun s t c h o hobjs ho => ?_,
    fun s t c d => unstarted_of_mem_endUnstarted⟩, fun s t c => ⟨kill_live, fun h => ?_, fun h => ?_⟩⟩
  · have hrun : exec (.opContextClose id) s = .next (settleClose ((Begun s c).setCmd { begun s c with stage := .waiting }) (begun s c)) := by
      rw [← await_Begun h]
      exact congrArg Host.Outcome.next (runCoreless_runs h rfl)
    intro w
    rw [hrun]
    refine ⟨fun he => congrArg Host.Outcome.next (settleClose_waits he), fun he => congrArg Host.Outcome.next (?_ : settleClose w _ = _)⟩
    rw [settleClose_ends he]
    rfl
  · rw [exec_opContextReset_waiting h hop hst]
    exact ⟨fun he => congrArg Host.Outcome.next (settleReset_waits he), fun he => congrArg Host.Outcome.next (if_neg (by simp [he]))⟩
  · rw [dropHolds_one hobjs ho]
    exact ⟨fun hp hq => if_pos ⟨hp, hq⟩, fun hne => if_neg (by tauto)⟩
  · simp [State.kill, h, State.endUnstarted, stContextDead]
  · rcases h with h | h <;> simp [State.kill, h]

/-! #### Tenants and heartbeats (R55, R56, R62) -/

theorem heartbeatDue_iff {s : State} {t : Nat} : s.heartbeatDue t = true ↔ (s.tenant t).provisioned = true ∧ 0 < (s.tenant t).heartbeat
    ∧ ∃ b, (s.tenant t).hbStart = some b ∧ b + msec (s.tenant t).heartbeat ≤ s.now / msec 1 * msec 1 := by
  simp only [State.heartbeatDue]
  cases (s.tenant t).hbStart <;> simp [and_assoc]

/-- Settles O30. -/
theorem tenantsAndHeartbeats : Obligations.TenantsAndHeartbeats := by
  refine ⟨fun s id c h hc => ?_, fun t s => ⟨fun hdue => congrArg Host.Outcome.next (if_pos (heartbeatDue_iff.mpr hdue)),
    fun hnot => congrArg Host.Outcome.next (if_neg (mt heartbeatDue_iff.mp hnot))⟩⟩
  have hrun : exec (.opTenantProvision id) s = .next (runTenantProvision (Begun s c) (begun s c)) :=
    congrArg Host.Outcome.next (runCoreless_runs h hc)
  intro n b limits
  rw [hrun]
  refine ⟨fun ha => congrArg Host.Outcome.next ?_, fun ha => congrArg Host.Outcome.next ?_, fun ha => congrArg Host.Outcome.next ?_⟩
  all_goals
    have hact : (begun s c).tpAction = _ := ha
    simp only [runTenantProvision, hact, if_true, Nat.reduceEqDiff, if_false]
    rfl

/-! #### Host loss and the host link (R64–R66) -/

/-- Settles O31. -/
theorem hostLoss : Obligations.HostLoss :=
  fun s => ⟨fun h => if_pos h, fun h => if_neg (by simp [h])⟩

/-- A tenant map that is not canonical: tenant 1 stands in it twice. -/
def tenantListedTwice : State :=
  { State.reset with tenants := [(1, { Tenant.init with provisioned := true }), (1, { Tenant.init with quota := 5 })] }

/-- Refutes O32: its clause on VF Enable holds of canonical maps only. In `tenantListedTwice` the first entry of tenant 1 becomes an initial
tenant's and leaves the map, and the second comes to light with its quota. -/
theorem not_hostLinkEvents : ¬ Obligations.HostLinkEvents := by
  rintro ⟨⟨-, -, -, -, -, -, -, -, -, hclear⟩, -⟩
  have hquota := congrArg Tenant.quota ((hclear tenantListedTwice).2.2 1 (by decide) (by decide))
  exact absurd hquota (by decide)

/-! #### Configuration requests and device reads (R47, R67) -/

section
variable {s : State}

theorem configurationRequest_retried {q : CfgReq} (h : s.pw.ready = false) : configurationRequest q s = { s with readData := [] } := by
  simp [configurationRequest, h]

theorem configurationRequest_read {fn reg : Nat} (h : s.pw.ready = true) :
    configurationRequest (.read fn reg) s = { s with readData := [s.configRead fn reg] } := by
  simp [configurationRequest, h]

/-- Configuration register 0 holds the device identifier in its upper half. -/
theorem configRead_device (fn : Nat) : (s.configRead fn 0).toNat / 65536 = if fn = 0 then 0x0A11 else 0x0A12 := by
  have hplace (k n : Nat) : ¬capReg k + n = 0 := by unfold capReg; omega
  have hplace0 (k : Nat) : ¬capReg k = 0 := hplace k 0
  have hput (w v : Nat) (hw : w < 2 ^ 32) (hv : v < 65536) : putBits w 31 16 v % 2 ^ 32 / 65536 = v := by
    simp only [putBits, bits]; omega
  have hfields : (s.configFields fn).filter (·.1 = 0) = [(0, 31, 16, if fn = 0 then 0x0A11 else 0x0A12)] := by
    by_cases hfn : fn = 0 <;> simp [State.configFields, hfn, hplace0]
  simp only [State.configRead, hfields, List.foldl_cons, List.foldl_nil, BitVec.toNat_ofNat]
  exact hput _ _ (BitVec.isLt _) (by split <;> omega)

theorem dmaReadCompletion_down {id fn a : Nat} {o : DmaObs} (h : s.link.up = false) : dmaReadCompletion id fn a o s = s := by
  simp [dmaReadCompletion, h]

end

/-- Settles O33. -/
theorem hostRequestsAndReads : Obligations.HostRequestsAndReads := by
  refine ⟨fun q s h => congrArg Host.Outcome.next (configurationRequest_retried h), fun fn reg s h => ⟨s.configRead fn reg,
    congrArg Host.Outcome.next (configurationRequest_read h), fun hreg => by rw [hreg]; exact configRead_device fn⟩, fun n s h hvf hn => ?_, fun n s h hvf => ?_,
    fun a b s hb ha => ?_, fun a b s hb => ?_, fun id fn a b s hup hfn => ?_, fun id fn a s hup hfn => ?_, fun id fn a s hup hfn => ?_,
    fun id s hup => congrArg Host.Outcome.next (if_pos hup),
    fun id fn a o s hup => ⟨congrArg Host.Outcome.next (dmaReadCompletion_down hup), congrArg Host.Outcome.next (if_neg (by simp [hup]))⟩⟩
  · exact congrArg Host.Outcome.next (by simp [configurationRequest, h, hvf, hn])
  · exact congrArg Host.Outcome.next (by simp [configurationRequest, h, hvf])
  · cases hboot : s.pw.boot with
    | reset => exact absurd hboot hb
    | _ => exact congrArg Host.Outcome.next (by simp [hboot, ha])
  · exact congrArg Host.Outcome.next (by simp [hb])
  · constructor <;> refine congrArg Host.Outcome.next ?_ <;>
      simp [dmaReadCompletion, hup, hfn, State.aerEvent, Memory.writeN]
  all_goals
    exact congrArg Host.Outcome.next (by simp [dmaReadCompletion, hup, Nat.not_le.mpr hfn, State.aerEvent])

/-! #### Brown-out, measurement and reference clocks (R425–R427, R434, R437) -/

section
variable {s : State}

theorem referenceLoss_ignored {r : Nat} (h : 3 ≤ r ∨ s.pw.refLost.testBit r = true) : referenceLoss r s = s :=
  if_pos (by simpa using h)

theorem referenceReturn_ignored {r : Nat} (h : 3 ≤ r ∨ s.pw.refLost.testBit r = false) : referenceReturn r s = s :=
  if_pos (by simpa using h)

theorem referenceReturn_noted {r : Nat} (hr : r < 3) (h : s.pw.refLost.testBit r = true) : referenceReturn r s =
    let s1 := { s with pw := { s.pw with refLost := s.pw.refLost - 2 ^ r } }
    if r = 2 then s1.relock else s1 :=
  if_neg (by simp [hr, h])

theorem brownoutClear_within (h : ∀ t l, s.pw.brown = some (t, l) → s.now < t + msec 2) : brownoutClear s = s := by
  unfold brownoutClear
  split
  · rfl
  · next t l hb => exact if_neg (Nat.not_le.mpr (h t l hb))

theorem powerMeasurement_idle {o : PowerObs} (h : s.pw.boot ≠ .running) : powerMeasurement o s = s := by
  unfold powerMeasurement
  split
  · next hrun => exact absurd hrun h
  · rfl

end

/-- Settles O36. -/
theorem brownoutMeasurementReferences : Obligations.BrownoutMeasurementReferences := by
  refine ⟨⟨fun v s hr hb => ?_, fun v s t l hr hb => ?_, fun v s hr => ?_, fun s t l hb hdue => ?_,
    fun s h => congrArg Host.Outcome.next (brownoutClear_within h), fun o s hr => ⟨powerMeasurement o s, rfl, ?_⟩,
    fun o s h => congrArg Host.Outcome.next (powerMeasurement_idle h)⟩,
    fun r s h => congrArg Host.Outcome.next (referenceLoss_ignored h), fun s h hup => ?_, fun s h => ?_, fun s h hout => ?_,
    fun r s hr h => ?_, fun s h => ?_, fun r s h => congrArg Host.Outcome.next (referenceReturn_ignored h)⟩
  · exact congrArg Host.Outcome.next (by simp only [brownoutWarning, hr, hb])
  · exact congrArg Host.Outcome.next (by simp only [brownoutWarning, hr, hb])
  · exact congrArg Host.Outcome.next (by simp only [brownoutWarning, hr])
  · exact congrArg Host.Outcome.next (by simp only [brownoutClear, hb]; exact if_pos hdue)
  · simp only [powerMeasurement, hr]
    refine ⟨trivial, trivial, trivial, trivial, trivial, fun h0 hcap => ?_, fun hhot => ?_, trivial⟩
    · simp [stepClock, h0, hcap]
    · simp [stepClock, hhot]
  · exact congrArg Host.Outcome.next ((if_neg (by simp [h])).trans (if_pos hup))
  · exact congrArg Host.Outcome.next (if_neg (by simp [h]))
  · exact congrArg Host.Outcome.next ((if_neg (by simp [h])).trans (if_neg hout))
  · exact congrArg Host.Outcome.next ((referenceReturn_noted (by omega) h).trans (if_neg (by omega)))
  · exact congrArg Host.Outcome.next ((referenceReturn_noted (by decide) h).trans (if_pos rfl))

/-! #### POWER_POLICY and the switching of domains (R432, R433) -/

/-- No core of the quarters that leave runs. -/
theorem quarters_idle {s : State} {leaving : List Nat} (h : ∀ k, k < 64 → k / 8 ∈ leaving → (s.core k).running = none) :
    (leaving.any fun d => d < 8 && (List.range 8).any fun j => (s.core (8 * d + j)).running.isSome) = false := by
  simp only [List.any_eq_false, Bool.and_eq_true, decide_eq_true_eq, not_and, List.any_eq_true, List.mem_range, not_exists]
  intro d hd hlt j hj
  rw [h (8 * d + j) (by omega) (by rwa [show (8 * d + j) / 8 = d by omega])]
  exact Bool.false_ne_true

theorem exec_opPowerPolicy_turn {s : State} {id : Nat} (h : s.earlierOf [0xE006] id = false) :
    exec (.opPowerPolicy id) s = .next (runCoreless 0xE006 checkPowerPolicy runPowerPolicy id s) :=
  congrArg Host.Outcome.next (if_neg (by simp [h]))

/-- Settles O37. -/
theorem powerPolicy : Obligations.PowerPolicy := by
  refine ⟨fun s id c h hturn hc => ?_, fun s id h => congrArg Host.Outcome.next (if_pos h),
    fun t s h => congrArg Host.Outcome.next (by simp only [domainSwitchDone, h]), fun t s id target h => ?_⟩
  · have hrun : exec (.opPowerPolicy id) s = .next (runPowerPolicy (Begun s c) (begun s c)) :=
      (exec_opPowerPolicy_turn hturn).trans (congrArg Host.Outcome.next (runCoreless_runs h hc))
    intro b
    rw [hrun]
    refine ⟨fun ha => congrArg Host.Outcome.next ?_, fun ha => congrArg Host.Outcome.next ?_, fun ha => congrArg Host.Outcome.next ?_,
      fun ha => congrArg Host.Outcome.next ?_⟩
    all_goals
      have hact : ppAction (begun s c) = _ := ha
      simp only [runPowerPolicy, hact]
      rfl
  · intro leaving coming hidle hradio u
    refine congrArg Host.Outcome.next ?_
    simp only [domainSwitchDone, h]
    refine if_neg ?_
    rw [quarters_idle hidle, hradio]
    exact Bool.false_ne_true

/-! #### FW_STAGE, FW_ACTIVATE and hot restart (R452–R455) -/

theorem exec_opFwStage_turn {s : State} {id : Nat} (h : s.earlierOf [0xE001, 0xE002] id = false) :
    exec (.opFwStage id) s = .next (runCoreless 0xE001 checkFwStage runFwStage id s) :=
  congrArg Host.Outcome.next (if_neg (by simp [h]))

theorem exec_opFwActivate_turn {s : State} {id : Nat} (h : s.earlierOf [0xE001, 0xE002] id = false) (hsw : s.pw.switching = none)
    (hact : s.activating = false) : exec (.opFwActivate id) s = .next (runCoreless 0xE002 checkFwActivate runFwActivate id s) :=
  congrArg Host.Outcome.next (if_neg (by simp [h, hsw, hact]))

theorem fwStage (s : State) (id : Nat) (c : Cmd) (h : Ready s 0xE001 id c) (hturn : s.earlierOf [0xE001, 0xE002] id = false)
    (hc : checkFwStage s c = none) : exec (.opFwStage id) s = .next (runFwStage (Begun s c) (begun s c)) :=
  (exec_opFwStage_turn hturn).trans (congrArg Host.Outcome.next (runCoreless_runs h hc))

/-- Settles O38. -/
theorem firmware : Obligations.Firmware := by
  refine ⟨fun s id c h hturn hc => ?_, fun s id c h hturn hsw hact hc => ?_, fun s id t h hin => ?_, fun s id t h hout => ?_,
    fun s h => ⟨congrArg Host.Outcome.next (by simp only [hotRestartResume, h]), congrArg Host.Outcome.next (by simp only [hotRestartTimeout, h])⟩⟩
  · intro bs old y last ok b
    rw [fwStage s id c h hturn hc]
    have hlast : fsLast (begun s c) = last := rfl
    have hy : slotOf (Memory.writeN (if fsFirst (begun s c) then [] else ((Begun s c).st.slot (Begun s c).st.spare).bytes) (fsOffset (begun s c))
        (if (begun s c).entry = .mgmt then Memory.readN (Begun s c).st.stage 0 (fsLength (begun s c))
          else Memory.readN ((Begun s c).hostMem 0) ((begun s c).p 0 8) (fsLength (begun s c)))) = y := rfl
    have hsec : (Begun s c).st.security = s.st.security := rfl
    refine ⟨fun hl => congrArg Host.Outcome.next ?_, fun hl hok => congrArg Host.Outcome.next ?_,
      fun hl hbad => congrArg Host.Outcome.next ?_, fun hl hs hold => congrArg Host.Outcome.next ?_⟩
    · rw [runFwStage]; simp only [hlast, hy, hl]; rfl
    · rw [runFwStage]; simp only [hlast, hy, hl, hsec, hok.1, hok.2]; rfl
    · rw [runFwStage]; simp only [hlast, hy, hl, hbad]; rfl
    · rw [runFwStage]; simp only [hlast, hy, hl, hs, hsec, Nat.not_le.mpr hold]; rfl
  · have hrun : exec (.opFwActivate id) s = .next (runFwActivate (Begun s c) (begun s c)) :=
      (exec_opFwActivate_turn hturn hsw hact).trans (congrArg Host.Outcome.next (runCoreless_runs h hc))
    intro b moved
    rw [hrun]
    exact ⟨fun hd => congrArg Host.Outcome.next (if_pos hd),
      fun hd hp => congrArg Host.Outcome.next ((if_neg (by rw [Bool.not_eq_true]; exact hd)).trans (if_pos hp)),
      fun hd hp => congrArg Host.Outcome.next ((if_neg (by rw [Bool.not_eq_true]; exact hd)).trans (if_neg (by rw [Bool.not_eq_true]; exact hp)))⟩
  · intro a x
    refine congrArg Host.Outcome.next ?_
    simp only [hotRestartResume, h]
    refine (if_neg (Nat.not_lt.mpr hin)).trans ?_
    have hver : (if a = 0 then (s.st.slots[0]).version else (s.st.slots[1]).version) = x.version := (apply_ite FwSlot.version ..).symm
    rw [← hver]
    rfl
  · refine congrArg Host.Outcome.next ?_
    simp only [hotRestartTimeout, h]
    exact if_neg (Nat.not_lt.mpr hout)

/-! #### ATTEST (R456–R458) -/

/-- Settles O39. -/
theorem attestation : Obligations.Attestation := by
  refine ⟨fun s id c h hc hkey => ?_, fun s id c h hc hkey => ?_, fun s id c h hbuf hkey hlast => ?_⟩
  · intro i b body spent
    exact congrArg Host.Outcome.next ((runCoreless_runs h hc).trans (if_neg (by rw [Bool.not_eq_true]; exact hkey)))
  · exact congrArg Host.Outcome.next ((runCoreless_runs h hc).trans (if_pos hkey))
  · refine congrArg Host.Outcome.next (?_ : runCoreless 0xE003 checkAttest runAttest id s = _)
    have hbufOk : bufferOk c 32 = none := by
      refine if_neg ?_
      rintro ⟨hhost, halign⟩
      exact hbuf.elim hhost halign
    have hkey' : atKey c = false := hkey
    have hspent : checkAttest s c = some (stNoResources, leBytes 1 0x74) := by
      simp [checkAttest, hbufOk, hkey', hlast, firstFail, need]
    obtain rfl := h.id_eq
    rw [runCoreless_refuses h hspent]
    rfl

end Sys2Proof.Machine
end

section
/-! ### The tier manager (08)

Rules of its operations: an object as it is read after it was put, the turn of a tier command, moves and the replies that follow them; the
statements O40 and O41. -/
namespace Sys2Proof.Machine

section
variable {s : State} {t h : Nat} {o : Obj}

/-! #### Objects and turns (R160) -/

theorem tenant_setTenant_same {x : Tenant} (hx : x ≠ Tenant.init) : (s.setTenant t x).tenant t = x := NMap.get_set_self hx

theorem obj_setObj_same : (s.setObj t h (some o)).obj t h = some o := by
  have hlisted : NMap.set none (s.tenant t).objs h (some o) ≠ [] := NMap.set_ne_nil (by simp)
  have hx : ({ s.tenant t with objs := NMap.set none (s.tenant t).objs h (some o) } : Tenant) ≠ Tenant.init :=
    fun heq => hlisted (congrArg Tenant.objs heq)
  rw [State.obj, State.setObj, tenant_setTenant_same hx]
  exact NMap.get_set_self (Option.some_ne_none o)

section
variable {op id : Nat} {c : Cmd} {check : State → Cmd → Option Fail} {body : State → Cmd → State}

theorem runTier_runs (hr : Ready s op id c) (hturn : s.behind c = false) (hc : check s c = none) :
    runTier op check body id s = body (Begun s c) (begun s c) := by
  simp only [runTier, hr.1, hturn, Bool.false_eq_true, if_false]
  exact runCoreless_runs hr hc

theorem runTier_waits (hc : s.cmd? id = some c) (hturn : s.behind c = true) : runTier op check body id s = s := by
  simp only [runTier, hc, hturn, if_true]

end

/-! #### FREE (R158, R218) -/

theorem settleFree_ends {c : Cmd} (hready : freeReady s c = true) :
    settleFree s c = (s.setObj c.tenant (refHandle (c.p 0 8)) none).ok c.id [] := if_pos hready

/-- A FREE that waits for what it waited for before waits on. -/
theorem settleFree_waits {c : Cmd} (hready : freeReady s c = false) (hfence : c.fence = if freeBehind s c then [(0, 0)] else []) :
    settleFree s c = s := by
  rw [settleFree, hready, if_neg Bool.false_ne_true, hfence]
  cases freeBehind s c <;> rfl

/-! #### COPY and FILL (R173) -/

/-- What a COPY reads. -/
def copyRead (s : State) (c : Cmd) : List (List Byte × Bool) × Option Fail := takeLines s c.id c.tenant (c.p 0 8) (c.p 16 8 / 64) 0

/-- What its writing of that leaves. -/
def copyWritten (s : State) (c : Cmd) : State × Option Fail :=
  putLines c.tenant c.ctx c.id (c.p 8 8) c.determinism 0 (copyRead s c).1 (s.bump (aTI c.tenant c.ctx 0x20) ((copyRead s c).1.countP (·.2)))

/-- What a FILL's writing leaves. -/
def fillWritten (s : State) (c : Cmd) : State × Option Fail :=
  putLines c.tenant c.ctx c.id (c.p 0 8) c.determinism 0
    (List.replicate (c.p 8 8 / 64) ((List.range 8).flatMap fun _ => (c.params.drop 16).take 8, false)) s

theorem runCopy_eq (s : State) (c : Cmd) : runCopy s c =
    match (copyWritten s c).2 with
    | some f => (copyWritten s c).1.fail c.id f.1 f.2
    | none =>
      match (copyRead s c).2 with
      | some f => ((copyWritten s c).1.poisonObj c.tenant (refHandle (c.p 8 8)) (refOff (c.p 8 8) + 64 * (copyRead s c).1.length)
          (64 * (c.p 16 8 / 64) - 64 * (copyRead s c).1.length)).fail c.id f.1 f.2
      | none => (copyWritten s c).1.ok c.id (leBytes 4 ((copyRead s c).1.countP (·.2))) := by
  simp only [runCopy, copyWritten, copyRead]
  generalize putLines _ _ _ _ _ _ _ _ = put
  obtain ⟨s1, f⟩ := put
  cases f <;> rfl

theorem runFill_eq (s : State) (c : Cmd) : runFill s c =
    match (fillWritten s c).2 with
    | some f => (fillWritten s c).1.fail c.id f.1 f.2
    | none => (fillWritten s c).1.ok c.id [] := by
  simp only [runFill, fillWritten]
  generalize putLines _ _ _ _ _ _ _ _ = put
  obtain ⟨s1, f⟩ := put
  cases f <;> rfl

end

/-- Settles O40. -/
theorem allocFreeCopyFill : Obligations.AllocFreeCopyFill := by
  refine ⟨fun s id c h hc => ?_, fun s id c h hc => ?_, fun s id c h hc hset => ?_, fun s id c f h hc hask hline => ?_,
    fun s id c h hc hset => ?_⟩
  · intro o t hd b u
    have hrun : exec (.opAlloc id) s = .next (runAlloc (Begun s c) (begun s c)) := congrArg Host.Outcome.next (runCoreless_runs h hc)
    refine ⟨⟨rfl, rfl, rfl, rfl, rfl, rfl, rfl, rfl, rfl, fun hh => if_neg hh, fun hh => if_pos hh, fun hw => if_pos hw,
      fun hw => if_neg (by simp [hw])⟩, fun hz => ?_, fun hz hh => ?_, fun i hz hh hf hi => ?_, fun hz hh hf => ?_⟩
    all_goals
      rw [hrun]
      refine congrArg Host.Outcome.next ?_
      have hzero : (allocAttr (begun s c)).testBit 4 = _ := hz
      simp only [runAlloc, hzero]
    · rfl
    · have hhome : (allocObj (begun s c)).home = 4 := hh
      simp only [hhome]
      rfl
    · have hhome : (allocObj (begun s c)).home = 3 := hh
      have hfen : (Begun s c).fabric.fenced = false := hf
      have himp : NMap.get none (Begun s c).fabric.imports (allocObj (begun s c)).imp = some i := hi
      simp only [hhome, hfen, State.setObj_fabric, State.setTenant_fabric, himp]
      rfl
    · have hhome : (allocObj (begun s c)).home = 3 := hh
      have hfen : (Begun s c).fabric.fenced = true := hf
      simp only [hhome, hfen]
      rfl
  · intro hd w b
    have hturn (hb : s.behind c = false) : exec (.opFree id) s = .next (settleFree b w) := congrArg Host.Outcome.next (runTier_runs h hb hc)
    refine ⟨fun hb => congrArg Host.Outcome.next (runTier_waits h.1 hb), fun hb hready => ?_, fun hb hready hsame => ?_⟩
    · rw [hturn hb, settleFree_ends hready]
      rfl
    · rw [hturn hb, settleFree_waits hready (by rw [← hsame])]
  · intro b n src put
    have hrun : exec (.opCopy id) s = .next (runCopy (Begun s c) (begun s c)) :=
      congrArg Host.Outcome.next ((runCoreless_runs h hc).trans (reading_settled hset))
    rw [hrun, runCopy_eq]
    refine ⟨fun hp hs => ?_, fun f hp => ?_, fun f hp hs => ?_⟩
    all_goals
      have hput : (copyWritten (Begun s c) (begun s c)).2 = _ := hp
    · have hsrc : (copyRead (Begun s c) (begun s c)).2 = none := hs
      simp only [hput, hsrc]
      rfl
    · simp only [hput]
      rfl
    · have hsrc : (copyRead (Begun s c) (begun s c)).2 = some f := hs
      simp only [hput, hsrc]
      rfl
  · exact congrArg Host.Outcome.next ((runCoreless_runs h hc).trans (reading_asks hask hline))
  · intro line put
    have hrun : exec (.opFill id) s = .next (runFill (Begun s c) (begun s c)) :=
      congrArg Host.Outcome.next ((runCoreless_runs h hc).trans (reading_settled hset))
    rw [hrun, runFill_eq]
    refine ⟨fun hp => ?_, fun f hp => ?_⟩
    all_goals
      have hput : (fillWritten (Begun s c) (begun s c)).2 = _ := hp
      simp only [hput]
      rfl

/-! #### Moves and their replies (R159–R162, R175) -/

section
variable {s : State} {t h : Nat} {o : Obj}

theorem tierSettle_moving (ho : s.obj t h = some o) (hm : o.moving ≠ 0) : tierSettle s t h = s := by
  simp only [tierSettle, ho, if_pos hm]

theorem tierSettle_raises (ho : s.obj t h = some o) (hm : o.moving = 0) (hlt : o.wanted < o.level) :
    tierSettle s t h = s.setObj t h (some { o with
      moving := 1, target := o.wanted, charged := if o.wanted = 2 ∧ o.home > 2 then o.storage + o.mapArea else o.charged }) := by
  simp only [tierSettle, ho, hm, hlt, ne_eq, not_true, if_false, if_true]

theorem tierSettle_lowers (ho : s.obj t h = some o) (hm : o.moving = 0) (hlt : o.level < o.wanted) (hpins : o.pins = [])
    (hwait : o.waiting = []) : tierSettle s t h = s.setObj t h (some { o with
      moving := 2, target := o.wanted, charged := if o.wanted = 2 ∧ o.home > 2 then o.storage + o.mapArea else o.charged }) := by
  have hsinks : o.sinks = true := by simp [Obj.sinks, hlt, hpins]
  simp only [tierSettle, ho, hm, Nat.not_lt.mpr hlt.le, hsinks, hwait, ne_eq, not_true, if_false, List.any_nil, Bool.not_false, and_self,
    if_true]

theorem tierSettle_level (ho : s.obj t h = some o) (hm : o.moving = 0) (heq : o.wanted = o.level) :
    tierSettle s t h = tierReplies s t h 1024 := by
  simp [tierSettle, ho, hm, Obj.sinks, heq]

/-- With nobody waiting there is nothing to answer. -/
theorem tierReplies_none (ho : s.obj t h = some o) (hwait : o.waiting = []) : ∀ f, tierReplies s t h f = s
  | 0 => rfl
  | f + 1 => by simp [tierReplies, ho, hwait]

theorem tierFailAll_none {why : Fail} {op : Nat} (ho : s.obj t h = some o) (hwait : o.waiting = []) : ∀ f, tierFailAll s t h why op f = s
  | 0 => rfl
  | f + 1 => by simp [tierFailAll, ho, hwait]

/-- A lowering that fails with nobody waiting, where no raise is asked for, leaves the object as it was, at rest. -/
theorem lowerFail_alone {why : Fail} (ho : s.obj t h = some o) (hwait : o.waiting = []) (hle : o.level ≤ o.wanted) :
    lowerFail s t h why = s.setObj t h (some { o with moving := 0, charged := if o.home = 2 ∨ o.level = 2 then o.charged else 0 }) := by
  have hput := obj_setObj_same (s := s) (t := t) (h := h)
    (o := { o with moving := 0, charged := if o.home = 2 ∨ o.level = 2 then o.charged else 0 })
  simp only [lowerFail, ho]
  rw [tierFailAll_none hput hwait, tierReplies_none hput hwait]
  simp only [hput]
  exact if_neg (Nat.not_lt.mpr hle)

theorem raiseComplete_absent (ho : s.obj t h = none) : raiseComplete t h s = s := by
  simp only [raiseComplete, raiseTry, ho]

theorem raiseComplete_idle (ho : s.obj t h = some o) (hm : o.moving ≠ 1) : raiseComplete t h s = s := by
  simp only [raiseComplete, raiseTry, ho, if_pos hm]

theorem raiseComplete_done (ho : s.obj t h = some o) (hm : o.moving = 1) (hstop : moveStop (s.snapshot (moveReader t h) t h o) = none)
    (hask : moveAsks (s.snapshot (moveReader t h) t h o) = []) : raiseComplete t h s =
    tierSettle (tierReplies ((s.dropReader (moveReader t h)).setObj t h (some { o with
      moving := 0, level := o.target, data := (s.snapshot (moveReader t h) t h o).foldl (fun m l => Memory.writeN m (64 * l.1) l.2.1) []
      hole := [], poison := (s.snapshot (moveReader t h) t h o).foldl (fun m l => NMap.set false m l.1 l.2.2.1) o.poison })) t h 1024) t h := by
  simp only [raiseComplete, raiseTry, ho, hm, hstop, hask, ne_eq, not_true, if_false, List.isEmpty_nil, Bool.not_true, Bool.false_eq_true]

theorem raiseComplete_asks (ho : s.obj t h = some o) (hm : o.moving = 1) (hstop : moveStop (s.snapshot (moveReader t h) t h o) = none)
    (hask : moveAsks (s.snapshot (moveReader t h) t h o) ≠ []) (hhome : o.home ≠ 2) : raiseComplete t h s =
    (moveAsks (s.snapshot (moveReader t h) t h o)).foldl (fun (s : State) f => s.seeTo t 0 (moveReader t h) f) s := by
  have hne : (!(moveAsks (s.snapshot (moveReader t h) t h o)).isEmpty) = true := by simpa using hask
  simp only [raiseComplete, raiseTry, ho, hm, hstop, hne, hhome, ne_eq, not_true, if_false, if_true]

theorem raiseComplete_fails (ho : s.obj t h = some o) (hm : o.moving = 1) {f : Fail}
    (hstop : moveStop (s.snapshot (moveReader t h) t h o) = some f) : raiseComplete t h s =
    tierSettle (tierFailAll ((s.dropReader (moveReader t h)).setObj t h
      (some { o with moving := 0, charged := if o.home = 2 ∨ o.level = 2 then o.charged else 0 })) t h f 0x1010 1024) t h := by
  have ho' : (s.dropReader (moveReader t h)).obj t h = some o := ho
  have hcharge : (if o.home = 2 then o.charged else if o.level = 2 then o.charged else 0) = if o.home = 2 ∨ o.level = 2 then o.charged else 0 := by
    by_cases h2 : o.home = 2 <;> simp [h2]
  simp only [raiseComplete, raiseTry, ho, hm, hstop, ne_eq, not_true, if_false, raiseFail, ho', hcharge]

theorem loweringComplete_absent (ho : s.obj t h = none) : loweringComplete t h s = s := by
  simp only [loweringComplete, ho]

theorem loweringComplete_idle (ho : s.obj t h = some o) (hm : o.moving ≠ 2) : loweringComplete t h s = s := by
  simp only [loweringComplete, ho, if_pos hm]

theorem loweringComplete_stopped (ho : s.obj t h = some o) (hm : o.moving = 2) {f : Fail}
    (hstop : (if s.owns o then s.copyStop o <|> s.backStop o else none) = some f) : loweringComplete t h s = lowerFail s t h f := by
  simp only [loweringComplete, ho, hm, ne_eq, not_true, if_false, hstop]

/-- What the object is once it lies at its target: back at its home the copy is gone. -/
def lowered (o : Obj) : Obj :=
  { o with
    moving := 0, level := o.target, charged := if o.home = 2 ∨ o.target = 2 then o.charged else 0
    data := if o.target = o.home then [] else o.data, dirty := if o.target = o.home then [] else o.dirty
    hole := if o.target = o.home then [] else o.hole, epochs := if o.target = o.home then [] else o.epochs
    poison := if o.target = o.home ∧ o.home ≠ 2 then [] else o.poison }

theorem loweringComplete_done (ho : s.obj t h = some o) (hm : o.moving = 2)
    (hstop : (if s.owns o then s.copyStop o <|> s.backStop o else none) = none) {o1 : Obj}
    (ho1 : (if s.owns o ∧ o.target = o.home then s.writeBackAll t h else s).obj t h = some o1) : loweringComplete t h s =
    tierSettle (tierReplies ((if s.owns o ∧ o.target = o.home then s.writeBackAll t h else s).setObj t h (some (lowered o1))) t h 1024) t h := by
  simp only [loweringComplete, ho, hm, ne_eq, not_true, if_false, hstop, ho1]
  refine congrArg (fun x => tierSettle (tierReplies (State.setObj _ t h (some x)) t h 1024) t h) ?_
  by_cases hback : o1.target = o1.home
  · by_cases h2 : o1.home = 2 <;> simp [lowered, hback, h2]
  · simp [lowered, hback]

theorem tierReply_pin {id : Nat} {c : Cmd} (hc : s.cmd? id = some c) (hop : c.opcode = 0x1012) : tierReply s t h o id =
    match s.pinStop t o c.ctx with
    | some f => (s.setObj t h (some o)).fail id f.1 f.2
    | none => (s.setObj t h (some { o with pins := NMap.set 0 o.pins c.ctx (NMap.get 0 o.pins c.ctx + 1) })).ok id [] := by
  simp only [tierReply, hc, if_pos hop] <;> rfl

theorem tierReplies_next {f : Nat} {w : Nat × Nat} (ho : s.obj t h = some o) (hm : o.moving = 0) (hw : o.waiting.find? (dueReply s o) = some w) :
    tierReplies s t h (f + 1) = tierReplies (tierReply s t h { o with waiting := o.waiting.filter (· ≠ w) } w.1) t h f := by
  simp only [tierReplies, ho, hm, hw, ne_eq, not_true, if_false]

/-! #### Queries, trackers, write-back and the patrol scrub (R164, R166, R171) -/

theorem trackerRetire_listed {slice k : Nat} {x : Tracker} (hx : NMap.get none s.trackers (16 * slice + k) = some x) (hk : k < 16) :
    trackerRetire slice k s = if s.now ≥ x.touchedAt + usec 100 ∨ x.touchedEl ≥ x.count ∧ x.kind = 1
      then { s with trackers := NMap.set none s.trackers (16 * slice + k) none } else s := by
  simp only [trackerRetire, hx, hk, true_and]

theorem l2WriteBack_eq {line : Nat} (ho : s.obj t h = some o) : l2WriteBack t h line s =
    if (s.backStop o).isSome || !s.owns o || (o.level = 2 && o.home > 2) || (o.level = 1 && !o.pins.isEmpty) then s
    else s.writeBackLine t h line := by
  simp only [l2WriteBack, ho]

/-- A patrol read of a line of T2 on a working channel, with no error injected, meets what it meets. -/
theorem patrolScrub_eq {line : Nat} {e : EccObs} (ho : s.obj t h = some o) (hin : o.home = 2 ∨ o.level = 2) (hline : 64 * line < o.storage)
    (hch : NMap.get false s.rel.channels (o.channel line) = false) (hinj : NMap.get 0 s.rel.dram (dramKey t h line) = 0) :
    patrolScrub t h line e s = match e with
      | .clean => s
      | .single => s.eccFound t h line false false
      | .double => s.eccFound t h line true false
      | .linkSingle => s.bump (aTID (o.channel line / 64) 0x18) 1
      | .linkDouble => s.linkError t h line o := by
  have hgo : ¬((o.home ≠ 2 ∧ o.level ≠ 2) ∨ 64 * line ≥ o.storage ∨ NMap.get false s.rel.channels (o.channel line) = true) := by
    rw [hch]; simp only [Bool.false_eq_true, or_false]; omega
  simp only [patrolScrub, ho, hinj]
  rw [if_neg hgo]
  cases e <;> rfl

/-- A COMPRESS_HINT that encodes anew (R172) stops at the first line that cannot be read. -/
theorem runHint_stops {c : Cmd} {f : Fail} (hl : c.p 8 1 = 3)
    (hs : ((s.snapshot c.id c.tenant (refHandle (c.p 0 8)) (refObj s c (c.p 0 8))).findSome? fun l => l.2.2.2) = some f) :
    runHint s c = s.fail c.id f.1 f.2 := by
  simp only [runHint, hl, ne_eq, not_true, if_false, hs]

theorem runHint_foreign {c : Cmd} (hl : c.p 8 1 = 3)
    (hs : ((s.snapshot c.id c.tenant (refHandle (c.p 0 8)) (refObj s c (c.p 0 8))).findSome? fun l => l.2.2.2) = none)
    (how : s.owns (refObj s c (c.p 0 8)) = false) : runHint s c = s.fail c.id stPoison [0x10] := by
  simp only [runHint, hl, ne_eq, not_true, if_false, hs, how, Bool.not_false, if_true]

theorem runHint_encodes {c : Cmd} (hl : c.p 8 1 = 3)
    (hs : ((s.snapshot c.id c.tenant (refHandle (c.p 0 8)) (refObj s c (c.p 0 8))).findSome? fun l => l.2.2.2) = none)
    (how : s.owns (refObj s c (c.p 0 8)) = true) : runHint s c =
    let lines := List.range ((refObj s c (c.p 0 8)).size / 64)
    let epoch := match NMap.get none s.fabric.imports (refObj s c (c.p 0 8)).imp with | some i => i.epoch | none => 0
    let o1 := lines.foldl (fun o l => s.liftLine c.id c.tenant (refHandle (c.p 0 8)) o l) (refObj s c (c.p 0 8))
    let o2 := lines.foldl (fun o l => o.modify epoch (64 * l) 64 l) o1
    ((s.setObj c.tenant (refHandle (c.p 0 8)) (some o2)).writeBackAll c.tenant (refHandle (c.p 0 8))).ok c.id [] := by
  simp only [runHint, hl, ne_eq, not_true, if_false, hs, how, Bool.not_true, Bool.false_eq_true] <;> rfl

/-- The first map entry of an object at a host home cannot be read while the link is down. -/
theorem mapEntry_down {rd : Nat} (hhome : o.home = 4) (hup : s.link.up = false) (b : Nat) : (s.mapEntry rd t o b).2.2 = some (stTierFailed, [4]) := by
  have hlines : ∃ n, (o.storage + 8 * b + 8 - 1) / 64 - (o.storage + 8 * b) / 64 + 1 = n + 1 := ⟨_, rfl⟩
  obtain ⟨n, hn⟩ := hlines
  simp only [State.mapEntry, State.homeRead, hn, List.range_succ_eq_map, List.map_cons, State.storedLine, hhome, hup]
  rfl

end

/-- Settles O41. -/
theorem levelsAndTiers : Obligations.LevelsAndTiers := by
  refine ⟨⟨fun s id c h hc hb => ?promote, fun s id c h hb => ?behind, fun s t h o ho => ?moves, fun s id c h hc hb => ?evict,
    fun s id c h hc hb => ?pin, fun s t h f o w ho hm hw => tierReplies_next ho hm hw, fun s t h o id c h hop => ?reply,
    fun s id c h hc hb => ?unpin, fun s t h ho => ⟨congrArg Host.Outcome.next (raiseComplete_absent ho),
      congrArg Host.Outcome.next (loweringComplete_absent ho)⟩⟩,
    fun s id c h hc hset => ?query, fun s id c h hc hb hset => ?hint, fun slice k s x hx hk => ?retire, fun slice k s hx => ?untracked,
    fun t h line s ho => ?absent, fun t h line s o ho => ?back, fun t h line s o ho hin hline hch => ?scrub⟩
  case promote =>
    have hrun : exec (.opPromote id) s = .next (runPromote (Begun s c) (begun s c)) := congrArg Host.Outcome.next (runTier_runs h hb hc)
    intro o hd b
    rw [hrun]
    exact ⟨fun hl => congrArg Host.Outcome.next (if_pos hl), fun hl => congrArg Host.Outcome.next (if_neg hl)⟩
  case behind =>
    exact ⟨congrArg Host.Outcome.next (runTier_waits h hb), congrArg Host.Outcome.next (runTier_waits h hb),
      congrArg Host.Outcome.next (runTier_waits h hb), congrArg Host.Outcome.next (runTier_waits h hb),
      congrArg Host.Outcome.next (runTier_waits h hb)⟩
  case moves =>
    intro rd ls
    refine ⟨tierSettle_moving ho, tierSettle_raises ho, tierSettle_lowers ho, tierSettle_level ho,
      fun hm => congrArg Host.Outcome.next (raiseComplete_idle ho hm), fun hm => congrArg Host.Outcome.next (loweringComplete_idle ho hm),
      fun hm hs ha => congrArg Host.Outcome.next (raiseComplete_done ho hm hs ha),
      fun hm hs ha hh => congrArg Host.Outcome.next (raiseComplete_asks ho hm hs ha hh),
      fun hm f hs => congrArg Host.Outcome.next (raiseComplete_fails ho hm hs),
      fun hm f hs => ⟨congrArg Host.Outcome.next (loweringComplete_stopped ho hm hs), lowerFail_alone ho⟩, fun hm hs => ?_⟩
    intro s1 o1 ho1 back
    exact congrArg Host.Outcome.next (loweringComplete_done ho hm hs ho1)
  case evict =>
    have hrun : exec (.opEvict id) s = .next (runEvict (Begun s c) (begun s c)) := congrArg Host.Outcome.next (runTier_runs h hb hc)
    intro o hd o1 same b
    rw [hrun]
    refine ⟨fun hn => congrArg Host.Outcome.next (if_pos hn), fun hn hheld => congrArg Host.Outcome.next ((if_neg hn).trans (if_pos ?_)),
      fun hn hsame hpins => congrArg Host.Outcome.next ((if_neg hn).trans (if_neg ?_))⟩
    · have hheld' : same = true ∨ (!o.pins.isEmpty) = true := by simpa using hheld
      exact (Bool.or_eq_true ..).mpr hheld'
    · have hfree : (same || !o.pins.isEmpty) = false := by simp [hsame, hpins]
      exact (Bool.not_eq_true _).mpr hfree
  case pin =>
    have hrun : exec (.opPin id) s = .next (runPin (Begun s c) (begun s c)) := congrArg Host.Outcome.next (runTier_runs h hb hc)
    intro o hd u
    rw [hrun]
    exact ⟨fun hm => congrArg Host.Outcome.next (if_pos hm), fun hm => congrArg Host.Outcome.next (if_neg (not_not.mpr hm))⟩
  case reply =>
    rw [tierReply_pin h hop]
    exact ⟨fun hs => by rw [hs], fun f hs => by rw [hs]⟩
  case unpin =>
    have hrun : exec (.opUnpin id) s = .next (runUnpin (Begun s c) (begun s c)) := congrArg Host.Outcome.next (runTier_runs h hb hc)
    intro o hd n
    rw [hrun]
    exact ⟨fun hn => congrArg Host.Outcome.next (if_pos hn), fun hn => congrArg Host.Outcome.next (if_neg hn)⟩
  case query =>
    have hrun : exec (.opTierQuery id) s = .next (runTierQuery (Begun s c) (begun s c)) :=
      congrArg Host.Outcome.next ((runCoreless_runs h hc).trans (reading_settled hset))
    intro o b entries answer
    have hobj (hr : c.p 0 8 ≠ 0) : runTierQuery b (begun s c) =
        match (if o.compress then entries else []).findSome? fun e => e.2.2 with
        | some f => b.fail c.id f.1 f.2
        | none => b.ok c.id (answer ((if o.compress then entries else []).countP fun e => e.1.st == 1)) := if_neg hr
    rw [hrun]
    refine ⟨fun hr => congrArg Host.Outcome.next (if_pos hr), fun hr hc0 => congrArg Host.Outcome.next ?_,
      fun hr hc1 hs => congrArg Host.Outcome.next ?_, fun hr hc1 hsize hhome hup => congrArg Host.Outcome.next ?_⟩
    · rw [hobj hr, hc0]
      rfl
    · rw [hobj hr, if_pos hc1, hs]
    · have hfirst : (entries.findSome? fun e => e.2.2) = some (stTierFailed, [4]) := by
        obtain ⟨n, hn⟩ : ∃ n, o.size / 4096 = n + 1 := ⟨o.size / 4096 - 1, by omega⟩
        simp only [entries, hn, List.range_succ_eq_map, List.map_cons, List.findSome?_cons, mapEntry_down (s := b) hhome hup]
      rw [hobj hr, if_pos hc1, hfirst]
  case hint =>
    have hrun : exec (.opCompressHint id) s = .next (runHint (Begun s c) (begun s c)) :=
      congrArg Host.Outcome.next ((runTier_runs h hb hc).trans (reading_settled hset))
    intro o b stop
    rw [hrun]
    exact ⟨fun hl => congrArg Host.Outcome.next (if_pos hl),
      fun hl hs how => congrArg Host.Outcome.next (runHint_foreign (c := begun s c) hl hs how),
      fun hl f hs => congrArg Host.Outcome.next (runHint_stops (c := begun s c) hl hs),
      fun hl hs how => congrArg Host.Outcome.next (runHint_encodes (c := begun s c) hl hs how)⟩
  case retire =>
    have hret : exec (.trackerRetire slice k) s = .next (trackerRetire slice k s) := rfl
    rw [hret, trackerRetire_listed hx hk]
    exact ⟨fun hdue => congrArg Host.Outcome.next (if_pos (hdue.imp_right And.symm)),
      fun hnow hlast => congrArg Host.Outcome.next (if_neg (by omega))⟩
  case untracked => exact congrArg Host.Outcome.next (by simp only [trackerRetire, hx])
  case absent => exact ⟨congrArg Host.Outcome.next (by simp only [l2WriteBack, ho]), fun e => congrArg Host.Outcome.next (by simp only [patrolScrub, ho])⟩
  case back =>
    have hback : exec (.l2WriteBack t h line) s = .next (l2WriteBack t h line s) := rfl
    rw [hback, l2WriteBack_eq ho]
    refine ⟨fun hno => congrArg Host.Outcome.next (if_pos ?_), fun hs how hcopy hpin => congrArg Host.Outcome.next (if_neg ?_)⟩
    · simpa [or_assoc] using hno
    · have hcopy' : (o.level = 2 && o.home > 2) = false := by simp; omega
      have hpin' : (o.level = 1 && !o.pins.isEmpty) = false := by simpa [Decidable.imp_iff_not_or] using hpin
      rw [hs, how, hcopy', hpin']
      exact Bool.false_ne_true
  case scrub =>
    intro u hinj
    have hscrub (e : EccObs) : exec (.patrolScrub t h line e) s = .next (patrolScrub t h line e s) := rfl
    simp only [hscrub, patrolScrub_eq ho hin hline hch hinj, State.eccFound, ho]
    exact ⟨trivial, rfl, rfl, trivial, trivial⟩

end Sys2Proof.Machine
end

section
/-! ### Core commands (04–07, 12) -/
namespace Sys2Proof.Machine

section
variable {s : State} {c : Cmd}

/-! #### The end of a core command's work -/

/-- The state in which a core command's scratch has been read, and whether an error in it spoils the work. -/
def State.workRead (s : State) (c : Cmd) : Bool × State := ((s.streams c).tierStalls c).scratchRead (c.core.getD 0)

/-- What its checks find in that. -/
def State.workJudged (s : State) (c : Cmd) (w : Work) : Nat × State := (s.workRead c).2.judge c w.verdict w.sampled

/-- What its writing leaves. -/
def State.workWritten (s : State) (c : Cmd) (w : Work) : State × Option Fail :=
  writeAll c.tenant c.ctx c.id c.determinism w.writes (s.workJudged c w).2

section
variable {w : Work} {outs : Ranges} {whole cut : State → State}

theorem coreEnd_scratchBad (h : (s.workRead c).1 = true) :
    s.coreEnd c w outs whole cut = (cut (s.workRead c).2).coreFail c (stPoison, [0]) outs := if_pos h

theorem coreEnd_judged (h : (s.workRead c).1 = false) : s.coreEnd c w outs whole cut =
    match s.workJudged c w with
    | (0, s1) =>
      match writeAll c.tenant c.ctx c.id c.determinism w.writes s1 with
      | (s2, some f) => (cut s2).coreFail c f outs
      | (s2, none) => ((whole s2).releaseCore c).finish c.id stOK w.result
    | (kind, s1) => (cut s1).disagree c kind outs w.writes :=
  (if_neg ((Bool.not_eq_true _).mpr h)).trans rfl

theorem coreEnd_disagrees (h : (s.workRead c).1 = false) (hj : (s.workJudged c w).1 ≠ 0) :
    s.coreEnd c w outs whole cut = (cut (s.workJudged c w).2).disagree c (s.workJudged c w).1 outs w.writes := by
  rw [coreEnd_judged h]
  generalize s.workJudged c w = judged at hj
  obtain ⟨kind, s1⟩ := judged
  cases kind with
  | zero => exact absurd rfl hj
  | succ n => rfl

theorem coreEnd_written (h : (s.workRead c).1 = false) (hj : (s.workJudged c w).1 = 0) : s.coreEnd c w outs whole cut =
    match (s.workWritten c w).2 with
    | some f => (cut (s.workWritten c w).1).coreFail c f outs
    | none => ((whole (s.workWritten c w).1).releaseCore c).finish c.id stOK w.result := by
  rw [coreEnd_judged h]
  unfold State.workWritten
  generalize s.workJudged c w = judged at hj
  obtain ⟨kind, s1⟩ := judged
  obtain rfl : kind = 0 := hj
  change (match writeAll c.tenant c.ctx c.id c.determinism w.writes s1 with
    | (s2, some f) => (cut s2).coreFail c f outs
    | (s2, none) => ((whole s2).releaseCore c).finish c.id stOK w.result) = _
  generalize writeAll c.tenant c.ctx c.id c.determinism w.writes s1 = put
  obtain ⟨s2, f⟩ := put
  cases f <;> rfl

end

/-- With nothing armed and no failed comparison, the checks agree. -/
theorem judge_agrees {verdict : Option Bool} {sampled : Nat} (harmed : (s.core (c.core.getD 0)).inject = (0, 0, 0))
    (hv : c.checked = false ∨ verdict ≠ some false) : (s.judge c verdict sampled).1 = 0 := by
  have hfails : ¬(c.checked = true ∧ verdict = some false) := by rintro ⟨h1, h2⟩; rcases hv with h | h <;> simp_all
  simp only [State.judge, harmed, State.shadow, Nat.lt_irrefl, gt_iff_lt, and_false, if_false, if_neg hfails]
  split <;> rfl

/-! #### REDUCE -/

/-- A REDUCE that meets poison writes its sound lines and fails. -/
theorem runReduce_poisoned {ws : List (Nat × Nat × List Byte)} {bad : Ranges} (hcyc : reduceCycles c ≤ 21 * c.limit)
    (hloop : reduceLoop s c c.rdCount 0 = .ok (ws, bad)) (hbad : bad ≠ []) : runReduce s c =
    let put := writeAll c.tenant c.ctx c.id c.determinism (reduceSound c bad ws) s
    match put.2 with
    | some f => (put.1.countReduceCut c).coreFail c f (reduceOutputs c)
    | none => ((put.1.countReduce c).bump (aTI c.tenant c.ctx 0x20)
        (s.poisonedLines c.id c.tenant (reduceSources c) - 1)).coreFail c (stPoison, [0]) bad := by
  obtain ⟨r, rs, rfl⟩ := List.exists_cons_of_ne_nil hbad
  simp only [runReduce, if_neg (Nat.not_lt.mpr hcyc), hloop]
  obtain ⟨s1, f⟩ := writeAll c.tenant c.ctx c.id c.determinism (reduceSound c (r :: rs) ws) s
  cases f <;> rfl

/-! #### Start values of a vector program (Table 7-1) -/

theorem Ve.start_tile (image : List Dbl) {n : Nat} (hn : n < 32) : (Ve.start c image).tile n = Tile.zero := by
  simp [Ve.tile, Ve.start, hn]

theorem Ve.start_pred (image : List Dbl) {n : Nat} (hn : n < 8) : (Ve.start c image).pred n = BitVec.allOnes 256 := by
  simp [Ve.pred, Ve.start, hn]

theorem Ve.start_scalar (image : List Dbl) {n : Nat} (hn : n < 16) (h0 : n ≠ 0) : (Ve.start c image).scalar n =
    if n < 8 then 0 else BitVec.ofNat 64 (c.p (16 + 8 * (n - 8)) 8) := by
  simp [Ve.scalar, Ve.start, hn, h0]

theorem Ve.start_scalar_low (image : List Dbl) {n : Nat} (hn : n < 8) : (Ve.start c image).scalar n = 0 := by
  by_cases h0 : n = 0
  · rw [h0]; rfl
  · rw [Ve.start_scalar image (by omega) h0, if_pos hn]

theorem Ve.start_scalar_arg (image : List Dbl) {n : Nat} (h8 : 8 ≤ n) (hn : n < 16) :
    (Ve.start c image).scalar n = BitVec.ofNat 64 (c.p (16 + 8 * (n - 8)) 8) := by
  rw [Ve.start_scalar image hn (by omega), if_neg (by omega)]

end

/-- Settles O42. -/
theorem coreCommands : Obligations.CoreCommands := by
  refine ⟨fun s id c h hc hset => ?load, fun s id c k h hk => ?run, fun s id c h hset => ?chain, fun s id c h hset => ?reduce,
    fun s id c h hset => ?gather, fun s id c h hset => ?sample, fun s id c f h hask hline => ?asks, fun s c w outs whole cut => ?ends,
    fun s c verdict sampled => judge_agrees, fun q s r hr hq => ?round,
    fun q s hq => congrArg Host.Outcome.next (by simp only [cooperRoundTimeout, hq])⟩
  case load =>
    intro b t
    have hrun : exec (.opVectorLoad id) s = .next (runVectorLoad b (begun s c)) :=
      congrArg Host.Outcome.next ((runCoreless_runs h hc).trans (reading_settled hset))
    rw [hrun]
    refine ⟨fun bs hbs him => ?_, fun bs f hbs him => ?_, fun f hbs => ?_⟩
    all_goals
      refine congrArg Host.Outcome.next ?_
      have hread : b.consume (begun s c).id (begun s c).tenant ((begun s c).p 0 8) 0 ((begun s c).p 8 4) = _ := hbs
    · simp only [runVectorLoad, hread, him]
      rfl
    · simp only [runVectorLoad, hread, him]
      rfl
    · simp only [runVectorLoad, hread]
      rfl
  case run =>
    intro v
    refine ⟨congrArg Host.Outcome.next ((runCore_runs h).trans ?_), rfl, rfl, fun n => Ve.start_tile _, fun n => Ve.start_pred _,
      fun n => Ve.start_scalar_low _, fun n => Ve.start_scalar_arg _⟩
    simp only [runVectorRun, hk]
    rfl
  case chain =>
    have hrun : exec (.opMatmulChain id) s = .next (runChain s c) :=
      congrArg Host.Outcome.next ((runCore_runs h).trans (reading_settled hset))
    intro outs k
    rw [hrun]
    refine ⟨fun f hf => congrArg Host.Outcome.next (by simp only [runChain, hf]; rfl), fun fed hfed => ?_⟩
    intro cycles whole
    refine ⟨fun hcyc => congrArg Host.Outcome.next ?_, fun hcyc hnil => congrArg Host.Outcome.next ?_, fun hcyc hne => ⟨fun f hf => congrArg Host.Outcome.next ?_,
      fun b rows hrows => congrArg Host.Outcome.next ?_⟩⟩
    all_goals simp only [runChain, hfed]
    · exact if_pos hcyc
    · exact (if_neg (Nat.not_lt.mpr hcyc)).trans (if_pos (by rw [hnil]; rfl))
    · refine (if_neg (Nat.not_lt.mpr hcyc)).trans ((if_neg (by simpa using hne)).trans ?_)
      simp only [chainWork, hf, Except.map]
      rfl
    · refine (if_neg (Nat.not_lt.mpr hcyc)).trans ((if_neg (by simpa using hne)).trans ?_)
      simp only [chainWork, hrows, Except.map]
      rfl
  case reduce =>
    have hrun : exec (.opReduce id) s = .next (runReduce s c) :=
      congrArg Host.Outcome.next ((runCore_runs h).trans (reading_settled hset))
    rw [hrun]
    refine ⟨fun hcyc => congrArg Host.Outcome.next (if_pos hcyc), fun hcyc => ⟨fun f hf => congrArg Host.Outcome.next ?_,
      fun ws hws => congrArg Host.Outcome.next ?_, fun ws bad hws hbad => ?_⟩⟩
    · simp only [runReduce, if_neg (Nat.not_lt.mpr hcyc), hf]
    · simp only [runReduce, if_neg (Nat.not_lt.mpr hcyc), hws]
    · intro put
      rw [runReduce_poisoned hcyc hws hbad]
      have hput : (writeAll c.tenant c.ctx c.id c.determinism (reduceSound c bad ws) s) = put := rfl
      exact ⟨fun f hf => by simp only [hput, hf], fun hf => by simp only [hput, hf]⟩
  case gather =>
    have hrun : exec (.opGatherRows id) s = .next (runGather s c) :=
      congrArg Host.Outcome.next ((runCore_runs h).trans (reading_settled hset))
    rw [hrun]
    refine ⟨fun f hf => congrArg Host.Outcome.next (by simp only [runGather, hf]), fun heads hh => ?_⟩
    intro rows pair ov
    exact congrArg Host.Outcome.next (by simp only [runGather, hh]; rfl)
  case sample =>
    have hrun : exec (.opSample id) s = .next (runSample s c) :=
      congrArg Host.Outcome.next ((runCore_runs h).trans (reading_settled hset))
    intro outs
    rw [hrun]
    refine ⟨fun f hf => congrArg Host.Outcome.next (by simp only [runSample, hf]; rfl), fun rows hrows =>
      ⟨fun f hf => congrArg Host.Outcome.next (by simp only [runSample, hrows, hf]; rfl),
        fun ws hws => congrArg Host.Outcome.next (by simp only [runSample, hrows, hws]; rfl)⟩⟩
  case asks => exact congrArg Host.Outcome.next ((runCore_runs h).trans (reading_asks hask hline))
  case ends =>
    intro k r
    refine ⟨coreEnd_scratchBad, fun hr => ⟨coreEnd_disagrees hr, fun hj => ?_⟩⟩
    intro put
    refine ⟨fun f hf => (coreEnd_written hr hj).trans ?_, fun hf => (coreEnd_written hr hj).trans ?_⟩
    all_goals
      have hput : (s.workWritten c w).2 = _ := hf
      simp only [hput]
      rfl
  case round =>
    have hround : exec (.cooperRoundTimeout q) s = .next (if q < 8 ∧ s.now ≥ r.openedAt + usec 50 then s.abandonRound q else s) :=
      congrArg Host.Outcome.next (by simp only [cooperRoundTimeout, hr])
    rw [hround]
    refine ⟨fun hdue => congrArg Host.Outcome.next ((if_pos ⟨hq, hdue⟩).trans ?_), fun hnot => congrArg Host.Outcome.next (if_neg (by omega))⟩
    simp only [State.abandonRound, hr]

end Sys2Proof.Machine
end

section
/-! ### Vector instructions (R131, R143–R151) -/
namespace Sys2Proof.Machine

section
variable {s : State} {core : Nat} {v : Ve} {c : Cmd} {w : Dbl}

/-! #### What issuing leaves as it is -/

theorem shadow_keeps (s : State) (k n : Nat) :
    (s.shadow k n).2.free = s.free ∧ (s.shadow k n).2.tenants = s.tenants ∧ (s.shadow k n).2.coopers = s.coopers := by
  unfold State.shadow
  dsimp only
  split
  · exact ⟨rfl, rfl, rfl⟩
  · split <;> exact ⟨rfl, rfl, rfl⟩

theorem issued_free (taken : Bool) : (s.issued core v w taken).free = s.free := (shadow_keeps (s.counted core v w taken) _ _).1

theorem issued_tenants (taken : Bool) : (s.issued core v w taken).tenants = s.tenants := (shadow_keeps (s.counted core v w taken) _ _).2.1

theorem issued_coopers (taken : Bool) : (s.issued core v w taken).coopers = s.coopers := (shadow_keeps (s.counted core v w taken) _ _).2.2

theorem ctx_issued (taken : Bool) (t x : Nat) : (s.issued core v w taken).ctx t x = s.ctx t x := by
  simp only [State.ctx, State.tenant, issued_tenants]

/-! #### One rule per form of instruction -/

theorem veReading_idle {step : State → State} (h : s.program core = none) : s.veReading core step = s := by
  simp only [State.veReading, h]

/-- An instruction that asks for nothing has its effect; one that asks for a line of another module has that asked for. -/
theorem veReading_settled {step : State → State} {t : State} (h : s.program core = some (v, c)) (hstep : step s = t)
    (hask : t.asks c.id = none) : s.veReading core step = t := by
  subst hstep
  simp only [State.veReading, h]
  exact reading_settled (body := fun s _ => step s) hask

theorem veReading_asks {step : State → State} {t : State} {f : Fail} (h : s.program core = some (v, c)) (hstep : step s = t)
    (hask : t.asks c.id = some f) (hline : fieldAt f.2 0 1 = 0) : s.veReading core step = s.seeTo c.tenant c.ctx c.id f := by
  subst hstep
  simp only [State.veReading, h]
  exact reading_asks (body := fun s _ => step s) hask hline

/-- What a load's step leaves. -/
def loadingStep (op : Nat) (f : State → Cmd → Dbl → Ve → Except Fail Ve) (core : Nat) (w : Dbl) : State → State :=
  veStep 2 op never (fun v c s =>
    let (v, s) := s.veWaits core v c 0x20 0
    match f s c w v with
    | .ok v1 => s.setVe core v1
    | .error e => veFail v c e s) core w

def storingStep (op : Nat) (f : Cmd → Dbl → Ve → State → State × Option Fail) (core : Nat) (w : Dbl) : State → State :=
  veStep 2 op never (fun v c s => match f c w v s with
    | (s1, none) => s1
    | (s1, some e) => veFail v c e s1) core w

def softmaxStep (core : Nat) (w : Dbl) : State → State :=
  veStep 2 0x08 never (fun v c s =>
    let (v, s) := s.veWaits core v c 0x20 0
    match doSmx c w v s with
    | (s1, none, v1) => s1.setVe core v1
    | (s1, some e, _) => veFail v c e s1) core w

theorem veLoad_eq (op : Nat) (f : State → Cmd → Dbl → Ve → Except Fail Ve) : veLoad op f core w s = s.veReading core (loadingStep op f core w) := rfl

theorem veStore_eq (op : Nat) (f : Cmd → Dbl → Ve → State → State × Option Fail) :
    veStore op f core w s = s.veReading core (storingStep op f core w) := rfl

theorem veSmx_eq : veSmx core w s = s.veReading core (softmaxStep core w) := rfl

section
variable {op : Nat}

/-- The engine and the state after the waits of a memory instruction that has issued. -/
def memWaits (s : State) (core : Nat) (v : Ve) (c : Cmd) (w : Dbl) : Ve × State :=
  (s.issued core v w false).veWaits core (v.advance w false).1 c 0x20 0

theorem loadingStep_ok {f : State → Cmd → Dbl → Ve → Except Fail Ve} {x : Ve} (h : Issues s core v c w 2 op)
    (hf : f (memWaits s core v c w).2 c w (memWaits s core v c w).1 = .ok x) :
    loadingStep op f core w s = (memWaits s core v c w).2.setVe core x := by
  rw [loadingStep, veStep_issued h]
  change (match f (memWaits s core v c w).2 c w (memWaits s core v c w).1 with
    | .ok v1 => (memWaits s core v c w).2.setVe core v1
    | .error e => veFail (memWaits s core v c w).1 c e (memWaits s core v c w).2) = _
  rw [hf]

theorem loadingStep_error {f : State → Cmd → Dbl → Ve → Except Fail Ve} {e : Fail} (h : Issues s core v c w 2 op)
    (hf : f (memWaits s core v c w).2 c w (memWaits s core v c w).1 = .error e) :
    loadingStep op f core w s = veFail (memWaits s core v c w).1 c e (memWaits s core v c w).2 := by
  rw [loadingStep, veStep_issued h]
  change (match f (memWaits s core v c w).2 c w (memWaits s core v c w).1 with
    | .ok v1 => (memWaits s core v c w).2.setVe core v1
    | .error e => veFail (memWaits s core v c w).1 c e (memWaits s core v c w).2) = _
  rw [hf]

theorem storingStep_ok {f : Cmd → Dbl → Ve → State → State × Option Fail} {t : State} (h : Issues s core v c w 2 op)
    (hf : f c w (v.advance w false).1 (s.issued core v w false) = (t, none)) : storingStep op f core w s = t := by
  rw [storingStep, veStep_issued h]
  change (match f c w (v.advance w false).1 (s.issued core v w false) with
    | (s1, none) => s1
    | (s1, some e) => veFail (v.advance w false).1 c e s1) = _
  rw [hf]

theorem storingStep_error {f : Cmd → Dbl → Ve → State → State × Option Fail} {t : State} {e : Fail} (h : Issues s core v c w 2 op)
    (hf : f c w (v.advance w false).1 (s.issued core v w false) = (t, some e)) :
    storingStep op f core w s = veFail (v.advance w false).1 c e t := by
  rw [storingStep, veStep_issued h]
  change (match f c w (v.advance w false).1 (s.issued core v w false) with
    | (s1, none) => s1
    | (s1, some e) => veFail (v.advance w false).1 c e s1) = _
  rw [hf]

end

theorem softmaxStep_eq (h : Issues s core v c w 2 0x08) : softmaxStep core w s =
    let z := doSmx c w (memWaits s core v c w).1 (memWaits s core v c w).2
    match z.2.1 with
    | none => z.1.setVe core z.2.2
    | some f => veFail (memWaits s core v c w).1 c f z.1 := by
  rw [softmaxStep, veStep_issued h]
  change (match doSmx c w (memWaits s core v c w).1 (memWaits s core v c w).2 with
    | (s1, none, v1) => s1.setVe core v1
    | (s1, some e, _) => veFail (memWaits s core v c w).1 c e s1) = _
  generalize doSmx c w (memWaits s core v c w).1 (memWaits s core v c w).2 = z
  obtain ⟨s1, f, v1⟩ := z
  cases f <;> rfl

/-- A branch goes to its immediate where it is taken, and on where it is not. -/
theorem veBranch_issued {op : Nat} {p : Dbl → Ve → Bool} (h : Issues s core v c w 3 op) : veBranch op p core w s =
    (s.issued core v w (p w v)).setVe core (if p w (v.advance w (p w v)).1 then { (v.advance w (p w v)).1 with pc := fImm w % 8192 }
      else (v.advance w (p w v)).1) := veStep_issued h

theorem veBranch_taken {op : Nat} {p : Dbl → Ve → Bool} (h : Issues s core v c w 3 op) (hp : p w v = true)
    (hkeep : p w (v.advance w true).1 = p w v) : veBranch op p core w s =
    (s.issued core v w true).setVe core { (v.advance w true).1 with pc := fImm w % 8192 } := by
  rw [veBranch_issued h, hp, hkeep, hp]
  rfl

theorem veBranch_passed {op : Nat} {p : Dbl → Ve → Bool} (h : Issues s core v c w 3 op) (hp : p w v = false)
    (hkeep : p w (v.advance w false).1 = p w v) : veBranch op p core w s = (s.issued core v w false).setVe core (v.advance w false).1 := by
  rw [veBranch_issued h, hp, hkeep, hp]
  rfl

/-- An instruction that draws free values takes them where the state stood. -/
theorem veOpen_issued {fmt op n : Nat} {f : Nat → Dbl → Ve → Ve} (h : Issues s core v c w fmt op) : veOpen fmt op n f core w s =
    { (s.issued core v w false).setVe core (f s.free w (v.advance w false).1) with
      free := ((s.issued core v w false).setVe core (f s.free w (v.advance w false).1)).free + n } := by
  refine (veStep_issued h).trans ?_
  simp only [never, issued_free]
  rw [show ((s.issued core v w false).setVe core (f s.free w (v.advance w false).1)).free = s.free from issued_free false]

/-! #### CPUT and CGET (R149–R151) -/

/-- The engine and the state after the waits of a Cooper's instruction that has issued. -/
def coopWaits (s : State) (core : Nat) (v : Ve) (c : Cmd) (w : Dbl) : Ve × State :=
  (s.issued core v w false).veWaits core (v.advance w false).1 c 0x38 2

theorem veCput_idle (h : s.program core = none) : veCput core w s = s := by
  simp only [veCput, h, Bool.false_eq_true, if_false, veStep_idle h]

theorem veCget_idle (h : s.program core = none) : veCget core w s = s := by
  simp only [veCget, h, Bool.false_eq_true, if_false, veStep_idle h]

theorem veCput_waits (h : s.program core = some (v, c)) (ht : c.tenant ≠ 0) (ho : otherRound s (core / 8) c (coopTag w v) = true) :
    veCput core w s = s := by
  simp [veCput, h, ht, ho]

/-- A CPUT that does not wait issues. -/
theorem veCput_issues (h : Issues s core v c w 2 0x10) (hgo : c.tenant = 0 ∨ otherRound s (core / 8) c (coopTag w v) = false) :
    veCput core w s = if c.tenant = 0 then veFail (v.advance w false).1 c boundFault (s.issued core v w false)
      else doCput (core / 8) c w (coopWaits s core v c w).1 ((coopWaits s core v c w).2.setVe core (coopWaits s core v c w).1) := by
  have hwait : (decide (c.tenant ≠ 0) && otherRound s (core / 8) c (coopTag w v)) = false := by rcases hgo with hgo | hgo <;> simp [hgo]
  simp only [veCput, h.1.1, hwait, Bool.false_eq_true, if_false]
  exact veStep_issued h

theorem veCget_waits (h : s.program core = some (v, c)) (ht : c.tenant ≠ 0) (hm : (s.ctx c.tenant c.ctx).cooperMark = false)
    (hr : cgetRoot s (core / 8) c w v = none) : veCget core w s = s := by
  simp [veCget, h, ht, hm, hr]

theorem veCget_bound (h : Issues s core v c w 2 0x11) (ht : c.tenant = 0) :
    veCget core w s = veFail (v.advance w false).1 c boundFault (s.issued core v w false) := by
  have hwait : (decide (c.tenant ≠ 0) && !(s.ctx c.tenant c.ctx).cooperMark && (cgetRoot s (core / 8) c w v).isNone) = false := by simp [ht]
  simp only [veCget, h.1.1, hwait, Bool.false_eq_true, if_false]
  refine (veStep_issued h).trans ?_
  simp only [ht, if_true]
  rfl

theorem ctx_coopWaits (t x : Nat) : (coopWaits s core v c w).2.ctx t x = s.ctx t x := ctx_issued (core := core) (v := v) (w := w) false t x

theorem coopers_coopWaits : (coopWaits s core v c w).2.coopers = s.coopers := issued_coopers (core := core) (v := v) (w := w) false

theorem cgetRoot_coopWaits (q : Nat) : cgetRoot (coopWaits s core v c w).2 q c w (coopWaits s core v c w).1 = cgetRoot s q c w v := by
  unfold cgetRoot
  rw [coopers_coopWaits]
  rfl

/-- A CGET that does not wait, of a tenant other than 0, issues and waits out its cycles. -/
theorem veCget_issues (h : Issues s core v c w 2 0x11) (ht : c.tenant ≠ 0)
    (hgo : (s.ctx c.tenant c.ctx).cooperMark = true ∨ (cgetRoot s (core / 8) c w v).isSome = true) : veCget core w s =
    let k := coopWaits s core v c w
    if (s.ctx c.tenant c.ctx).cooperMark then
      veFail k.1 c (stPoison, [0x11]) (k.2.setCtx c.tenant c.ctx { s.ctx c.tenant c.ctx with cooperMark := false })
    else match cgetRoot s (core / 8) c w v with
      | none => k.2
      | some t => ({ k.2 with coopers := NMap.set none s.coopers (core / 8) none }.bump (aCoop (core / 8) 0x08) 1).setVe core
          (k.1.setTile (mVD w) (writeActive (v.tile (mVD w)) (v.pred (mQP w)) false fun i => t.el i)) := by
  have hwait : (decide (c.tenant ≠ 0) && !(s.ctx c.tenant c.ctx).cooperMark && (cgetRoot s (core / 8) c w v).isNone) = false := by
    rcases hgo with hgo | hgo
    · simp [hgo]
    · obtain ⟨t, ht⟩ := Option.isSome_iff_exists.mp hgo
      simp [ht]
  simp only [veCget, h.1.1, hwait, Bool.false_eq_true, if_false]
  refine (veStep_issued h).trans ?_
  simp only [ht, if_false]
  rw [← ctx_coopWaits (s := s) (core := core) (v := v) (c := c) (w := w), ← cgetRoot_coopWaits (s := s) (core := core) (v := v) (c := c) (w := w),
    ← coopers_coopWaits (s := s) (core := core) (v := v) (c := c) (w := w)]
  rfl

/-! #### END, LOOP and a shadow unit that differs -/

/-- What an END's step leaves; past the last instruction the program ends without an issue. -/
def endingStep (core : Nat) (w : Dbl) (s : State) : State :=
  match s.program core with
  | some (v, c) =>
    if v.image.length ≤ v.pc then veFinish v c s
    else veStep 3 0x00 never (fun v c s => veFinish v c s) core w s
  | none => s

theorem veEnd_eq : veEnd core w s = s.veReading core (endingStep core w) := rfl

theorem endingStep_issued (hend : v.pc < v.image.length) (h : Issues s core v c w 3 0x00) :
    endingStep core w s = veFinish (v.advance w false).1 c (s.issued core v w false) := by
  simp only [endingStep, h.1.1, if_neg (Nat.not_le.mpr hend)]
  exact veStep_issued h

theorem endingStep_past (h : s.program core = some (v, c)) (hend : v.image.length ≤ v.pc) : endingStep core w s = veFinish v c s := by
  simp only [endingStep, h, if_pos hend]

/-- LOOP decrements its register, and branches where what is left is not zero. -/
theorem veLoop_issued (h : Issues s core v c w 3 0x14) {b : Bool} (hb : (v.scalar (fSA w) - 1 != 0) = b) : veLoop core w s =
    (s.issued core v w b).setVe core (if v.scalar (fSA w) - 1 = 0 then (v.advance w b).1.setScalar (fSA w) (v.scalar (fSA w) - 1)
      else { (v.advance w b).1.setScalar (fSA w) (v.scalar (fSA w) - 1) with pc := fImm w % 8192 }) := by
  subst hb
  exact veStep_issued h

/-- An armed mismatch shows where the shadow unit repeats the instruction. -/
theorem shadowed_differs {taken : Bool} (harmed : (s.core core).inject.2.2 > 0) (hs : veSampled w = true) (hn : veIssue v w false ≠ 0) :
    (s.shadowed core v w taken).1 = true := by
  unfold State.shadowed State.shadow
  dsimp only
  rw [if_pos hs, if_neg hn, counted_inject, if_pos harmed]

end

/-- On a core with no program no instruction does anything. -/
theorem exec_idle {core : Nat} {w : Dbl} {s : State} (h : s.program core = none) {fmt op : Nat} {tk : Ve → Bool} {body : Ve → Cmd → State → State} :
    Host.Outcome.next (veStep fmt op tk body core w s) = (Host.Outcome.next s : Host.Outcome State Fault Refusal) :=
  congrArg Host.Outcome.next (veStep_idle h)

/-- Settles O43: the rule of its form, for every instruction. -/
theorem vectorInstructions : Obligations.VectorInstructions := by
  intro core w s draws
  refine ⟨fun h => ?idle, fun v c => ?issued⟩
  case idle =>
    simp only [List.forall_mem_cons]
    iterate 64 refine ⟨exec_idle h, ?_⟩
    iterate 4 refine ⟨congrArg Host.Outcome.next (veReading_idle h), ?_⟩
    iterate 4 refine ⟨exec_idle h, ?_⟩
    refine ⟨congrArg Host.Outcome.next (veReading_idle h), congrArg Host.Outcome.next (veCput_idle h),
      congrArg Host.Outcome.next (veCget_idle h), congrArg Host.Outcome.next (veReading_idle h), exec_idle h, ?_⟩
    exact fun i hi => absurd hi (List.not_mem_nil)
  case issued =>
    intro e u y x l k
    refine ⟨rfl, ?_⟩
    iterate 56 refine ⟨fun h => congrArg Host.Outcome.next (veStep_issued h), ?_⟩
    iterate 8 refine ⟨fun h => congrArg Host.Outcome.next (veOpen_issued h), ?_⟩
    refine ⟨fun h => ?ldt, fun h => ?lds, fun h => ?stt, fun h => ?sts, fun h => ?br, fun h => ?beqz, fun h => ?bnez, fun h => ?blt,
      fun h => ?smx, fun h ht => ?cputBound, fun h ht ho => ?cputWaits, fun h ht ho => ?cput, fun h ht => ?cgetBound, fun h ht hm => ?cgetPoison,
      fun h ht hm hr => ?cgetWaits, fun h ht hm t hr => ?cget, fun h hend hask => ?finish, fun h hend hask => ?past,
      fun fmt op taken body h harmed hs hn => ?differs, fun h hne => ?loopOn, fun h heq => ?loopOut⟩
    case ldt =>
      exact ⟨fun z hz hask => congrArg Host.Outcome.next (veReading_settled h.1.1 (loadingStep_ok h hz) hask),
        fun f hf hask => congrArg Host.Outcome.next (veReading_settled h.1.1 (loadingStep_error h hf) hask),
        fun f g hf hask hline => congrArg Host.Outcome.next (veReading_asks h.1.1 (loadingStep_error h hf) hask hline)⟩
    case lds =>
      exact ⟨fun z hz hask => congrArg Host.Outcome.next (veReading_settled h.1.1 (loadingStep_ok h hz) hask),
        fun f hf hask => congrArg Host.Outcome.next (veReading_settled h.1.1 (loadingStep_error h hf) hask)⟩
    case stt =>
      exact ⟨fun t hd hask => congrArg Host.Outcome.next (veReading_settled h.1.1 (storingStep_ok h hd) hask),
        fun t f hd hask => congrArg Host.Outcome.next (veReading_settled h.1.1 (storingStep_error h hd) hask)⟩
    case sts =>
      exact ⟨fun t hd hask => congrArg Host.Outcome.next (veReading_settled h.1.1 (storingStep_ok h hd) hask),
        fun t f hd hask => congrArg Host.Outcome.next (veReading_settled h.1.1 (storingStep_error h hd) hask)⟩
    case br => exact congrArg Host.Outcome.next (veBranch_taken h rfl rfl)
    case beqz =>
      exact ⟨fun hz => congrArg Host.Outcome.next (veBranch_taken h (beq_iff_eq.mpr hz) rfl),
        fun hz => congrArg Host.Outcome.next (veBranch_passed h (beq_eq_false_iff_ne.mpr hz) rfl)⟩
    case bnez =>
      exact ⟨fun hz => congrArg Host.Outcome.next (veBranch_taken h (bne_iff_ne.mpr hz) rfl),
        fun hz => congrArg Host.Outcome.next (veBranch_passed h (bne_eq_false_iff_eq.mpr (not_not.mp hz)) rfl)⟩
    case blt =>
      exact ⟨fun hlt => congrArg Host.Outcome.next (veBranch_taken h (decide_eq_true hlt) rfl),
        fun hlt => congrArg Host.Outcome.next (veBranch_passed h (decide_eq_false hlt) rfl)⟩
    case smx =>
      intro z
      have hstep := softmaxStep_eq h
      refine ⟨fun hz hask => ?_, fun f hz hask => ?_⟩
      all_goals
        have hdone : (doSmx c w (memWaits s core v c w).1 (memWaits s core v c w).2).2.1 = _ := hz
        simp only [hdone] at hstep
        exact congrArg Host.Outcome.next (veReading_settled h.1.1 hstep hask)
    case cputBound => exact congrArg Host.Outcome.next ((veCput_issues h (.inl ht)).trans (if_pos ht))
    case cputWaits => exact congrArg Host.Outcome.next (veCput_waits h.1.1 ht ho)
    case cput => exact congrArg Host.Outcome.next ((veCput_issues h (.inr ho)).trans (if_neg ht))
    case cgetBound => exact congrArg Host.Outcome.next (veCget_bound h ht)
    case cgetPoison => exact congrArg Host.Outcome.next ((veCget_issues h ht (.inl hm)).trans (if_pos hm))
    case cgetWaits => exact congrArg Host.Outcome.next (veCget_waits h.1.1 ht hm hr)
    case cget =>
      refine congrArg Host.Outcome.next ((veCget_issues h ht (.inr (by rw [hr]; rfl))).trans ((if_neg (by rw [hm]; exact Bool.false_ne_true)).trans ?_))
      simp only [hr]
      rfl
    case finish =>
      exact congrArg Host.Outcome.next (veReading_settled h.1.1 (endingStep_issued hend h) hask)
    case past =>
      exact congrArg Host.Outcome.next (veReading_settled h (endingStep_past h hend) hask)
    case differs =>
      rw [veStep_issuing h, shadowed_differs harmed hs hn]
      rfl
    case loopOn =>
      have hleft : v.scalar (fSA w) - 1 ≠ 0 := fun h0 => hne (sub_eq_zero.mp h0)
      exact congrArg Host.Outcome.next ((veLoop_issued h (bne_iff_ne.mpr hleft)).trans (by rw [if_neg hleft]))
    case loopOut =>
      have hleft : v.scalar (fSA w) - 1 = 0 := by rw [heq]; rfl
      exact congrArg Host.Outcome.next ((veLoop_issued h (bne_eq_false_iff_eq.mpr hleft)).trans (by rw [if_pos hleft, hleft]))

end Sys2Proof.Machine
end

section
/-! ### Fabric commands and region opcodes (10, 12) -/
namespace Sys2Proof.Machine

section
variable {s : State} {c : Cmd}

/-! #### FENCE (R231, R232) -/

/-- A command replaced leaves every other one as it is found. -/
theorem cmd?_setCmd_of_ne {d : Cmd} {k : Nat} (hne : d.id ≠ k) : (s.setCmd d).cmd? k = s.cmd? k := by
  unfold State.cmd? State.setCmd
  dsimp only
  induction s.cmds with
  | nil => rfl
  | cons a l ih =>
    rw [List.map_cons, List.find?_cons, List.find?_cons, ih]
    by_cases ha : a.id = d.id
    · have hd : (d.id == k) = false := beq_eq_false_iff_ne.mpr hne
      simp [ha, hd]
    · simp [ha]

/-- Starting a command ends none. -/
theorem issuerRuns_Begun {op id : Nat} (h : Ready s op id c) (o : Outstanding) : (Begun s c).issuerRuns o = s.issuerRuns o := by
  unfold State.issuerRuns
  by_cases hid : c.id = o.cmd
  · have hbegun : (Begun s c).cmd? o.cmd = some (begun s c) := by rw [← hid, h.id_eq]; exact h.begun_cmd
    have hwas : s.cmd? o.cmd = some c := by rw [← hid, h.id_eq]; exact h.1
    simp [hbegun, hwas, begun, h.2.2.1]
  · rw [show (Begun s c).cmd? o.cmd = s.cmd? o.cmd from cmd?_setCmd_of_ne hid]

theorem fenceMarks_Begun {op id : Nat} (h : Ready s op id c) : fenceMarks (Begun s c) (begun s c) = fenceMarks s c := by
  have hruns : (Begun s c).issuerRuns = s.issuerRuns := funext (issuerRuns_Begun h)
  unfold fenceMarks
  rw [hruns]
  rfl

theorem exec_opFence {id : Nat} (h : Ready s 0x3003 id c) : exec (.opFence id) s =
    .next (settleFence ((Begun s c).setCmd { begun s c with stage := .waiting, fence := fenceMarks s c, since := s.now })
      { begun s c with stage := .waiting, fence := fenceMarks s c, since := s.now }) := by
  refine congrArg Host.Outcome.next ((runCoreless_runs h rfl).trans ?_)
  rw [runFence, fenceMarks_Begun h]
  rfl

theorem settleFence_fenced (h : s.fabric.fenced = true) : settleFence s c = s.endFence c stFenced 0 := if_pos h

theorem settleFence_waits (h : s.fabric.fenced = false) (hopen : c.fence.all s.covered = false) : settleFence s c = s :=
  (if_neg (by simp [h])).trans (if_neg (by simp [hopen]))

theorem settleFence_ends (h : s.fabric.fenced = false) (hall : c.fence.all s.covered = true) : settleFence s c =
    let r := (s.ctx c.tenant c.ctx).refused
    s.endFence c (if 0 < r.1 then stKeyRejected else if 0 < r.2.1 then stNotOwner else if 0 < r.2.2 then stFenced else stOK) 0 :=
  (if_neg (by simp [h])).trans (if_pos hall)

/-! #### Regions (R212–R218) -/

/-- The region a REGION_EXPORT makes. -/
def exportMade (s : State) (c : Cmd) : Export :=
  { base := (s.freeSpace (c.p 8 8)).getD 0, length := c.p 8 8, key := BitVec.ofNat 64 (c.p 16 8), tenant := c.tenant, ctx := c.p 27 1
    handle := refHandle (c.p 0 8), offset := refOff (c.p 0 8), mode := xpMode c, operation := c.p 25 1, remoteCmd := xpRemote c
    readOnly := xpReadOnly c, complete := !xpCopy c, marker := BitVec.ofNat 64 (c.p 32 8), owner := s.fabric.node, epoch := 0, writers := []
    copyWriter := none, revoking := none, since := 0, handing := none, arrivals := none }

theorem runRegionExport_whole (hcopy : xpCopy c = false) : runRegionExport s c =
    (s.setExport (freeNumber s.fabric.exports) (some (exportMade s c))).ok c.id
      (leBytes 8 (exportMade s c).base ++ leBytes 2 (freeNumber s.fabric.exports)) := by
  simp only [runRegionExport, hcopy, Bool.false_eq_true, if_false]
  split <;> simp only [exportMade, hcopy]

theorem runRegionExport_copy {o : Obj} (hcopy : xpCopy c = true) (ho : s.obj c.tenant (refHandle (c.p 0 8)) = some o) : runRegionExport s c =
    ((s.setExport (freeNumber s.fabric.exports) (some (exportMade s c))).setObj c.tenant (refHandle (c.p 0 8)) (some { o with incomplete := true })).ok
      c.id (leBytes 8 (exportMade s c).base ++ leBytes 2 (freeNumber s.fabric.exports)) := by
  have hobj (n : Nat) (e : Option Export) : (s.setExport n e).obj c.tenant (refHandle (c.p 0 8)) = some o := ho
  simp only [runRegionExport, hobj, hcopy, if_true]
  simp only [exportMade, hcopy]

/-- REGION_IMPORT's probe finds room. -/
def importRoom (s : State) (c : Cmd) : Prop :=
  s.answerRoom = true ∧ s.importCount c.tenant + s.probing c.tenant < (s.tenant c.tenant).imports
    ∧ s.fabric.imports.length + (s.cmds.countP fun d => d.opcode = 0x4002 && d.stage = .waiting) < 4096

theorem runRegionImport_probes (hc : checkRegionImport s c = none) (hroom : importRoom s c) : runRegionImport s c =
    (s.setCmd { c with stage := .waiting, since := s.now }).post (c.p 0 2) c.tenant c.ctx c.id 4
      (request (c.p 8 8) (BitVec.ofNat 64 (c.p 16 8)) [BitVec.ofNat 8 (c.p 24 1)] 0) := by
  obtain ⟨hans, hten, hall⟩ := hroom
  simp only [runRegionImport, hc]
  refine if_neg ?_
  rw [hans]
  simp only [Bool.not_true, Bool.false_eq_true, false_or, not_or, ge_iff_le, Nat.not_le]
  exact ⟨hten, hall⟩

theorem runRegionImport_waits (hc : checkRegionImport s c = none) (hroom : ¬importRoom s c) : runRegionImport s c = s := by
  simp only [runRegionImport, hc]
  refine if_pos ?_
  by_contra hno
  simp only [not_or, Bool.not_eq_true', Bool.not_eq_false, ge_iff_le, Nat.not_le] at hno
  exact hroom hno

theorem probeAnswer_probed {r : FabAnswer} (hk : r.kind = .probed) (ht : s.importCount c.tenant < (s.tenant c.tenant).imports)
    (hn : freeNumber s.fabric.imports < 4096) : probeAnswer s c r =
    (s.setImport (freeNumber s.fabric.imports) (some {
      tenant := c.tenant, node := c.p 0 2, base := c.p 8 8, key := BitVec.ofNat 64 (c.p 16 8), length := r.length, mode := r.mode
      operation := r.operation, write := c.p 24 1 ≠ 0, copyWriter := (c.p 24 1).testBit 1, readOnly := r.readOnly, owner := r.owner
      epoch := r.epoch, dead := false })).ok c.id (leBytes 4 (freeNumber s.fabric.imports) ++ leBytes 1 r.mode ++ leBytes 1 r.operation
        ++ leBytes 2 r.owner ++ leBytes 8 r.length) := by
  simp only [probeAnswer, hk]
  exact (if_neg (Nat.not_le.mpr ht)).trans (if_neg (Nat.not_le.mpr hn))

/-! #### Answers (R215, R227, R244) -/

theorem fromMember_unjoined {node : Nat} {f : State → State} (h : s.variant.fabric = false ∨ s.fabric.st = 0) : s.fromMember node f = s :=
  if_pos (by simpa using h)

theorem fromMember_outsider {node : Nat} {f : State → State} (hf : s.variant.fabric = true) (hst : s.fabric.st ≠ 0)
    (hm : NMap.get false s.fabric.members node = false) : s.fromMember node f = s.bump (aWF 0x810) 1 :=
  (if_neg (by simp [hf, hst])).trans (if_neg (by simp [hm]))

theorem fromMember_member {node : Nat} {f : State → State} (hf : s.variant.fabric = true) (hst : s.fabric.st ≠ 0)
    (hm : NMap.get false s.fabric.members node = true) : s.fromMember node f = f s :=
  (if_neg (by simp [hf, hst])).trans (if_pos hm)

theorem loadResponse_answers {r : FabAnswer} {st : StreamOut} {o : Outstanding} (hf : s.variant.fabric = true) (hst : s.fabric.st ≠ 0)
    (hm : NMap.get false s.fabric.members r.node = true) (hk : r.kind ≠ .status) (hs : NMap.get none s.fabric.out r.node = some st)
    (he : st.epoch = r.stream) (ho : (st.pending.find? fun o => o.seq = r.seq && (o.kind = 4 || o.kind = 9)) = some o) :
    loadResponse r s = (s.setOut r.node (some { st with pending := st.pending.erase o, lastAck := s.now })).answerFor o r := by
  rw [loadResponse, fromMember_member hf hst hm]
  simp only [hk, if_false, hs, he, ne_eq, not_true, ho]

theorem loadResponse_status {r : FabAnswer} (hf : s.variant.fabric = true) (hst : s.fabric.st ≠ 0)
    (hm : NMap.get false s.fabric.members r.node = true) (hk : r.kind = .status) (hc : s.cmd? r.id = some c) (hop : c.opcode = 0x4020)
    (hw : c.stage = .waiting) : loadResponse r s = s.finish c.id r.status r.data := by
  rw [loadResponse, fromMember_member hf hst hm]
  simp only [hk, if_true, hc, hop, hw, and_self]

theorem answerFor_probe {o : Outstanding} {r : FabAnswer} (ho : o.kind = 4) (hc : s.cmd? o.cmd = some c) (hop : c.opcode = 0x4002)
    (hw : c.stage = .waiting) : s.answerFor o r = probeAnswer s c r := by
  simp only [State.answerFor, ho, if_true, hc, hop, hw, and_self]

theorem lineArrives_lines {o : Outstanding} {data : List Byte} {poison : Bool} {node : Nat} (ho : o.cmd < 2 ^ 64) (hd : data.length = 64) :
    (s.lineArrives o data poison node).fabric.lines = { reader := o.cmd, node := node, line := o.offset / 64, bytes := data, poison := poison }
      :: s.fabric.lines.filter (fun x => s.readerRuns x.reader) := by
  have hfit : fitBytes 64 data = data := by rw [fitBytes_of_le hd.le, hd]; exact List.append_nil data
  simp only [State.lineArrives, if_pos ho, hfit]
  rfl

/-! #### REGION_REVOKE (R216–R218) -/

theorem checkRevokeStart_export (h : c.p 0 1 = 0) : checkRevokeStart s c = none := if_pos h

theorem checkRevokeStart_import (h : c.p 0 1 ≠ 0) (hc : checkRegionRevoke s c = none) :
    checkRevokeStart s c = if s.fabric.st = 3 then some (stFenced, []) else none := by
  simp only [checkRevokeStart, if_neg h, hc, firstFail]
  by_cases hst : s.fabric.st = 3 <;> simp [hst]

theorem runRegionRevoke_import {i : Import} (h : c.p 0 1 ≠ 0) (hi : NMap.get none s.fabric.imports (c.p 2 2) = some i) : runRegionRevoke s c =
    if !(s.regionHandles c.tenant 0 (c.p 2 2)).isEmpty then s.finish c.id stNoResources [5]
    else (if s.fabric.fenced then s.setImport (c.p 2 2) none
      else (s.setImport (c.p 2 2) none).post i.node c.tenant c.ctx c.id 5 (request i.base i.key [] 0)).ok c.id [] := by
  simp only [runRegionRevoke, if_neg h, hi]
  rfl

/-- The regions whose owners have not answered a revocation of command `id` for 10 ms. -/
def revocationsLate (s : State) (id : Nat) : List Nat :=
  s.fabric.exports.filterMap fun e => match e.2 with
    | some x => if x.revoking = some id ∧ s.now ≥ x.since + msec 10 then some e.1 else none
    | none => none

theorem revokeWriteBackTimeout_none {id : Nat} (h : revocationsLate s id = []) : revokeWriteBackTimeout id s = s :=
  if_pos (List.isEmpty_iff.mpr h)

theorem revokeWriteBackTimeout_known {id : Nat} (h : revocationsLate s id ≠ []) (hc : s.cmd? id = some c) : revokeWriteBackTimeout id s =
    ((revocationsLate s id).foldl (fun (s : State) n => s.dropExport n)
      (s.setCmd { c with result := if c.opcode = 0x4003 then [1] else c.result })).settle := by
  refine (if_neg fun he => h (List.isEmpty_iff.mp he)).trans ?_
  simp only [hc]
  rfl

theorem revokeWriteBackTimeout_unknown {id : Nat} (h : revocationsLate s id ≠ []) (hc : s.cmd? id = none) : revokeWriteBackTimeout id s =
    ((revocationsLate s id).foldl (fun (s : State) n => s.dropExport n) s).settle := by
  refine (if_neg fun he => h (List.isEmpty_iff.mp he)).trans ?_
  simp only [hc]
  rfl

/-! #### OWNERSHIP_TRANSFER (R228–R230) -/

theorem transferGo_export {e : Export} (h : c.p 0 1 ≠ 0) (he : NMap.get none s.fabric.exports (c.p 2 2) = some e) :
    transferGo s c = if transferReady s c then transferHome (s.writeBackAll c.tenant e.handle) c (c.p 2 2) e else s := by
  simp only [transferGo, if_neg h, he]
  cases transferReady s c <;> rfl

theorem transferGo_import {i : Import} (h : c.p 0 1 = 0) (hi : NMap.get none s.fabric.imports (c.p 2 2) = some i) :
    transferGo s c = if transferReady s c then transferImport s c (c.p 2 2) i else s := by
  simp only [transferGo, if_pos h, hi]
  cases transferReady s c <;> rfl

theorem runTransfer_import {i : Import} (h : c.p 0 1 = 0) (hi : NMap.get none s.fabric.imports (c.p 2 2) = some i) : runTransfer s c =
    if i.knows s.fabric.node (c.p 4 2) then transferGo (s.setCmd c.mayTransfer) c.mayTransfer else transferAsk s c i := by
  simp only [runTransfer, if_pos h, hi]

theorem runTransfer_export {e : Export} (h : c.p 0 1 ≠ 0) (he : NMap.get none s.fabric.exports (c.p 2 2) = some e) : runTransfer s c =
    if (c.p 1 1).testBit 0 ∧ e.owner ≠ s.fabric.node then transferHome s c (c.p 2 2) e else transferGo (s.setCmd c.mayTransfer) c.mayTransfer := by
  simp only [runTransfer, if_neg h, he]

theorem transferTimeout_late {id : Nat} (hc : s.cmd? id = some c) (hop : c.opcode = 0x4004) (hw : c.stage = .waiting) (hf : c.fence ≠ [])
    (hlate : c.since + msec 10 ≤ s.now) (hr : c.result ≠ []) :
    transferTimeout id s = (if c.p 0 1 = 1 then s.undoHanding (c.p 2 2) else s).finish id stUnreachable [] := by
  have hlate' : c.opcode = 0x4004 ∧ c.stage = .waiting ∧ (!c.fence.isEmpty) = true ∧ s.now ≥ c.since + msec 10 := ⟨hop, hw, by simpa using hf, hlate⟩
  simp only [transferTimeout, hc, if_pos hlate']
  exact if_neg fun h => hr (List.isEmpty_iff.mp h.1)

theorem transferTimeout_early {id : Nat} (hc : s.cmd? id = some c)
    (hnot : ¬(c.opcode = 0x4004 ∧ c.stage = .waiting ∧ c.fence ≠ [] ∧ c.since + msec 10 ≤ s.now)) : transferTimeout id s = s := by
  have hnot' : ¬(c.opcode = 0x4004 ∧ c.stage = .waiting ∧ (!c.fence.isEmpty) = true ∧ s.now ≥ c.since + msec 10) :=
    fun ⟨h1, h2, h3, h4⟩ => hnot ⟨h1, h2, by simpa using h3, h4⟩
  simp only [transferTimeout, hc, if_neg hnot']

/-! #### ROWS_SEND and ROWS_COMBINE (R269–R278) -/

theorem runRouter_busy {op id : Nat} {check : State → Cmd → Option Fail} {body : State → Cmd → State} (hc : s.cmd? id = some c)
    (hb : s.routerBusy c = true) : runRouter op check body id s = s := by
  simp only [runRouter, hc, if_pos hb]

theorem runRouter_runs {op id : Nat} {check : State → Cmd → Option Fail} {body : State → Cmd → State} (h : Ready s op id c)
    (hb : s.routerBusy c = false) (hc : check s c = none) : runRouter op check body id s = body (Begun s c) (begun s c) := by
  simp only [runRouter, h.1, hb, Bool.false_eq_true, if_false]
  exact runCoreless_runs h hc

/-- The writing pass of a ROWS_SEND. -/
def rowsSent (s : State) (c : Cmd) (is : List Import) (ts : List Travel) : Sending :=
  if c.rsBack then
    ts.foldl (fun a t => match a with
      | (s1, n, bad, some f) => (sendPoisoned c (is.getD t.peer default) (t.row * c.rsK + t.rank) s1, n, bad, some f)
      | a => match sendRow s c (is.getD t.peer default) t.src (t.row * c.rsK + t.rank) a with
        | (s1, n, bad, some f) => (sendPoisoned c (is.getD t.peer default) (t.row * c.rsK + t.rank) s1, n, bad, some f)
        | x => x) (s, 0, 0, none)
  else (List.range c.rsP).foldl (fun a p => sendPeer s c ts p (is.getD p default) a) (s, 0, 0, none)

theorem runRowsSend_planned {is : List Import} {ts : List Travel} (hp : sendPlan s c = .ok (is, ts)) : runRowsSend s c =
    match (rowsSent s c is ts).2.2.2 with
    | some f => (signalAll c is (rowsSent s c is ts).1).fail c.id f.1 f.2
    | none => (signalAll c is (rowsSent s c is ts).1).ok c.id
        (leBytes 4 (rowsSent s c is ts).2.1 ++ leBytes 4 (rowsSent s c is ts).2.2.1 ++ leBytes 2 c.rsP) := by
  have hrun : runRowsSend s c = match rowsSent s c is ts with
      | (s1, _, _, some f) => (signalAll c is s1).fail c.id f.1 f.2
      | (s1, n, bad, none) => (signalAll c is s1).ok c.id (leBytes 4 n ++ leBytes 4 bad ++ leBytes 2 c.rsP) := by
    rw [runRowsSend, hp]
    rfl
  rw [hrun]
  generalize rowsSent s c is ts = r
  obtain ⟨s1, n, bad, f⟩ := r
  cases f <;> rfl

theorem runRowsCombine_opened {rows : List Nat} (hr : s.openRows c.id c.tenant (c.p 32 8) c.rcT = .ok rows) : runRowsCombine s c =
    match (combineRows s c rows s []).2.1 with
    | some f => ((combineRows s c rows s []).1.poisonRanges c.tenant (rowsCombineOutputs s c)).fail c.id f.1 f.2
    | none => if (combineRows s c rows s []).2.2 = [] then (combineRows s c rows s []).1.ok c.id []
      else (((combineRows s c rows s []).1.bump (aTI c.tenant c.ctx 0x20) (s.poisonedLines c.id c.tenant (combineSources s c rows) - 1)).poisonRanges
        c.tenant (combineRows s c rows s []).2.2).fail c.id stPoison [0] := by
  simp only [runRowsCombine, hr]
  generalize combineRows s c rows s [] = r
  obtain ⟨s1, f, bad⟩ := r
  cases f <;> cases bad <;> rfl

end

/-- Settles O46. -/
theorem fabricCommands : Obligations.FabricCommands := by
  refine ⟨fun s id c h => ?fence, fun s id c hc => ?fenceTimeout, fun s id c h hc => ?exporting, fun s id c h hc hc2 => ?importing, fun s c r => ?probe,
    fun s r h => congrArg Host.Outcome.next (fromMember_unjoined h), fun s r hf hst hm => congrArg Host.Outcome.next (fromMember_outsider hf hst hm),
    fun s r st o hf hst hm hk hs he ho => ?answer,
    fun s r c hf hst hm hk hc hop hw => congrArg Host.Outcome.next (loadResponse_status hf hst hm hk hc hop hw),
    fun s o data poison node ho hd => ?arrives, fun s id c hc => ?probeTimeout, fun s id c h hp => ?revokeExport, fun s id c i h hp hc hi => ?revokeImport,
    fun s id => ?revokeTimeout, fun s id c h hc => ?transfer, fun s c num e hb => ?home, fun s id c hc => ?transferTimeout, fun s num e he => ?undo,
    fun s id c hc hb => ⟨congrArg Host.Outcome.next (runRouter_busy hc hb), congrArg Host.Outcome.next (runRouter_busy hc hb)⟩,
    fun s id c h hc hb hset => ?send, fun s id c h hc hb hset => ?combine⟩
  case fence =>
    intro w b
    rw [exec_opFence h]
    exact ⟨fun hf => congrArg Host.Outcome.next (settleFence_fenced hf), fun hf ho => congrArg Host.Outcome.next (settleFence_waits hf ho),
      fun hf ha => congrArg Host.Outcome.next (settleFence_ends hf ha)⟩
  case fenceTimeout =>
    intro late
    have hrun : exec (.fenceTimeout id) s = .next (fenceTimeout id s) := rfl
    simp only [hrun, fenceTimeout, hc]
    exact ⟨fun hl => congrArg Host.Outcome.next (if_pos hl), fun hl => congrArg Host.Outcome.next (if_neg hl)⟩
  case exporting =>
    intro num base
    have hrun : exec (.opRegionExport id) s = .next (runRegionExport (Begun s c) (begun s c)) := congrArg Host.Outcome.next (runCoreless_runs h hc)
    refine ⟨exportMade s c, rfl, rfl, rfl, rfl, rfl, rfl, rfl, rfl, rfl, rfl, fun hcopy => ?_, fun o hcopy ho => ?_⟩
    · exact hrun.trans (congrArg Host.Outcome.next (runRegionExport_whole hcopy))
    · exact hrun.trans (congrArg Host.Outcome.next (runRegionExport_copy hcopy ho))
  case importing =>
    intro b room
    have hrun : exec (.opRegionImport id) s = .next (runRegionImport b (begun s c)) := congrArg Host.Outcome.next (runCoreless_runs h hc)
    rw [hrun]
    exact ⟨fun hr => congrArg Host.Outcome.next (runRegionImport_probes hc2 hr), fun hr => congrArg Host.Outcome.next (runRegionImport_waits hc2 hr)⟩
  case probe =>
    refine ⟨fun hk => probeAnswer_probed hk, fun hk => ?_, fun hk => ?_, fun hk => ?_, fun hk => ?_, fun hk => ?_, fun hk => ?_⟩
    all_goals simp only [probeAnswer, hk]
  case answer =>
    intro u
    have hrun : exec (.loadResponse r) s = .next (u.answerFor o r) := congrArg Host.Outcome.next (loadResponse_answers hf hst hm hk hs he ho)
    rw [hrun]
    refine ⟨fun c ho4 hc hop hw => congrArg Host.Outcome.next (answerFor_probe ho4 hc hop hw), fun ho9 hd => ?_, fun ho9 hd => ?_, fun ho9 hd => ?_⟩
    all_goals simp only [State.answerFor, ho9, hd, Nat.reduceEqDiff, if_false]
  case arrives =>
    refine ⟨lineArrives_lines ho hd, fun hwf => ?_⟩
    simp only [State.lineArrives, if_pos ho]
    exact (NMap.get_set hwf _ _ _).trans (if_pos rfl)
  case probeTimeout =>
    intro late
    have hrun : exec (.importProbeTimeout id) s = .next (importProbeTimeout id s) := rfl
    simp only [hrun, importProbeTimeout, hc]
    exact ⟨fun hl => congrArg Host.Outcome.next (if_pos hl), fun hl => congrArg Host.Outcome.next (if_neg hl)⟩
  case revokeExport =>
    intro b
    have hrun : exec (.opRegionRevoke id) s = .next (settleRevoke b (begun s c)) :=
      congrArg Host.Outcome.next ((runCoreless_runs h (checkRevokeStart_export hp)).trans (if_pos hp))
    rw [hrun]
    exact ⟨fun hr => congrArg Host.Outcome.next (if_pos hr), fun hr => congrArg Host.Outcome.next (if_neg ((Bool.not_eq_true _).mpr hr))⟩
  case revokeImport =>
    have hcheck := checkRevokeStart_import hp hc
    have hrun (hst : s.fabric.st ≠ 3) : exec (.opRegionRevoke id) s = .next (runRegionRevoke (Begun s c) (begun s c)) :=
      congrArg Host.Outcome.next (runCoreless_runs h (hcheck.trans (if_neg hst)))
    refine ⟨fun hst => ?_, fun hst hh => ?_, fun hst hh hf => ?_, fun hst hh hf => ?_⟩
    · have hlapsed : runCoreless 0x4003 checkRevokeStart runRegionRevoke id s = _ := runCoreless_refuses h (hcheck.trans (if_pos hst))
      exact congrArg Host.Outcome.next hlapsed
    all_goals
      rw [hrun hst, runRegionRevoke_import (s := Begun s c) (c := begun s c) hp hi]
      have hhandles : (Begun s c).regionHandles (begun s c).tenant 0 ((begun s c).p 2 2) = s.regionHandles c.tenant 0 (c.p 2 2) := rfl
      rw [hhandles]
    · exact congrArg Host.Outcome.next (if_pos (by simpa using hh))
    · have hfen : (Begun s c).fabric.fenced = true := hf
      rw [hh, hfen]
      rfl
    · have hfen : (Begun s c).fabric.fenced = false := hf
      rw [hh, hfen]
      rfl
  case revokeTimeout =>
    intro nums
    exact ⟨fun hn => congrArg Host.Outcome.next (revokeWriteBackTimeout_none hn),
      fun c hn hc => congrArg Host.Outcome.next (revokeWriteBackTimeout_known hn hc),
      fun hn hc => congrArg Host.Outcome.next (revokeWriteBackTimeout_unknown hn hc)⟩
  case transfer =>
    intro w b num
    have hrun : exec (.opOwnershipTransfer id) s = .next (runTransfer (Begun s c) (begun s c)) := congrArg Host.Outcome.next (runCoreless_runs h hc)
    have hside (h1 : c.p 0 1 = 1) : c.p 0 1 ≠ 0 := by omega
    rw [hrun]
    refine ⟨fun e h1 hforce he how => congrArg Host.Outcome.next ?_, fun e h1 hno he => congrArg Host.Outcome.next ?_,
      fun i h0 hi hk => congrArg Host.Outcome.next ?_, fun i h0 hi hk => congrArg Host.Outcome.next ?_⟩
    · exact (runTransfer_export (s := Begun s c) (c := begun s c) (hside h1) he).trans (if_pos ⟨hforce, how⟩)
    · refine (runTransfer_export (s := Begun s c) (c := begun s c) (hside h1) he).trans ((if_neg ?_).trans (transferGo_export (s := b) (c := w) (hside h1) he))
      rintro ⟨hforce, how⟩
      rcases hno with hno | hno
      · exact absurd (hno.symm.trans hforce) Bool.false_ne_true
      · exact how hno
    · exact (runTransfer_import (s := Begun s c) (c := begun s c) h0 hi).trans ((if_pos hk).trans (transferGo_import (s := b) (c := w) h0 hi))
    · exact (runTransfer_import (s := Begun s c) (c := begun s c) h0 hi).trans (if_neg ((Bool.not_eq_true _).mpr hk))
  case home =>
    simp only [transferHome, hb, if_true]
  case transferTimeout =>
    intro late
    have hrun : exec (.transferTimeout id) s = .next (transferTimeout id s) := rfl
    rw [hrun]
    refine ⟨fun hn => congrArg Host.Outcome.next (transferTimeout_early hc hn), fun ⟨hop, hw, hf, hl⟩ h0 hr => congrArg Host.Outcome.next ?_,
      fun ⟨hop, hw, hf, hl⟩ h1 hr => congrArg Host.Outcome.next ?_⟩
    · rw [transferTimeout_late hc hop hw hf hl hr, if_neg h0]
    · rw [transferTimeout_late hc hop hw hf hl hr, if_pos h1]
  case undo =>
    refine ⟨fun hh => ?_, fun a old hh => ?_⟩
    all_goals simp only [State.undoHanding, he, hh]
  case send =>
    intro b
    have hrun : exec (.opRowsSend id) s = .next (runRowsSend b (begun s c)) :=
      congrArg Host.Outcome.next ((runRouter_runs h hb hc).trans (reading_settled hset))
    rw [hrun]
    refine ⟨fun f hf => congrArg Host.Outcome.next (by rw [runRowsSend, hf] <;> rfl), fun is ts hp => ?_⟩
    intro peer row r
    rw [runRowsSend_planned hp]
    have hsent : rowsSent b (begun s c) is ts = r := rfl
    exact ⟨fun hr => by simp only [hsent, hr] <;> rfl, fun f hr => by simp only [hsent, hr] <;> rfl⟩
  case combine =>
    intro b outs
    have hrun : exec (.opRowsCombine id) s = .next (runRowsCombine b (begun s c)) :=
      congrArg Host.Outcome.next ((runRouter_runs h hb hc).trans (reading_settled hset))
    rw [hrun]
    refine ⟨fun f hf => congrArg Host.Outcome.next ?_, fun rows hr => ?_⟩
    · have hopen : b.openRows (begun s c).id (begun s c).tenant ((begun s c).p 32 8) (begun s c).rcT = .error f := hf
      simp only [runRowsCombine, hopen]
      rfl
    · intro r
      rw [runRowsCombine_opened (s := b) (c := begun s c) hr]
      have hcombined : combineRows b (begun s c) rows b [] = r := rfl
      rw [hcombined]
      exact ⟨fun hn he => by simp only [hn, he] <;> rfl, fun hn he => by simp only [hn, if_neg he] <;> rfl, fun f hf => by simp only [hf] <;> rfl⟩

end Sys2Proof.Machine
end

section
/-! ### Fabric operations at their home and on their streams (10) -/
namespace Sys2Proof.Machine

section
variable {s : State}

/-! #### A packet's place in its stream (R214, R220, R246, R252) -/

section
variable {kind : HomeKind} {arg : Nat} {p : FabPkt}

theorem arrive_unjoined (h : ¬(s.variant.fabric = true ∧ s.fabric.st ≠ 0)) : arrive kind arg p s = s :=
  if_pos (by simpa [or_iff_not_imp_left] using h)

theorem arrive_outsider (h : s.variant.fabric = true ∧ s.fabric.st ≠ 0) (hm : NMap.get false s.fabric.members p.src = false) :
    arrive kind arg p s = (s.leaveIngress kind p).bump (aWF 0x810) 1 :=
  (if_neg (by simp [h.1, h.2])).trans (if_neg (by simp [hm]))

theorem arrive_member (h : s.variant.fabric = true ∧ s.fabric.st ≠ 0) (hm : NMap.get false s.fabric.members p.src = true) :
    arrive kind arg p s = sequence kind arg p s :=
  (if_neg (by simp [h.1, h.2])).trans (if_pos hm)

theorem sequence_otherEpoch (h : ((s.openStream p).intoOf p.src p.epoch).epoch ≠ p.epoch) : sequence kind arg p s = s.leaveIngress kind p :=
  if_pos h

variable {x : StreamIn} (hx : (s.openStream p).intoOf p.src p.epoch = x) (he : x.epoch = p.epoch)
include hx he

theorem sequence_past (hd : 2 ^ 31 ≤ seqDist x.next p.seq) : sequence kind arg p s =
    (((s.openStream p).leaveIngress kind p).bump (aWF 0x018) 1).send
      { node := p.src, kind := .ack, number := (x.next + 2 ^ 32 - 1) % 2 ^ 32, epoch := x.epoch, data := [], poison := false } := by
  subst hx
  exact (if_neg (not_not.mpr he)).trans (if_pos hd)

theorem sequence_held (hd : seqDist x.next p.seq = 0) (hh : (s.openStream p).heldAtUnit p = true) :
    sequence kind arg p s = (s.openStream p).leaveIngress kind p := by
  subst hx
  exact (if_neg (not_not.mpr he)).trans ((if_neg (by omega)).trans ((if_pos hd).trans (if_pos hh)))

theorem sequence_next (hd : seqDist x.next p.seq = 0) (hh : (s.openStream p).heldAtUnit p = false) {r : State × Bool}
    (hr : takeHome (s.openStream p) { kind := kind, pkt := p, arg := arg, at_ := s.now } = r) :
    sequence kind arg p s = if r.2 then drainReorder (x.reorder.length + 1) p.src r.1 else r.1 := by
  subst hx
  refine (if_neg (not_not.mpr he)).trans ((if_neg (by omega)).trans ((if_pos hd).trans ((if_neg ((Bool.not_eq_true _).mpr hh)).trans ?_)))
  simp only [hr]
  obtain ⟨s1, taken⟩ := r
  cases taken <;> rfl

variable (h0 : 0 < seqDist x.next p.seq) (hd : seqDist x.next p.seq < 2 ^ 31)
include h0 hd

theorem sequence_known (hk : ∃ r ∈ x.reorder, r.pkt.seq = p.seq) : sequence kind arg p s = (s.openStream p).leaveIngress kind p := by
  subst hx
  exact (if_neg (not_not.mpr he)).trans ((if_neg (by omega)).trans ((if_neg (by omega)).trans (if_pos (by simpa using hk))))

theorem sequence_ahead (hk : ∀ r ∈ x.reorder, r.pkt.seq ≠ p.seq) : sequence kind arg p s =
    if (s.openStream p).reorderBytes + pktBytes p > 65536 then ((s.openStream p).leaveIngress kind p).bump (aWF 0x830) 1
    else ((s.openStream p).leaveIngress kind p).setInto p.src
      { x with reorder := x.reorder ++ [{ kind := kind, pkt := { p with port := 8 }, arg := arg, at_ := s.now }] } := by
  subst hx
  exact (if_neg (not_not.mpr he)).trans ((if_neg (by omega)).trans ((if_neg (by omega)).trans (if_neg (by simpa using hk))))

end

/-! #### Effects at the home (R214, R223, R224, R227, R230, R236) -/

section
variable {p : FabPkt} {n : Nat} {e : Export}

theorem homeLoad_of_regionFor (hr : s.regionFor p p.size = some (n, e)) : homeLoad s p =
    if !e.complete ∨ e.revoking.isSome then s.rejectKey p
    else s.answer p .data (s.regionRead e p.offset p.size).1 (s.regionRead e p.offset p.size).2 := by
  simp only [homeLoad, hr]

theorem homeWrite_incomplete {b : Bool} (hr : s.regionFor p p.size = some (n, e)) (hc : e.complete = false) (hw : e.copyWriter ≠ some p.src) :
    homeWrite s b p = s.rejectKey p := by
  simp only [homeWrite, hr, hc]
  exact if_neg hw

/-- A write to a complete region that nothing revokes. -/
theorem homeWrite_complete {b : Bool} (hr : s.regionFor p p.size = some (n, e)) (hc : e.complete = true) (hv : e.revoking = none) :
    homeWrite s b p =
      if e.mode = 0 then
        if e.owner ≠ p.src ∨ p.ownEpoch ≠ e.epoch then s.rejectOwner p else ((s.regionWrite e p).inbound e p).acknowledge p
      else if !e.writers.contains p.src then s.rejectKey p
      else if e.mode = 2 then (((s.regionAtomic e p).countAtomic e.operation b).inbound e p).acknowledge p
      else ((s.regionWrite e p).inbound e p).acknowledge p := by
  simp only [homeWrite, hr, hc, hv, Bool.not_true, Bool.false_eq_true, if_false, Option.isSome_none, false_and]

theorem homeOwner_allowed {b : Nat} (hr : s.regionFor p 0 = some (n, e)) (hm : e.mode = 0) (hc : e.complete = true) (hv : e.revoking = none)
    (hb : e.mayOwn s.fabric.node b = true) : homeOwner s p b =
    if p.size = 0 then s.acknowledge p
    else if e.owner ≠ p.src ∨ p.ownEpoch ≠ e.epoch then s.rejectOwner p
    else if b = s.fabric.node then (s.setExport n (some { e with owner := b, epoch := (e.epoch + 1) % 2 ^ 32 })).acknowledge p
    else (s.setExport n (some { e with owner := b, epoch := (e.epoch + 1) % 2 ^ 32, handing := some (e.owner, e.epoch), since := s.now })).post b
      e.tenant e.ctx 0 8
      { p with data := leBytes 4 ((e.epoch + 1) % 2 ^ 32) ++ leBytes 2 p.src ++ leBytes 4 p.epoch ++ leBytes 4 p.seq, port := 8 } := by
  simp only [homeOwner, hr]
  exact if_neg (by simp [hm, hc, hv, hb])

/-- What a probe answers where it is admitted. -/
def probeDescribed (s : State) (p : FabPkt) (n : Nat) (e : Export) : State :=
  (s.setExport n (some e)).answer p .probed
    (leBytes 1 e.mode ++ leBytes 1 e.operation ++ leBytes 2 e.owner ++ leBytes 4 e.epoch ++ leBytes 8 e.length ++ leBytes 1 (b2n e.readOnly)) false

variable (hr : s.regionFor p 0 = some (n, e)) (ho : p.offset = e.base) (hv : e.revoking = none) (hc : e.complete = true)
include hr ho hv hc

theorem homeProbe_read : homeProbe s p 0 = probeDescribed s p n e := by
  simp only [homeProbe, hr]
  exact (if_neg (by simp [ho, hv])).trans ((if_neg (by simp)).trans ((if_neg (by simp [hc])).trans ((if_neg (by simp)).trans (if_neg (by simp)))))

theorem homeProbe_write : homeProbe s p 1 =
    if e.readOnly then s.answer p .importRefused [0x44] false
    else if p.src ∉ e.writers ∧ 64 ≤ e.writers.length then s.answer p .importRefused [3] false
    else probeDescribed s p n { e with writers := if p.src ∉ e.writers then e.writers ++ [p.src] else e.writers } := by
  have hcopy : Nat.testBit 1 1 = false := rfl
  simp only [homeProbe, hr]
  refine (if_neg (by simp [ho, hv])).trans ?_
  cases hro : e.readOnly
  · refine (if_neg (by simp [hcopy])).trans ((if_neg (by simp [hc])).trans ?_)
    by_cases hw : p.src ∈ e.writers
    · simp [hw, hcopy, probeDescribed]
    · simp [hw, hcopy, probeDescribed]
  · exact if_pos (by simp)

end

/-! #### Entries of the home units (R233, R234) -/

theorem takeHome_apply {q : HomeOp} (h : q.onLine = false ∨ s.lineBusy q.pkt.offset = true ∨
    ((s.entries (homeUnitOf q.pkt.offset)).length < 64 ∧ NMap.get [] s.fabric.waiting (homeUnitOf q.pkt.offset) = [])) :
    takeHome s q = (applyHome s q, true) :=
  if_pos (by simpa [or_assoc] using h)

theorem takeHome_wait {q : HomeOp} {u : Nat} (hu : homeUnitOf q.pkt.offset = u) (hl : q.onLine = true)
    (h : ¬(s.lineBusy q.pkt.offset = true ∨ ((s.entries u).length < 64 ∧ NMap.get [] s.fabric.waiting u = []))) : takeHome s q =
    ({ s with fabric := { s.fabric with waiting := NMap.set [] s.fabric.waiting u (NMap.get [] s.fabric.waiting u ++ [q]) } }, false) := by
  subst hu
  exact if_neg (by simpa [hl] using h)

theorem homeEntryAdmit_front {u : Nat} {q : HomeOp} {rest : List HomeOp} (hw : NMap.get [] s.fabric.waiting u = q :: rest) :
    homeEntryAdmit u s = if s.lineBusy q.pkt.offset || (s.entries u).length < 64 then admitHeld s u q else s := by
  simp only [homeEntryAdmit, hw]

theorem admitHeld_front {u : Nat} {q : HomeOp} {rest : List HomeOp} {s2 : State} (hw : NMap.get [] s.fabric.waiting u = q :: rest)
    (h2 : applyHome (State.bump { s with fabric := { s.fabric with waiting := NMap.set [] s.fabric.waiting u rest } }
      (aWF 0x040)
      ((s.now - q.at_) / 4)) q = s2) :
    admitHeld s u q = drainReorder ((s2.intoOf q.pkt.src q.pkt.epoch).reorder.length + 1) q.pkt.src s2 := by
  subst h2
  simp only [admitHeld, hw, List.erase_cons_head]

/-! #### At the requester (R175, R220, R221, R223) -/

section
variable {node : Nat} {st : StreamOut}

theorem resend_late (hs : NMap.get none s.fabric.out node = some st) : resend node s =
    if st.pending.countP (fun o => s.now ≥ o.sentAt + usec 200) = 0 ∨ s.fabric.st = 3 then s
    else (st.pending.filter fun o => s.now ≥ o.sentAt + usec 200).foldl (fun (s : State) o => s.sendAgain node o)
      ((s.setOut node (some { st with pending := st.pending.map fun o => if s.now ≥ o.sentAt + usec 200 then { o with sentAt := s.now } else o })).bump
        (aWF 0x020) (st.pending.countP fun o => s.now ≥ o.sentAt + usec 200)) := by
  simp only [resend, hs, decide_eq_true_eq]

theorem streamBreak_goesOn (hs : NMap.get none s.fabric.out node = some st) (h : st.pending = [] ∨ s.now < st.lastAck + msec 10) :
    streamBreak node s =
      if st.pending.any fun o => o.kind = 9 && s.now ≥ o.issuedAt + msec 10 then
        (st.pending.filter fun o => o.kind = 9 && s.now ≥ o.issuedAt + msec 10).foldl (fun (s : State) o => s.readFails o 3)
          (s.setOut node (some { st with pending := st.pending.filter fun o => !(o.kind = 9 && s.now ≥ o.issuedAt + msec 10) }))
      else s := by
  simp only [streamBreak, hs]
  exact if_pos (by simpa using h)

theorem streamBreak_breaks (hs : NMap.get none s.fabric.out node = some st) (hp : st.pending ≠ []) (hl : st.lastAck + msec 10 ≤ s.now) :
    streamBreak node s = (st.pending.filter fun o => o.kind = 9).foldl (fun (s : State) o => s.readFails o 3)
      (((st.pending.filter fun o => o.kind ≤ 1 ∨ o.kind = 6).foldl (fun (s : State) o => s.loseNode o.tenant o.ctx node) (s.breakWaits node)).setOut
        node (some { epoch := (st.epoch + 1) % 2 ^ 32, next := 0, acked := 0, pending := [], lastAck := s.now })) := by
  simp only [streamBreak, hs]
  exact if_neg (by simpa using ⟨hp, hl⟩)

end

end

/-- Settles O47. -/
theorem fabricOperations : Obligations.FabricOperations := by
  refine ⟨fun p r n base epoch s kind i arg hi => ?arrival, fun s b q h => if_pos h, fun s b q h => ?effect, fun s p a hr => ?noRegion,
    fun s p b hr => ?noRoom, fun s p b n e hr hc => ?incomplete, fun s p b n e hr hc hv => ?region,
    fun s p b n e hr hm hc hv hb => ?owner, fun s p n e hr ho hv hc => ?probe, fun s p n e hr => ?release, fun s p owner => ?notice,
    fun s p => ?ask, fun s q => ?entries, fun u s hw => ?noneHeld, fun u s q rest hw => ?freed, fun node s h => ?unjoined,
    fun node s hf hst hm => ?outsider, fun node s hs => ?noStream, fun node s st hf hst hm hs => ?answers, fun node s st hs => ?late⟩
  case arrival =>
    have hexec : exec i s = .next (arrive kind arg p s) := by
      rcases hi with ⟨rfl, rfl, rfl⟩ | ⟨rfl, rfl, rfl⟩ | ⟨rfl, rfl, rfl⟩ | ⟨rfl, rfl, rfl⟩ | ⟨rfl, rfl, rfl⟩ | ⟨rfl, rfl, rfl⟩ | ⟨rfl, rfl, rfl⟩
        | ⟨rfl, rfl, rfl, rfl⟩ | ⟨rfl, rfl, rfl, rfl⟩ <;> rfl
    intro s0 x d q out joined
    rw [hexec]
    refine ⟨fun h => congrArg Host.Outcome.next (arrive_unjoined h), fun h hm => congrArg Host.Outcome.next (arrive_outsider h hm), fun h hm => ?_⟩
    rw [arrive_member h hm]
    refine ⟨fun he => congrArg Host.Outcome.next (sequence_otherEpoch he), fun he hd => congrArg Host.Outcome.next (sequence_past rfl he hd),
      fun he hd hh => congrArg Host.Outcome.next (sequence_held rfl he hd hh), fun he hd hh => congrArg Host.Outcome.next (sequence_next rfl he hd hh rfl),
      fun he h0 hd hk => congrArg Host.Outcome.next (sequence_known rfl he h0 hd hk), fun he h0 hd hk hle => congrArg Host.Outcome.next ?_,
      fun he h0 hd hk hgt => congrArg Host.Outcome.next ?_⟩
    · exact (sequence_ahead rfl he h0 hd hk).trans (if_neg (Nat.not_lt.mpr hle))
    · exact (sequence_ahead rfl he h0 hd hk).trans (if_pos hgt)
  case effect =>
    unfold homeEffect
    rw [if_neg h]
    refine ⟨fun hk => ?_, ?_, fun hk => ?_, fun hk => ?_, fun hk => ?_, fun hk => ?_, fun hk => ?_⟩
    case refine_2 => rintro (hk | hk | hk) <;> simp only [hk]
    all_goals simp only [hk]
  case noRegion =>
    refine ⟨?_, ?_, ?_⟩
    · simp only [homeOwner, hr]
    · simp only [homeProbe, hr]
    · simp only [homeRelease, hr]
  case noRoom =>
    refine ⟨?_, ?_⟩
    · simp only [homeLoad, hr]
    · simp only [homeWrite, hr]
  case incomplete => exact ⟨(homeLoad_of_regionFor hr).trans (if_pos (by simp [hc])), fun hw => homeWrite_incomplete hr hc hw⟩
  case region =>
    refine ⟨(homeLoad_of_regionFor hr).trans (if_neg (by simp [hc, hv])), ?_⟩
    rw [homeWrite_complete hr hc hv]
    refine ⟨fun hm ho he => ?_, fun hm ho => ?_, fun hm hw => ?_, fun hm hw => ?_, fun hm hw => ?_⟩
    · rw [if_pos hm, if_neg (by simp [ho, he])]
    · rw [if_pos hm, if_pos ho]
    · rw [if_neg hm, if_pos (by simpa using hw)]
    · rw [if_neg (by omega), if_neg (by simpa using hw), if_neg (by omega)]
    · rw [if_neg (by omega), if_neg (by simpa using hw), if_pos hm]
  case owner =>
    intro f
    rw [homeOwner_allowed hr hm hc hv hb]
    refine ⟨fun h0 => if_pos h0, fun h0 ho => (if_neg h0).trans (if_pos ho), fun h0 ho he hn => ?_, fun h0 ho he hn => ?_⟩
    · exact (if_neg h0).trans ((if_neg (by simp [ho, he])).trans (if_pos hn))
    · exact (if_neg h0).trans ((if_neg (by simp [ho, he])).trans (if_neg hn))
  case probe =>
    intro described
    rw [homeProbe_write hr ho hv hc]
    refine ⟨homeProbe_read hr ho hv hc, fun hro => if_pos hro, fun hro hw => ?_, fun hro hw hl => ?_, fun hro hw hl => ?_⟩
    · rw [if_neg (by simp [hro]), if_neg (by simp [hw]), if_neg (by simp [hw])]
      rfl
    · rw [if_neg (by simp [hro]), if_neg (by simp [hl]), if_pos hw]
      rfl
    · rw [if_neg (by simp [hro]), if_pos ⟨hw, hl⟩]
  case release => simp only [homeRelease, hr]
  case notice => exact ⟨fun h => if_pos (by simp [h]), fun h => if_neg (by simpa using h)⟩
  case ask => exact ⟨fun h => if_pos h, fun h => if_neg ((Bool.not_eq_true _).mpr h)⟩
  case entries =>
    intro follow out u line free
    exact ⟨rfl, fun hl => takeHome_apply (.inl hl), fun _ hf => takeHome_apply (.inr hf), fun hl hf => takeHome_wait rfl hl hf⟩
  case noneHeld =>
    have hexec : exec (.homeEntryAdmit u) s = .next (homeEntryAdmit u s) := rfl
    rw [hexec, homeEntryAdmit, hw]
  case freed =>
    intro free s1 s2
    have hexec : exec (.homeEntryAdmit u) s = .next (homeEntryAdmit u s) := rfl
    rw [hexec, homeEntryAdmit_front hw]
    exact ⟨fun hf => congrArg Host.Outcome.next ((if_pos (by simpa using hf)).trans (admitHeld_front hw rfl)),
      fun hf => congrArg Host.Outcome.next (if_neg (by simpa [free] using hf))⟩
  case unjoined =>
    exact ⟨fun e q => congrArg Host.Outcome.next (fromMember_unjoined h), fun e q k => congrArg Host.Outcome.next (fromMember_unjoined h)⟩
  case outsider =>
    exact ⟨fun e q => congrArg Host.Outcome.next (fromMember_outsider hf hst hm), fun e q k => congrArg Host.Outcome.next (fromMember_outsider hf hst hm)⟩
  case noStream =>
    have hresend : exec (.resend node) s = .next (resend node s) := rfl
    have hbreak : exec (.streamBreak node) s = .next (streamBreak node s) := rfl
    rw [hresend, hbreak]
    simp only [resend, streamBreak, hs, and_self]
  case answers =>
    intro gone
    have hack (e q : Nat) : exec (.acknowledgement node e q) s = .next (acknowledgement node e q s) := rfl
    have href (e q : Nat) (k : RefusalKind) : exec (.refusal node e q k) s = .next (refusal node e q k s) := rfl
    simp only [hack, href, acknowledgement, refusal, fromMember_member hf hst hm, hs]
    refine ⟨fun q => congrArg Host.Outcome.next (if_neg (not_not.mpr rfl)), fun q k => congrArg Host.Outcome.next (if_neg (not_not.mpr rfl)),
      fun e q k he => ⟨congrArg Host.Outcome.next (if_pos he.symm), congrArg Host.Outcome.next (if_pos he.symm)⟩⟩
  case late =>
    intro late old
    have hresend : exec (.resend node) s = .next (resend node s) := rfl
    have hbreak : exec (.streamBreak node) s = .next (streamBreak node s) := rfl
    rw [hresend, hbreak, resend_late hs]
    refine ⟨fun h => congrArg Host.Outcome.next (if_pos h), fun hn hst => congrArg Host.Outcome.next ?_, fun h ho => congrArg Host.Outcome.next ?_,
      fun h ho => congrArg Host.Outcome.next ?_, fun hp hl => congrArg Host.Outcome.next (streamBreak_breaks hs hp hl)⟩
    · refine (if_neg (not_or.mpr ⟨hn, hst⟩)).trans ?_
      simp only [late, decide_eq_true_eq]
    · exact (streamBreak_goesOn hs h).trans (if_neg ((Bool.not_eq_true _).mpr ho))
    · exact (streamBreak_goesOn hs h).trans (if_pos ho)

end Sys2Proof.Machine
end

section
/-! ### Fabric links, leases and partitions (11) -/
namespace Sys2Proof.NMap

/-- A map of one value for a rising list of keys gives that value at each of them. -/
theorem get_map_const {α : Type} {d v : α} {ks : List Nat} (hks : ks.Pairwise (· < ·)) {k : Nat} (hk : k ∈ ks) :
    get d (ks.map fun j => (j, v)) k = v := by
  induction ks with
  | nil => simp at hk
  | cons j js ih =>
    obtain ⟨hj, hjs⟩ := List.pairwise_cons.mp hks
    rcases List.mem_cons.mp hk with rfl | hk
    · simp [get]
    · have hlt := hj k hk
      simp only [List.map_cons, get, if_neg (by omega : ¬k = j), if_neg (by omega : ¬k < j)]
      exact ih hjs hk

end Sys2Proof.NMap

namespace Sys2Proof.Machine

section
variable {s : State} {c : Cmd}

/-! #### Leases (R254–R256) -/

theorem leaseExpiry_lapses {t : Nat} (ht : s.fabric.expiry = some t) (hst : s.fabric.st = 1) (hf : s.fabric.fenced = false) (hnow : t ≤ s.now) :
    leaseExpiry s = (State.fenceSelf { s with fabric := { s.fabric with st := 3 } }).holdOpen.keepPending fun _ => false := by
  simp only [leaseExpiry, ht]
  exact if_pos ⟨hst, by simp [hf], hnow⟩

theorem leaseExpiry_stands (h : s.fabric.expiry = none ∨ s.fabric.st ≠ 1 ∨ s.fabric.fenced = true ∨ ∀ t, s.fabric.expiry = some t → s.now < t) :
    leaseExpiry s = s := by
  cases ht : s.fabric.expiry with
  | none => simp only [leaseExpiry, ht]
  | some t =>
    simp only [leaseExpiry, ht]
    refine if_neg ?_
    rintro ⟨hst, hf, hnow⟩
    rcases h with h | h | h | h
    · simp [ht] at h
    · exact h hst
    · simp [h] at hf
    · exact absurd hnow (Nat.not_le.mpr (h t ht))

theorem runLeaseSet_forwards (h : lsForwards s c = true) : runLeaseSet s c = (s.setCmd { c with stage := .waiting, since := s.now }).send
    { node := lsTarget c, kind := .lease, number := c.id, epoch := 0, data := forwardedLease s c, poison := false } :=
  if_pos h

theorem runLeaseSet_stale (h : lsForwards s c = false) (hold : (s.fabric.leaseSeq.map fun n => decide (c.p 0 8 ≤ n)).getD false = true) :
    runLeaseSet s c = s.ok c.id [1] :=
  (if_neg ((Bool.not_eq_true _).mpr h)).trans (if_pos hold)

theorem runLeaseSet_renews (h : lsForwards s c = false) (hold : (s.fabric.leaseSeq.map fun n => decide (c.p 0 8 ≤ n)).getD false = false) :
    runLeaseSet s c = State.ok { s with fabric := { s.fabric with
      expiry := some (c.acceptedAt + usec (c.p 8 4)), leaseSeq := some (c.p 0 8), fenced := false, st := 1 } } c.id [0] :=
  (if_neg ((Bool.not_eq_true _).mpr h)).trans (if_neg ((Bool.not_eq_true _).mpr hold))

/-- A command of the fabric that ends keeps its end. -/
theorem finish_remote {id status : Nat} {result : List Byte} (hc : s.cmd? id = some c) (ho : c.stage ≠ .done) (he : c.entry = .remote) :
    (s.finish id status result).cmd? id = some { c with status := status, result := result, stage := .done } := by
  have hend : s.finish id status result = s.setCmd { c with status := status, result := result, stage := .done } := by
    simp only [State.finish, hc, if_neg ho, he]
  rw [hend]
  exact cmd?_setCmd hc (show c.id = id from cmd?_id hc)

/-- A LEASE_SET of another module whose key differs is counted (R255 item 3). -/
theorem countLease_refused {id : Nat} {t : State} {d : Cmd} (hc : s.cmd? id = some c) (ht : t.cmd? id = some d) (hop : c.opcode = 0x4020)
    (he : c.entry = .remote) (ho : c.stage ≠ .done) (hd : d.stage = .done) (hst : d.status = stKeyRejected) :
    countLease id s t = t.bump (aWF 0x820) 1 := by
  simp only [countLease, hc, ht]
  exact if_pos ⟨hop, he, ho, hd, hst⟩

/-! #### A join (R251) -/

theorem drive_fabric (n : Nat) (high : Bool) : (s.drive n high).fabric = s.fabric := by
  unfold State.drive
  split_ifs <;> rfl

theorem drive_cmds (n : Nat) (high : Bool) : (s.drive n high).cmds = s.cmds := by
  unfold State.drive
  split_ifs <;> rfl

theorem pulse_fabric (n : Nat) : (s.pulse n).fabric = s.fabric := (drive_fabric n false).trans (drive_fabric n true)

theorem pulse_cmds (n : Nat) : (s.pulse n).cmds = s.cmds := (drive_cmds n false).trans (drive_cmds n true)

/-- Ports that start training present the module, which its engine alone notes. -/
theorem presents (ps : List Nat) : ∃ sent, (ps.foldl (fun (s : State) p => (s.pulse (31 + p)).present p) s).fabric = { s.fabric with sent := sent }
    ∧ (ps.foldl (fun (s : State) p => (s.pulse (31 + p)).present p) s).cmds = s.cmds := by
  induction ps generalizing s with
  | nil => exact ⟨s.fabric.sent, rfl, rfl⟩
  | cons p ps ih =>
    obtain ⟨sent, hfab, hcmds⟩ := ih (s := (s.pulse (31 + p)).present p)
    refine ⟨sent, ?_, ?_⟩
    · rw [List.foldl_cons, hfab]
      simp only [State.present, pulse_fabric]
    · rw [List.foldl_cons, hcmds]
      exact pulse_cmds _

/-- The ports an image uses. -/
def imgPorts (a : Array Byte) : List Nat := (List.range 8).filter fun p => imgNode a p ≠ 0xFFFF

/-- What a join takes, before its ports start training. -/
def joined (s : State) (c : Cmd) : State :=
  let a := (s.imageBytes c).toArray
  { s with fabric := { s.fabric with
    st := if psLeased c then 2 else 1, leased := psLeased c, fenced := psLeased c, node := c.p 2 2, partition := c.p 4 2, rank := c.p 6 2
    epoch := c.p 8 4, leaseKey := BitVec.ofNat 64 (c.p 24 8), expiry := none, leaseSeq := none, members := imgMembers a, routes := imgRoutes a
    neighbours := (imgPorts a).map fun p => (p, some (imgNode a p, imgRank a p)), parent := (a.getD 18 0).toNat, out := [], into := []
    waiting := [], units := [], lines := [], loop := [], paths := []
    ports := (imgPorts a).map fun p => (p, { WfPort.init with st := 1, since := s.now }) } }

theorem runJoin_eq : runJoin s c = ((imgPorts (s.imageBytes c).toArray).foldl (fun (s : State) p => (s.pulse (31 + p)).present p) (joined s c)).ok
    c.id (leBytes 1 (imgPorts (s.imageBytes c).toArray).length) := rfl

theorem joined_wfPort {p : Nat} (hp : p < 8) (hu : imgNode (s.imageBytes c).toArray p ≠ 0xFFFF) :
    NMap.get WfPort.init (joined s c).fabric.ports p = { WfPort.init with st := 1, since := s.now } :=
  NMap.get_map_const (List.Pairwise.filter _ List.pairwise_lt_range) (List.mem_filter.mpr ⟨List.mem_range.mpr hp, by simpa using hu⟩)

/-! #### Ports (R241, R243, R251) -/

section
variable {p : Nat} {n : Neighbour}

theorem portTraining_ignored (h : 8 ≤ p ∨ s.pw.refLost.testBit 1 = true ∨
    ((s.wfPort p).st ≠ 1 ∧ ((s.wfPort p).st ≠ 2 ∨ n.trained = false ∨ n.fourLanes = true))) : portTraining p n s = s := by
  refine if_pos ?_
  rcases h with h | h | ⟨h1, h2⟩
  · exact .inl h
  · exact .inr (.inl h)
  · refine .inr (.inr ?_)
    rcases h2 with h2 | h2 | h2 <;> simp [h1, h2]

/-- A port whose training counts: it trains, or it is up and lost a lane. -/
theorem portTraining_eq (hp : p < 8) (hr : s.pw.refLost.testBit 1 = false)
    (hst : (s.wfPort p).st = 1 ∨ ((s.wfPort p).st = 2 ∧ n.trained ∧ !n.fourLanes)) : portTraining p n s =
    if !n.trained then s.movePort p { s.wfPort p with st := 0, since := s.now }
    else if fencingCause s p n ≠ 0 then s.dropPort p { s.wfPort p with
      nNode := n.node, nRank := n.rank, cause := fencingCause s p n, since := s.now, los := false, st := 4 }
    else if (s.wfPort p).st = 2 then s.movePort p { s.wfPort p with
      nNode := n.node, nRank := n.rank, cause := fencingCause s p n, since := s.now, los := false, st := 3, width := 1, delay := n.delay % 2 ^ 24 }
    else s.movePort p { (s.wfPort p).emptied with
      nNode := n.node, nRank := n.rank, cause := fencingCause s p n, since := s.now, los := false
      st := if n.fourLanes then 2 else 3, width := if n.fourLanes then 2 else 1, delay := n.delay % 2 ^ 24
      credit := [(0, 768), (1, 768), (2, 768), (3, 768)], shared := 5120 } := by
  refine if_neg ?_
  rintro (h | h | h)
  · omega
  · simp [hr] at h
  · exact absurd hst (by simpa [imp_iff_not_or] using h)

theorem portDown_drops {cause : DownCause} (hp : p < 8) (h : (s.wfPort p).live = true ∨ ((s.wfPort p).st = 1 ∧ cause = DownCause.mismatch)) :
    portDown p cause s = s.dropPort p { s.wfPort p with
      st := if cause = .mismatch then 4 else 0, los := (s.wfPort p).los || cause = .lossOfSignal } := by
  refine if_neg ?_
  rintro (hge | ⟨hlive, hst⟩)
  · omega
  · rcases h with h | h
    · simp [h] at hlive
    · simp [h] at hst

theorem portDown_ignored {cause : DownCause} (hdead : 8 ≤ p ∨ (s.wfPort p).live = false) (h : (s.wfPort p).st ≠ 1 ∨ cause ≠ DownCause.mismatch) :
    portDown p cause s = s :=
  if_pos (hdead.imp_right fun hl => ⟨by simp [hl], by simpa [or_iff_not_imp_left] using h⟩)

end

/-! #### Frames (R240, R241, R243, R245) -/

section
variable {p : Nat} {f : LinkFrame}

theorem linkFrameReceive_dead (h : 8 ≤ p ∨ (s.wfPort p).live = false) : linkFrameReceive p f s = s :=
  if_pos (h.imp_right fun hl => by simp [hl])

theorem linkFrameTransmit_dead (h : 8 ≤ p ∨ (s.wfPort p).live = false) : linkFrameTransmit p s = s :=
  if_pos (h.imp_right fun hl => by simp [hl])

/-- The port after a good frame: credit returned, frames acknowledged, packets entered. -/
def WfPort.received (x : WfPort) (f : LinkFrame) : WfPort :=
  ((f.credits.foldl (fun (x : WfPort) c => x.returnCredit c.1 c.2) { x with rxSeq := (x.rxSeq + 1) % 2 ^ 32 }).acknowledge f.ack).enter f.packets

/-- The port after a good frame that asks for a replay, or does not. -/
def WfPort.asked (z : WfPort) (f : LinkFrame) : WfPort := if f.again then { z with replayed := 0, tries := z.tries + 1 } else z

variable (hp : p < 8) (hl : (s.wfPort p).live = true)
include hp hl

theorem linkFrameReceive_live : linkFrameReceive p f s =
    if f.uncorrectable > 0 ∨ !f.crcOk then
      ((s.bump (aWP p 0x10) f.corrected).bump (aWP p 0x18) f.uncorrectable).setWfPort p { s.wfPort p with again := true }
    else if f.seq ≠ (s.wfPort p).rxSeq then (s.bump (aWP p 0x10) f.corrected).bump (aWP p 0x18) f.uncorrectable
    else if !((s.wfPort p).enter f.packets).fits then s
    else if (((s.wfPort p).received f).asked f).tries > 4 then portDown p .replaysFailed
      (f.packets.foldl (fun s q => s.transit p q)
        (((s.bump (aWP p 0x10) f.corrected).bump (aWP p 0x18) f.uncorrectable).setWfPort p (((s.wfPort p).received f).asked f)))
    else f.packets.foldl (fun s q => s.transit p q)
      (((s.bump (aWP p 0x10) f.corrected).bump (aWP p 0x18) f.uncorrectable).setWfPort p (((s.wfPort p).received f).asked f)) :=
  if_neg (by simp [hl, hp])

/-- A sending port counts a packet that waits for credit. -/
def countWaits (s : State) (p : Nat) : State :=
  if (List.range 4).any fun v => !(NMap.get [] (s.wfPort p).out v).isEmpty && !(s.wfPort p).ready v then s.bump (aWP p 0x30) (2 + s.now / 10 % 2)
  else s

theorem linkFrameTransmit_again (hre : (s.wfPort p).replayed < (s.wfPort p).frames.length) : linkFrameTransmit p s =
    (s.setWfPort p { s.wfPort p with replayed := (s.wfPort p).replayed + 1 }).bump (aWP p 0x20) 1 :=
  (if_neg (by simp [hl, hp])).trans (if_pos hre)

theorem linkFrameTransmit_full (hre : (s.wfPort p).frames.length ≤ (s.wfPort p).replayed) (hfull : 234 ≤ (s.wfPort p).frames.length) :
    linkFrameTransmit p s = s :=
  (if_neg (by simp [hl, hp])).trans ((if_neg (Nat.not_lt.mpr hre)).trans (if_pos hfull))

variable (hre : (s.wfPort p).frames.length ≤ (s.wfPort p).replayed) (hroom : (s.wfPort p).frames.length < 234)
include hre hroom

theorem linkFrameTransmit_empty (hw : (s.wfPort p).winner s.now = none) : linkFrameTransmit p s =
    (countWaits s p).setWfPort p ((s.wfPort p).sendFrame []) := by
  refine (if_neg (by simp [hl, hp])).trans ((if_neg (Nat.not_lt.mpr hre)).trans ((if_neg (Nat.not_le.mpr hroom)).trans ?_))
  simp only [hw]
  rfl

theorem linkFrameTransmit_sends {v turn : Nat} {q : OutPkt} (hw : (s.wfPort p).winner s.now = some (v, turn))
    (hq : channelHead (NMap.get [] (s.wfPort p).out v) = some q) : linkFrameTransmit p s =
    ((if q.losses ≥ 8 then (countWaits s p).bump (aWF 0x828) 1 else countWaits s p).setWfPort p
      (WfPort.sendFrame { (s.wfPort p).spend v (units32 q.bytes) with
        out := (s.wfPort p).win v q
        turn := turn
        control := if v = 3 then ((if (s.wfPort p).control.2 / 4000 = s.now / 4000 then (s.wfPort p).control.1 else 0) + q.bytes, s.now)
          else (s.wfPort p).control } [(v, q.src, q.dst, q.bytes)])).freeIngress q.from_ v (units32 q.bytes) := by
  refine (if_neg (by simp [hl, hp])).trans ((if_neg (Nat.not_lt.mpr hre)).trans ((if_neg (Nat.not_le.mpr hroom)).trans ?_))
  simp only [hw, hq]
  rfl

end

end

/-- Settles O48. -/
theorem links : Obligations.Links := by
  refine ⟨fun s t ht hst hf hnow => congrArg Host.Outcome.next (leaseExpiry_lapses ht hst hf hnow),
    fun s h => congrArg Host.Outcome.next (leaseExpiry_stands h), fun s id c h hc => ?lease, fun s id c h he hc => ?refused,
    fun s id c hc => ?forwardTimeout, fun s id c h hc => ?partition, fun p n s h => congrArg Host.Outcome.next (portTraining_ignored h),
    fun p n s hp hr hst ht hlanes => ?narrowed, fun p n s hp hr hst => ?trained, fun p cause s hp h => congrArg Host.Outcome.next (portDown_drops hp h),
    fun p s h => ⟨fun cause hc => congrArg Host.Outcome.next (portDown_ignored h hc), fun f => congrArg Host.Outcome.next (linkFrameReceive_dead h),
      congrArg Host.Outcome.next (linkFrameTransmit_dead h)⟩,
    fun p s => ?retrain, fun p s => ?retry, fun p f s hp hl => ?receive, fun p s hp hl => ?transmit⟩
  case lease =>
    intro b stale
    have hrun : exec (.opLeaseSet id) s = .next (countLease id s (runLeaseSet b (begun s c))) :=
      congrArg (fun t => Host.Outcome.next (countLease id s t)) (runCoreless_runs h hc)
    rw [hrun]
    exact ⟨fun hf => congrArg (fun t => Host.Outcome.next (countLease id s t)) (runLeaseSet_forwards (s := b) (c := begun s c) hf),
      fun hf ho => congrArg (fun t => Host.Outcome.next (countLease id s t)) (runLeaseSet_stale (s := b) (c := begun s c) hf ho),
      fun hf ho => congrArg (fun t => Host.Outcome.next (countLease id s t)) (runLeaseSet_renews (s := b) (c := begun s c) hf ho)⟩
  case refused =>
    have hopen : c.stage ≠ .done := by rw [h.2.2.1]; simp
    have hfound : (s.setCmd { c with signals := [] }).cmd? id = some { c with signals := [] } := cmd?_setCmd h.1 (show c.id = id from cmd?_id h.1)
    have hend : runCoreless 0x4020 checkLeaseSet runLeaseSet id s = _ := runCoreless_refuses h hc
    have hrun : exec (.opLeaseSet id) s = .next (countLease id s ((s.setCmd { c with signals := [] }).finish id stKeyRejected [])) :=
      congrArg (fun t => Host.Outcome.next (countLease id s t)) hend
    exact hrun.trans (congrArg Host.Outcome.next
      (countLease_refused h.1 (finish_remote hfound hopen he) h.2.1 he hopen rfl rfl))
  case forwardTimeout =>
    intro late
    have hrun : exec (.leaseForwardTimeout id) s = .next (leaseForwardTimeout id s) := rfl
    simp only [hrun, leaseForwardTimeout, hc]
    exact ⟨fun hl => congrArg Host.Outcome.next (if_pos hl), fun hl => congrArg Host.Outcome.next (if_neg hl)⟩
  case partition =>
    intro b a
    have hcheck : checkPartitionStart s c = none := by
      unfold checkPartitionStart
      split_ifs with hd
      · rfl
      · exact hc.resolve_left hd
    have hrun : exec (.opPartitionSet id) s = .next (runPartitionSet b (begun s c)) := congrArg Host.Outcome.next (runCoreless_runs h hcheck)
    have hact : psAction (begun s c) = c.p 0 1 := rfl
    simp only [hrun, runPartitionSet, hact]
    refine ⟨fun h0 => ?_, fun h1 => ?_, fun h2 he => ?_, fun h2 he => ?_⟩
    · obtain ⟨sent, hfab, hcmds⟩ := presents (s := joined b (begun s c)) (imgPorts a)
      refine ⟨(imgPorts a).foldl (fun (s : State) p => (s.pulse (31 + p)).present p) (joined b (begun s c)), ?_, ?_⟩
      · simp only [h0]
        exact congrArg Host.Outcome.next runJoin_eq
      · simp only [State.wfPort, hfab, hcmds]
        refine ⟨rfl, rfl, rfl, rfl, rfl, rfl, rfl, rfl, rfl, rfl, rfl, rfl, fun p hp hu => ?_⟩
        rw [joined_wfPort hp hu]
    · simp only [h1]
      rfl
    · simp only [h2]
      exact congrArg Host.Outcome.next (if_pos (List.isEmpty_iff.mpr he))
    · simp only [h2]
      exact congrArg Host.Outcome.next (if_neg fun hn => he (List.isEmpty_iff.mp hn))
  case narrowed =>
    intro x y
    have hrun : exec (.portTraining p n) s = .next (portTraining p n s) := rfl
    rw [hrun, portTraining_eq hp hr (.inr ⟨hst, ht, by simp [hlanes]⟩), if_neg (by simp [ht])]
    refine ⟨fun h0 => congrArg Host.Outcome.next ?_, fun h0 => congrArg Host.Outcome.next (if_pos h0)⟩
    exact (if_neg (not_not.mpr h0)).trans (if_pos hst)
  case trained =>
    intro x cause
    have hrun : exec (.portTraining p n) s = .next (portTraining p n s) := rfl
    rw [hrun, portTraining_eq hp hr (.inl hst)]
    refine ⟨fun ht => congrArg Host.Outcome.next (if_pos (by simp [ht])), fun ht h0 => congrArg Host.Outcome.next ?_,
      fun ht h0 => congrArg Host.Outcome.next ?_⟩
    · exact (if_neg (by simp [ht])).trans (if_pos h0)
    · rw [if_neg (by simp [ht]), if_neg (not_not.mpr h0), if_neg (by omega)]
      have hcause : fencingCause s p n = 0 := h0
      rw [hcause]
  case retrain => exact ⟨fun h => congrArg Host.Outcome.next (if_pos h), fun h => congrArg Host.Outcome.next (if_neg h)⟩
  case retry => exact ⟨fun h => congrArg Host.Outcome.next (if_pos h), fun h => congrArg Host.Outcome.next (if_neg h)⟩
  case receive =>
    intro x s1 bad
    have hrun : exec (.linkFrameReceive p f) s = .next (linkFrameReceive p f s) := rfl
    have hbad : bad ↔ (f.uncorrectable > 0 ∨ (!f.crcOk) = true) := by simp [bad]
    rw [hrun, linkFrameReceive_live hp hl]
    refine ⟨fun hb => ?_, fun hb hq => ?_, fun hb hq hfit => ?_, fun hb hq hfit => ?_⟩
    · exact congrArg Host.Outcome.next (if_pos (hbad.mp hb))
    all_goals rw [if_neg fun h => hb (hbad.mpr h)]
    · exact congrArg Host.Outcome.next (if_pos hq)
    all_goals rw [if_neg (not_not.mpr hq)]
    · exact congrArg Host.Outcome.next (if_pos (by simp [hfit, x]))
    intro z
    rw [if_neg (by simp [hfit, x])]
    refine ⟨fun ha ht => ?_, fun ha ht => ?_, fun ha ht => ?_⟩
    · have hz : (x.received f).asked f = z := if_neg ((Bool.not_eq_true _).mpr ha)
      rw [hz, if_neg (by omega)]
    · have hz : (x.received f).asked f = { z with replayed := 0, tries := z.tries + 1 } := if_pos ha
      rw [hz, if_neg (Nat.not_lt.mpr ht)]
    · have hz : (x.received f).asked f = { z with replayed := 0, tries := z.tries + 1 } := if_pos ha
      rw [hz, if_pos (Nat.lt_succ_of_le ht)]
      rfl
  case transmit =>
    intro x waits s1
    have hrun : exec (.linkFrameTransmit p) s = .next (linkFrameTransmit p s) := rfl
    rw [hrun]
    exact ⟨fun hre => congrArg Host.Outcome.next (linkFrameTransmit_again hp hl hre),
      fun hre hfull => congrArg Host.Outcome.next (linkFrameTransmit_full hp hl hre hfull),
      fun hre hroom => ⟨fun hw => congrArg Host.Outcome.next (linkFrameTransmit_empty hp hl hre hroom hw),
        fun v turn q hw hq => congrArg Host.Outcome.next (linkFrameTransmit_sends hp hl hre hroom hw hq)⟩⟩

end Sys2Proof.Machine
end

section
/-! ### Remote signals and barriers (10, 20) -/
namespace Sys2Proof.Machine

section
variable {s : State}

/-! #### Receive signals (R265, R267, R272) -/

section
variable {p : FabPkt} {token after : Nat}

theorem receiveSignal_unjoined (h : ¬(s.variant.fabric = true ∧ s.fabric.st ≠ 0)) : receiveSignal p token after s = s :=
  if_pos (by simpa [or_iff_not_imp_left] using h)

variable (hj : s.variant.fabric = true ∧ s.fabric.st ≠ 0)
include hj

theorem receiveSignal_outsider (hm : ¬NMap.get false s.fabric.members p.src = true) : receiveSignal p token after s =
    (s.freeIngress p.port 3 (ceilDiv (pktBytes p) 32)).bump (aWF 0x810) 1 :=
  (if_neg (by simp [hj.1, hj.2])).trans (if_pos (by simpa using hm))

variable (hm : NMap.get false s.fabric.members p.src = true)
include hm

theorem receiveSignal_fenced (hst : s.fabric.st = 3) : receiveSignal p token after s =
    (s.freeIngress p.port 3 (ceilDiv (pktBytes p) 32)).answer p .fenced [] false :=
  (if_neg (by simp [hj.1, hj.2])).trans ((if_neg (by simp [hm])).trans (if_pos hst))

variable (hst : s.fabric.st ≠ 3)
include hst

theorem receiveSignal_waits (hd : s.signalDue p after = false) : receiveSignal p token after s = s :=
  (if_neg (by simp [hj.1, hj.2])).trans ((if_neg (by simp [hm])).trans ((if_neg hst).trans (if_pos (by simp [hd]))))

variable (hd : s.signalDue p after = true)
include hd

theorem receiveSignal_nowhere (hr : s.regionFor p 0 = none) : receiveSignal p token after s =
    (s.freeIngress p.port 3 (ceilDiv (pktBytes p) 32)).rejectKey p := by
  refine (if_neg (by simp [hj.1, hj.2])).trans ((if_neg (by simp [hm])).trans ((if_neg hst).trans ((if_neg (by simp [hd])).trans ?_)))
  simp only [hr]

/-- A signal that is due at a region which takes its key. -/
theorem receiveSignal_region {n : Nat} {e : Export} (hr : s.regionFor p 0 = some (n, e)) : receiveSignal p token after s =
    if !e.complete ∨ e.revoking.isSome then (s.freeIngress p.port 3 (ceilDiv (pktBytes p) 32)).rejectKey p
    else if !e.remoteCmd then
      ((s.freeIngress p.port 3 (ceilDiv (pktBytes p) 32)).rejectKey p).remoteFail e.tenant e.ctx 0x3001 (stKeyRejected, [])
    else match s.contextCheck 0x3001 e.tenant e.ctx with
      | some f => (s.freeIngress p.port 3 (ceilDiv (pktBytes p) 32)).remoteFail e.tenant e.ctx 0x3001 f
      | none =>
        if rxMagic s e then
          match (receiveArrival (s.freeIngress p.port 3 (ceilDiv (pktBytes p) 32)) n e token).2 with
          | none => (receiveArrival (s.freeIngress p.port 3 (ceilDiv (pktBytes p) 32)) n e token).1.recordSignal e p.src p.offset token
          | some f => (receiveArrival (s.freeIngress p.port 3 (ceilDiv (pktBytes p) 32)) n e token).1.remoteFail e.tenant e.ctx 0x3001 f
        else (s.freeIngress p.port 3 (ceilDiv (pktBytes p) 32)).signalToken e.tenant token 1 := by
  refine (if_neg (by simp [hj.1, hj.2])).trans ((if_neg (by simp [hm])).trans ((if_neg hst).trans ((if_neg (by simp [hd])).trans ?_)))
  simp only [hr]
  generalize receiveArrival (s.freeIngress p.port 3 (ceilDiv (pktBytes p) 32)) n e token = r
  obtain ⟨s1, f⟩ := r
  cases f <;> rfl

end

/-! #### Barriers (R419–R422) -/

section
variable {b id : Nat} {c : Cmd}

theorem barrierFire_unreleased (h : (s.barrier b).release = none ∨ (s.barrier b).armed = none) : barrierFire b s = s := by
  unfold barrierFire
  rcases h with h | h
  · simp only [h]
  · cases hr : (s.barrier b).release <;> simp only [h, hr, Option.bind_none]

theorem barrierFire_released {left : Int} {at_ : Nat} (hr : (s.barrier b).release = some (left, at_)) (ha : (s.barrier b).armed = some id)
    (hc : s.cmd? id = some c) : barrierFire b s =
    if (s.now : Int) ≥ at_ + max left 0 then (s.barrier b).heldCores.foldl (fun s h => s.startHeld h)
      ((((s.setBarrier b (s.barrier b).disarmed).setCmd { c with signals := [] }).ok c.id (leBytes 1 (b2n (left < 0)))).giveSignals c)
    else s := by
  simp only [barrierFire, hr, ha, Option.bind_some, hc]

/-- A barrier's release has run out by a moment. -/
def Barrier.firesBy (x : Barrier) (t : Nat) : Bool := (x.release.map fun r => decide ((r.2 : Int) + max r.1 0 ≤ t)).getD false

theorem barrierTimeout_found (hc : s.cmd? id = some c) : barrierTimeout id s =
    if c.opcode = 0x3004 ∧ c.stage = .waiting ∧ c.p 8 4 ≠ 0 ∧ s.now ≥ c.since + usec (c.p 8 4) ∧
        !(s.barrier (c.p 0 1)).firesBy (c.since + usec (c.p 8 4)) then
      (((s.setBarrier (c.p 0 1) (s.barrier (c.p 0 1)).disarmed).setCmd { c with signals := [] }).finish id stWaitTimeout []).letGo
        (s.barrier (c.p 0 1)).heldCores
    else s := by
  simp only [barrierTimeout, hc]
  rfl

end

end

/-- Settles O49. -/
theorem signalsAndBarriers : Obligations.SignalsAndBarriers := by
  refine ⟨fun p token after s => ?signal, fun p after s => rfl, fun s id c h hc => congrArg Host.Outcome.next (runCoreless_runs h hc),
    fun b p s => ?arm, fun b p left held s => ?release, fun b s h => congrArg Host.Outcome.next (barrierFire_unreleased h),
    fun b s left at_ id c hr ha hc => ?fire, fun s id c hc => ?timeout⟩
  case signal =>
    intro joined member i t
    have hrun : exec i s = .next (receiveSignal p token after s) := rfl
    rw [hrun]
    refine ⟨fun hj => congrArg Host.Outcome.next (receiveSignal_unjoined hj), fun hj hm => congrArg Host.Outcome.next (receiveSignal_outsider hj hm),
      fun hj hm hst => congrArg Host.Outcome.next (receiveSignal_fenced hj hm hst),
      fun hj hm hst hd => congrArg Host.Outcome.next (receiveSignal_waits hj hm hst hd), fun hj hm hst hd => ?_⟩
    refine ⟨fun hr => congrArg Host.Outcome.next (receiveSignal_nowhere hj hm hst hd hr), fun n e hr hbad => ?_, fun n e hr hc hv => ?_⟩
    all_goals rw [receiveSignal_region hj hm hst hd hr]
    · exact congrArg Host.Outcome.next (if_pos (by simpa using hbad))
    rw [if_neg (by simp [hc, hv])]
    refine ⟨fun hrc => congrArg Host.Outcome.next (if_pos (by simp [hrc])), fun f hrc hf => ?_, fun hrc hf => ⟨fun hmg => ?_, fun hmg f ha => ?_, fun hmg ha => ?_⟩⟩
    all_goals refine congrArg Host.Outcome.next ((if_neg (by simp [hrc])).trans ?_)
    · simp only [hf, t]
    all_goals simp only [hf]
    · exact if_neg ((Bool.not_eq_true _).mpr hmg)
    all_goals refine (if_pos hmg).trans ?_
    · have hfail : (receiveArrival (s.freeIngress p.port 3 (ceilDiv (pktBytes p) 32)) n e token).2 = some f := ha
      simp only [hfail, t]
    · have hcounted : (receiveArrival (s.freeIngress p.port 3 (ceilDiv (pktBytes p) 32)) n e token).2 = none := ha
      simp only [hcounted, t]
  case arm =>
    intro heard x
    exact ⟨fun hh => congrArg Host.Outcome.next (if_pos (by simpa [heard] using hh)), fun hh => congrArg Host.Outcome.next (if_neg (by simpa [heard] using hh))⟩
  case release =>
    intro heard x l
    exact ⟨fun hh => congrArg Host.Outcome.next (if_pos (by simpa [heard] using hh)), fun hh => congrArg Host.Outcome.next (if_neg (by simpa [heard] using hh))⟩
  case fire =>
    intro late
    have hrun : exec (.barrierFire b) s = .next (barrierFire b s) := rfl
    have hlate : b2n (decide (left < 0)) = late := by simp only [b2n, late, decide_eq_true_eq]
    rw [hrun, barrierFire_released hr ha hc, hlate]
    exact ⟨fun hn => congrArg Host.Outcome.next (if_pos hn), fun hn => congrArg Host.Outcome.next (if_neg (Int.not_le.mpr hn))⟩
  case timeout =>
    intro b x stop late
    have hrun : exec (.barrierTimeout id) s = .next (barrierTimeout id s) := rfl
    rw [hrun, barrierTimeout_found hc]
    refine ⟨fun ⟨hop, hw, hp, hn⟩ hr => congrArg Host.Outcome.next (if_pos ⟨hop, hw, hp, hn, ?_⟩),
      fun ⟨hop, hw, hp, hn⟩ l a hr hl => congrArg Host.Outcome.next (if_pos ⟨hop, hw, hp, hn, ?_⟩),
      fun l a hr hl => congrArg Host.Outcome.next (if_neg ?_), fun hl => congrArg Host.Outcome.next (if_neg fun ⟨hop, hw, hp, hn, _⟩ => hl ⟨hop, hw, hp, hn⟩)⟩
    · have hx : (s.barrier (c.p 0 1)).release = none := hr
      simp only [Barrier.firesBy, hx, Option.map_none, Option.getD_none, Bool.not_false]
    · have hx : (s.barrier (c.p 0 1)).release = some (l, a) := hr
      simpa only [Barrier.firesBy, hx, Option.map_some, Option.getD_some, Bool.not_eq_true', decide_eq_false_iff_not, Int.not_le] using hl
    · rintro ⟨-, -, -, -, hf⟩
      have hx : (s.barrier (c.p 0 1)).release = some (l, a) := hr
      simp only [Barrier.firesBy, hx, Option.map_some, Option.getD_some, Bool.not_eq_true', decide_eq_false_iff_not] at hf
      exact hf hl

end Sys2Proof.Machine
end

section
/-! ### The Dispatchers (09) -/
namespace Sys2Proof.Machine

section
variable {s : State} {c : Cmd} {id k : Nat}

/-! #### Grants (R179, R180, R185) -/

theorem commandGrant_first (hc : s.cmd? id = some c)
    (h : s.mayGrant c = true ∧ ∀ d ∈ s.cmds, d.tenant = c.tenant → d.id < id → s.mayGrant d = false) : commandGrant id s = s.grant c := by
  simp only [commandGrant, hc]
  exact if_pos ⟨h.1, by simpa using h.2⟩

theorem commandGrant_behind (hc : s.cmd? id = some c)
    (h : ¬(s.mayGrant c = true ∧ ∀ d ∈ s.cmds, d.tenant = c.tenant → d.id < id → s.mayGrant d = false)) : commandGrant id s = s := by
  simp only [commandGrant, hc]
  exact if_neg (by simpa using h)

theorem grant_core (hop : coreOp c.opcode = true) (he : ∃ k, k < 64 ∧ s.eligible c k = true) : s.grant c =
    ((s.takeTokens c).setCmd { c with stage := .granted, since := s.now }).bump (aDP (s.grantDie c) 0x010) 1 := by
  refine (if_neg (by simpa [hop] using he)).trans ?_
  simp only [hop, if_true]

theorem grant_noCore (hop : coreOp c.opcode = true) (he : ∀ k, k < 64 → s.eligible c k = false) : s.grant c = s.noCore c :=
  if_pos (by simpa [hop] using he)

theorem grant_coreless (hop : coreOp c.opcode = false) : s.grant c =
    (((s.takeTokens c).setCmd { c with stage := .granted, since := s.now, queue := some 0 }).setCq 0 ((s.takeTokens c).cq 0 + 1)).bump
      (aDP (s.grantDie c) 0x010) 1 := by
  refine (if_neg (by simp [hop])).trans ?_
  simp only [hop, Bool.false_eq_true, if_false]

/-! #### Starts (R186, R187, R190, R191) -/

theorem commandStart_radio {r : RadioCmd} (hr : s.nextRadio k = some r) : commandStart k s = s.startRadio k r := by
  simp only [commandStart, hr]

theorem commandStart_occupied (hr : s.nextRadio k = none) (h : (s.core k).running.isSome = true ∨ s.heldCore k = true) : commandStart k s = s := by
  simp only [commandStart, hr]
  exact if_pos (by simpa using h)

/-- A core nothing runs on and nothing is held at. -/
theorem commandStart_free (hr : s.nextRadio k = none) (hi : (s.core k).running = none) (hh : s.heldCore k = false) : commandStart k s =
    match s.placedOn k with
    | some c => s.settleOn k c
    | none =>
      if !s.coreIdle k then s
      else match s.choices k with
        | [] => s
        | c :: cs =>
          if s.entering k c ≠ .full then s.place k c
          else match (c :: cs).find? (s.core k).hosts with
            | some d => s.place k d
            | none => s := by
  simp only [commandStart, hr]
  exact if_neg (by simp [hi, hh])

theorem settleOn_unseats (he : s.eligible c k = false) : s.settleOn k c = s.unseat c := if_pos (by simp [he])

theorem settleOn_waits (he : s.eligible c k = true)
    (h : s.stalled c.tenant = true ∨ s.heldBack c = true ∨ s.entering k c = .wait ∨ s.entering k c = .full) : s.settleOn k c = s := by
  unfold State.settleOn
  rw [if_neg (by simp [he])]
  split_ifs with hb
  · rfl
  · rcases h with h | h | h | h
    · simp [h] at hb
    · simp [h] at hb
    all_goals simp only [h]

/-- A placed command that nothing holds back. -/
theorem settleOn_goesOn (he : s.eligible c k = true) (hs : s.stalled c.tenant = false) (hb : s.heldBack c = false) :
    s.settleOn k c = match s.entering k c with
    | .ready => s.startOn k c
    | .wait | .full => s
    | .fill => s.bringIn k c.tenant c.ctx
    | .spill v =>
      (State.setCore { s with free := s.free + 1 } k { s.core k with
        residents := (s.core k).residents.filter (!·.is v.tenant v.ctx)
        spilling := some (some { v with bytes := s.draw.1.toNat % (s.scratch k + 1) },
          some { tenant := c.tenant, ctx := c.ctx, bytes := 0, guarded := true, lastUse := s.now }) }).bump (aDP (dieOf k) 0x018) 1 := by
  unfold State.settleOn
  rw [if_neg (by simp [he]), if_neg (by simp [hs, hb])]
  cases s.entering k c <;> rfl

theorem startOn_fails {f : Fail} (hf : (s.contextAtStart c <|> coreOpCheck s c) = some f) :
    s.startOn k c = (s.setCmd { s.atStart k c with signals := [] }).finish c.id f.1 f.2 := by
  simp only [State.startOn, hf]

theorem startOn_starts (hf : (s.contextAtStart c <|> coreOpCheck s c) = none) : s.startOn k c =
    ((s.setCmd { s.atStart k c with stage := .started }).setCore k ((s.core k).runs c s.now)).stage c (operandRefs c) := by
  simp only [State.startOn, hf]

/-- A core after its spill: the victim's region lies in L2. -/
def spilled (s : State) (k : Nat) (v : Option Resident) : State :=
  match v with
  | some r => State.bump { s.setCore k { s.core k with spilling := none } with
      spilled := s.spilled.filter (fun (e : Nat × Resident) => !(e.1 = dieOf k && e.2.is r.tenant r.ctx)) ++ [(dieOf k, r)] }
      (aDP (dieOf k) 0x020) r.bytes
  | none => s.setCore k { s.core k with spilling := none }

theorem spillEnd_spilling {v n : Option Resident} (h : (s.core k).spilling = some (v, n)) : spillEnd k s =
    match n with
    | some r => if (s.core k).residents.length < 4 ∧ (s.core k).filling.isNone then (spilled s k v).bringIn k r.tenant r.ctx else spilled s k v
    | none => spilled s k v := by
  simp only [spillEnd, h]
  cases v <;> cases n <;> rfl

/-! #### Completions and limits (R35, R61, R86, R188, R196) -/

/-- A radio command whose time on a core of the die is over. -/
def radioEnded (s : State) (die : Nat) (r : RadioCmd) : Bool := (r.run.map fun x => decide (dieOf x.1 = die ∧ s.now ≥ x.2 + r.time)).getD false

theorem completionPost_eq (die : Nat) : completionPost die s = match s.radioCmds.find? (radioEnded s die) with
    | some r => s.postRadio die r ((r.run.map Prod.fst).getD 0)
    | none => match s.nextPost die with
      | some c => s.postCmd c
      | none => s := rfl

/-- A test of what is found holds where it is found and meets the test. -/
theorem getD_map_decide {α : Type} {o : Option α} {P : α → Prop} [DecidablePred P] :
    (o.map fun a => decide (P a)).getD false = true ↔ ∃ a, o = some a ∧ P a := by
  cases o <;> simp

theorem contextWatchdog_found (hc : s.cmd? id = some c) : contextWatchdog id s =
    if (c.stage = .started || c.stage = .waiting) ∧ scopeC c.opcode ∧ c.entry ≠ .mgmt ∧ !unwatched c.opcode ∧
        ((s.watchedSince c).map fun t => decide (16 * s.now ≥ 16 * (t + msec (s.tenant c.tenant).watchdog) + c.slowed)).getD false then
      (s.addLog { cmdLog 6 5 c with status := stOverrun }).failRunning c (stOverrun, [2])
    else s := by
  simp only [contextWatchdog, hc]

end

/-- Settles O50. -/
theorem dispatchers : Obligations.Dispatchers := by
  refine ⟨fun s id c hc => ?grant, fun s id hc => ?absent, fun k s r hr => congrArg Host.Outcome.next (commandStart_radio hr),
    fun k s hr h => congrArg Host.Outcome.next (commandStart_occupied hr h), fun k s hr hi hh => ?free, fun k s c => ?settle,
    fun k s h => ?noSpill, fun k s v n h => ?spill, fun k s h => ?noFill, fun k s r h => ?fill, fun die s r h => ?radioPost,
    fun die s c h hn => ?cmdPost, fun die s h hn => ?noPost, fun s c => ?posting, fun k s c h => ?guard, fun k s h => ?noGuard,
    fun s id c hc => ?watchdog, fun cell ns d s x hv hx hst => ?issue, fun cell ns d s h => ?noIssue,
    fun s id c h hc => congrArg Host.Outcome.next (runCoreless_runs h hc)⟩
  case grant =>
    intro first
    have hrun : exec (.commandGrant id) s = .next (commandGrant id s) := rfl
    rw [hrun]
    exact ⟨fun hf hop he => congrArg Host.Outcome.next ((commandGrant_first hc hf).trans (grant_core hop he)),
      fun hf hop he => congrArg Host.Outcome.next ((commandGrant_first hc hf).trans (grant_noCore hop he)),
      fun hf hop => congrArg Host.Outcome.next ((commandGrant_first hc hf).trans (grant_coreless hop)),
      fun hf => congrArg Host.Outcome.next (commandGrant_behind hc hf)⟩
  case absent =>
    have hgrant : exec (.commandGrant id) s = .next (commandGrant id s) := rfl
    have hwatch : exec (.contextWatchdog id) s = .next (contextWatchdog id s) := rfl
    rw [hgrant, hwatch]
    simp only [commandGrant, contextWatchdog, hc, and_self]
  case free =>
    have hrun : exec (.commandStart k) s = .next (commandStart k s) := rfl
    rw [hrun, commandStart_free hr hi hh]
    refine ⟨fun c hp => ?_, fun hp hn => ?_, fun c cs hidle hch => ⟨fun hne => ?_, fun d hfull hd => ?_, fun hfull hd => ?_⟩⟩
    · simp only [hp]
    · rcases hn with hn | hn
      · simp only [hp, hn, Bool.not_false, if_true]
      · simp only [hp, hn, ite_self]
    all_goals
      have hp : s.placedOn k = none := by
        simp only [State.coreIdle, Bool.and_eq_true, Option.isNone_iff_eq_none] at hidle
        exact hidle.1.1.2
      simp only [hp, hidle, hch, Bool.not_true, Bool.false_eq_true, if_false]
    · rw [if_pos hne]
    · rw [if_neg (not_not.mpr hfull), hd]
    · rw [if_neg (not_not.mpr hfull), hd]
  case settle =>
    refine ⟨rfl, settleOn_unseats, settleOn_waits, fun he hs hb => ?_⟩
    rw [settleOn_goesOn he hs hb]
    refine ⟨fun hv => ?_, fun hv f hf => ?_, fun hv hf => ?_, fun v hv => ⟨s.draw.1.toNat % (s.scratch k + 1), ?_, ?_⟩⟩
    · rw [hv]
    · rw [hv]
      exact startOn_fails hf
    · rw [hv]
      exact startOn_starts hf
    · exact Nat.le_of_lt_succ (Nat.mod_lt _ (Nat.succ_pos _))
    · rw [hv]
  case noSpill =>
    have hrun : exec (.spillEnd k) s = .next (spillEnd k s) := rfl
    rw [hrun, spillEnd, h]
  case spill =>
    intro x die s1 s2
    have hrun : exec (.spillEnd k) s = .next (spillEnd k s) := rfl
    have hs2 : spilled s k v = s2 := by cases v <;> rfl
    rw [hrun, spillEnd_spilling h, hs2]
    refine ⟨fun hn => ?_, fun r hr hroom hfill => ?_⟩
    · cases n with
      | none => rfl
      | some r =>
        refine congrArg Host.Outcome.next (if_neg ?_)
        rcases hn with hn | hn | hn
        · simp at hn
        · exact fun hroom => absurd hn (Nat.not_le.mpr hroom.1)
        · exact fun hroom => by simp [Option.isNone_iff_eq_none.mp hroom.2, x] at hn
    · subst hr
      exact congrArg Host.Outcome.next (if_pos ⟨hroom, Option.isNone_iff_eq_none.mpr hfill⟩)
  case noFill =>
    have hrun : exec (.fillEnd k) s = .next (fillEnd k s) := rfl
    rw [hrun, fillEnd, h]
  case fill =>
    have hrun : exec (.fillEnd k) s = .next (fillEnd k s) := rfl
    rw [hrun, fillEnd, h]
  case radioPost =>
    have hrun : exec (.completionPost die) s = .next (completionPost die s) := rfl
    have hradio : s.radioCmds.find? (radioEnded s die) = some r := h
    rw [hrun, completionPost_eq, hradio]
  case cmdPost =>
    have hrun : exec (.completionPost die) s = .next (completionPost die s) := rfl
    have hradio : s.radioCmds.find? (radioEnded s die) = none := h
    rw [hrun, completionPost_eq, hradio, hn]
  case noPost =>
    have hrun : exec (.completionPost die) s = .next (completionPost die s) := rfl
    have hradio : s.radioCmds.find? (radioEnded s die) = none := h
    rw [hrun, completionPost_eq, hradio, hn]
  case posting =>
    intro s1
    exact ⟨fun hw => if_pos hw, fun hw => if_neg ((Bool.not_eq_true _).mpr hw)⟩
  case guard =>
    intro over_
    have hrun : exec (.slotGuardLimit k) s = .next (slotGuardLimit k s) := rfl
    simp only [hrun, slotGuardLimit, h]
    exact ⟨fun ho => congrArg Host.Outcome.next (if_pos ho), fun ho => congrArg Host.Outcome.next (if_neg ho)⟩
  case noGuard =>
    have hrun : exec (.slotGuardLimit k) s = .next (slotGuardLimit k s) := rfl
    simp only [hrun, slotGuardLimit, h]
  case watchdog =>
    intro due watched
    have hrun : exec (.contextWatchdog id) s = .next (contextWatchdog id s) := rfl
    rw [hrun, contextWatchdog_found hc]
    refine ⟨fun t ⟨hst, hsc, hen, hun⟩ ht hd => congrArg Host.Outcome.next (if_pos ?_), fun t ht hd => congrArg Host.Outcome.next (if_neg ?_),
      fun ht => congrArg Host.Outcome.next (if_neg ?_), fun hw => congrArg Host.Outcome.next (if_neg ?_)⟩
    · exact ⟨by simpa using hst, hsc, hen, by simp [hun], getD_map_decide.mpr ⟨t, ht, hd⟩⟩
    · rintro ⟨-, -, -, -, hl⟩
      obtain ⟨t', ht', hd'⟩ := getD_map_decide.mp hl
      cases ht.symm.trans ht'
      exact hd hd'
    · rintro ⟨-, -, -, -, hl⟩
      obtain ⟨t, ht', -⟩ := getD_map_decide.mp hl
      cases ht.symm.trans ht'
    · rintro ⟨hst, hsc, hen, hun, -⟩
      exact hw ⟨by simpa using hst, hsc, hen, by simpa using hun⟩
  case issue => exact congrArg Host.Outcome.next (if_pos ⟨hv, by simp [hx, hst]⟩)
  case noIssue =>
    refine congrArg Host.Outcome.next (if_neg ?_)
    rintro ⟨hv, hst⟩
    rcases h with h | h | ⟨x, hx, hns⟩
    · simp [h] at hv
    · simp [h] at hst
    · simp [hx, hns] at hst

end Sys2Proof.Machine
end

section
/-! ### Recording and replay (19, 20) -/
namespace Sys2Proof.Machine

section
variable {s : State} {c : Cmd} {id : Nat}

/-! #### Rings (R411–R418) -/

theorem record_off {t n kind : Nat} {payload : List Byte} {poison : Bool} (h : (s.ctx t n).recording = none) :
    s.record t n kind payload poison = s := by
  simp only [State.record, h]

theorem runRecordStop_recording {r : Recording} (h : (s.ctx c.tenant c.ctx).recording = some r) : runRecordStop s c =
    ((s.putHeader c.tenant c.ctx r 1).setRecording c.tenant c.ctx none).ok c.id (leBytes 8 r.entries) := by
  simp only [runRecordStop, State.stopRecording, h, Option.map_some, Option.getD_some]

theorem checkRecordStop_recording {r : Recording} (h : (s.ctx c.tenant c.ctx).recording = some r) : checkRecordStop s c = none := by
  simp [checkRecordStop, h, need, firstFail]

theorem checkRecordStop_idle (h : (s.ctx c.tenant c.ctx).recording = none) : checkRecordStop s c = some (stNoResources, [0x51]) := by
  rw [checkRecordStop, h]
  rfl

theorem checkReplayStart_malformed {f : Fail} (h : ringHead s c = .error f) (hf : f.1 = stShape) : checkReplayStart s c = some f := by
  simp only [checkReplayStart, h, if_pos hf]

theorem runReplayStart_feeds {h : List Byte} (hh : ringHead s c = .ok h) : runReplayStart s c =
    (s.setCtx c.tenant c.ctx { s.ctx c.tenant c.ctx with
      step := BitVec.ofNat 64 (fieldAt h 24 8), seed := BitVec.ofNat 64 (fieldAt h 32 8), last := none
      replaying := some { ring := c.p 0 8, sendRemote := (c.p 8 1).testBit 0, id := c.id, next := 64, fed := 0, total := fieldAt h 8 8 } }).await
      c.id := by
  simp only [runReplayStart, hh]

theorem runReplayStart_unreadable {f : Fail} (hh : ringHead s c = .error f) (hf : f.1 ≠ stShape) : runReplayStart s c = s.fail c.id f.1 f.2 := by
  simp only [runReplayStart, hh, if_neg hf]

/-! #### Disagreements (R393, R394) -/

section
variable {o : ReplayObs} {k : Nat}

theorem replay_absent (hc : s.cmd? id = none) : replay id o s = s := by simp only [replay, hc]

theorem replay_coreless (hc : s.cmd? id = some c) (hk : c.core = none) : replay id o s = s := by simp only [replay, hc, hk]

variable (hc : s.cmd? id = some c) (hk : c.core = some k)
include hc hk

theorem replay_closed (ho : ¬(coreOp c.opcode = true ∧ c.stage = .done ∧ c.signalled = false)) : replay id o s = s := by
  simp only [replay, hc, hk]
  refine if_pos ?_
  rw [Bool.not_eq_true', ← Bool.not_eq_true]
  simpa [and_assoc] using ho

theorem replay_ended (ho : coreOp c.opcode = true ∧ c.stage = .done ∧ c.signalled = false) {k0 kind : Nat} (hr : c.replay = some (k0, kind)) :
    replay id o s = s.settleReplay c k0 k kind o := by
  simp only [replay, hc, hk]
  refine (if_neg (by simp [ho])).trans ?_
  simp only [hr]

/-- A command that has not been replayed. -/
theorem replay_disputed (ho : coreOp c.opcode = true ∧ c.stage = .done ∧ c.signalled = false) (hr : c.replay = none) : replay id o s =
    if c.status ≠ stOK then s
    else if ((List.range 64).filter fun j => j ≠ k && s.eligible c j).isEmpty || readsWrites c || !c.checked then s.unresolved c k 0xFF c.disputed
    else match ((List.range 64).filter fun j => j ≠ k && s.eligible c j).find? s.coreIdle with
      | none => s
      | some j => s.startReplay c k j := by
  simp only [replay, hc, hk]
  refine (if_neg (by simp [ho])).trans ?_
  simp only [hr] <;> rfl

end

end

/-- Settles O51. -/
theorem recordingAndReplay : Obligations.RecordingAndReplay := by
  refine ⟨fun s id c h hc => congrArg Host.Outcome.next (runCoreless_runs h hc), fun s id c r h hr => ?stop, fun s id c h hr => ?notRecording,
    fun s id c h hc => congrArg Host.Outcome.next (runCoreless_runs h hc), fun s id c h hc hset => ?start, fun s id c f h hh hf => ?malformed,
    fun s t c kind payload poison h => record_off h, fun s id o hc => congrArg Host.Outcome.next (replay_absent hc),
    fun s id c o hc hk => congrArg Host.Outcome.next (replay_coreless hc hk), fun s id c k o hc hk => ?replay, fun s c k j => rfl, fun s k => ?suspect⟩
  case stop =>
    exact congrArg Host.Outcome.next ((runCoreless_runs h (checkRecordStop_recording hr)).trans (runRecordStop_recording hr))
  case notRecording =>
    have hrun : runCoreless 0x9002 checkRecordStop runRecordStop id s = _ := runCoreless_refuses h (checkRecordStop_idle hr)
    exact congrArg Host.Outcome.next hrun
  case start =>
    have hrun : exec (.opReplayStart id) s = .next (runReplayStart (Begun s c) (begun s c)) :=
      congrArg Host.Outcome.next ((runCoreless_runs h hc).trans (reading_settled hset))
    rw [hrun]
    exact ⟨fun hd hh => congrArg Host.Outcome.next (runReplayStart_feeds hh), fun f hh hf => congrArg Host.Outcome.next (runReplayStart_unreadable hh hf)⟩
  case malformed =>
    have hrun : runCoreless 0x9003 checkReplayStart (reading runReplayStart) id s = _ := runCoreless_refuses h (checkReplayStart_malformed hh hf)
    exact congrArg Host.Outcome.next hrun
  case replay =>
    intro open_ others
    have hrun : exec (.replay id o) s = .next (replay id o s) := rfl
    rw [hrun]
    refine ⟨fun ho => congrArg Host.Outcome.next (replay_closed hc hk ho), fun ho k0 kind hr => ?_, fun ho hr hst => ?_, fun ho hr hst hno => ?_,
      fun ho hr hst hne hrw hck => ?_⟩
    · intro passed first second
      have hfirst : first ↔ (c.status = stOK ∧ c.disputed = 0 ∧ o.passes = true) ∧ (kind = 5 ∨ (kind ≠ 6 ∧ o.same = true)) := Iff.rfl
      have hsecond : second ↔ (c.status = stOK ∧ c.disputed = 0 ∧ o.passes = true) ∧ (kind = 6 ∨ ((!o.same) = true ∧ o.agrees = true)) := by
        simp [second, passed]
      rw [replay_ended hc hk ho hr]
      exact ⟨fun h1 => congrArg Host.Outcome.next (if_pos (hfirst.mp h1)),
        fun h1 h2 => congrArg Host.Outcome.next ((if_neg fun h => h1 (hfirst.mpr h)).trans (if_pos (hsecond.mp h2))),
        fun h1 h2 => congrArg Host.Outcome.next ((if_neg fun h => h1 (hfirst.mpr h)).trans (if_neg fun h => h2 (hsecond.mpr h)))⟩
    all_goals rw [replay_disputed hc hk ho hr]
    · exact congrArg Host.Outcome.next (if_pos hst)
    all_goals rw [if_neg (not_not.mpr hst)]
    · refine congrArg Host.Outcome.next (if_pos ?_)
      rcases hno with hno | hno | hno
      · have hempty : ((List.range 64).filter fun j => j ≠ k && s.eligible c j) = [] := hno
        simp only [hempty, List.isEmpty_nil, Bool.true_or]
      · simp [hno]
      · simp [hno]
    · have hfull : ((List.range 64).filter fun j => j ≠ k && s.eligible c j).isEmpty = false := by
        rw [← Bool.not_eq_true, List.isEmpty_iff]
        exact hne
      rw [if_neg (by simp only [hfull, hrw, hck]; decide)]
      refine ⟨fun hj => ?_, fun j hj => ?_⟩
      all_goals
        simp only [others] at hj
        rw [hj]
  case suspect => exact ⟨fun h => if_pos h, fun h => if_neg ((Bool.not_eq_true _).mpr h)⟩

end Sys2Proof.Machine
end

section
/-! ### Cells and their messages (13) -/
namespace Sys2Proof.Machine

section
variable {s : State} {c : Cmd} {n : Nat} {x : Cell}

/-! #### Admission, start and stop (R280, R284, R287) -/

theorem runCellConfig_admits (h : c.p 1 1 = 0) : runCellConfig s c = (s.setCell (c.p 0 1) (some (Cell.init c.params))).ok c.id
    (leBytes 2 (cluCost c.params) ++ leBytes 2 (s.setCell (c.p 0 1) (some (Cell.init c.params))).admittedTotal
      ++ leBytes 2 (s.setCell (c.p 0 1) (some (Cell.init c.params))).effectiveCapacity) := by
  simp only [runCellConfig, h, if_true]

theorem runCellConfig_releases (h : c.p 1 1 ≠ 0) (hx : s.cell (c.p 0 1) = some x) : runCellConfig s c = (s.setCell (c.p 0 1) none).ok c.id
    (leBytes 2 x.cost ++ leBytes 2 (s.setCell (c.p 0 1) none).admittedTotal ++ leBytes 2 (s.setCell (c.p 0 1) none).effectiveCapacity) := by
  simp only [runCellConfig, if_neg h, hx, Option.map_some, Option.getD_some]

theorem startCell_running {id : Nat} {holdover : Bool} (hx : s.cell n = some x) (hr : x.st = .running) : s.startCell n id holdover = s.ok id [1] := by
  simp only [State.startCell, hx, if_pos hr]

/-- The boundary a start waits for, with the starts that wait for it. -/
def Cell.queued (x : Cell) (id at_ : Nat) : List Nat × Nat := (x.starting.map fun w => (w.1 ++ [id], w.2)).getD ([id], at_)

/-- A cell whose start waits, its manual gains sent where it is the first. -/
def startWaiting (s : State) (n id : Nat) (x : Cell) (at_ : Nat) : State :=
  let s0 := s.setCell n (some { x with starting := some (x.queued id at_) })
  (if x.starting.isNone then s0.sendManual n ((x.head.map (·.manual)).getD []) else s0).await id

theorem startCell_waits {id : Nat} {holdover : Bool} (hx : s.cell n = some x) (hr : x.st ≠ .running) {at_ : Nat}
    (ha : at_ = if x.st = .configured then roundUp (s.sx.time + msec 20) (msec 10) else (s.sx.time / x.slotTime + 1) * x.slotTime) :
    s.startCell n id holdover = if holdover then (startWaiting s n id x at_).holdoverStart else startWaiting s n id x at_ := by
  simp only [State.startCell, hx, if_neg hr, ← ha]
  cases hst : x.starting with
  | none => simp only [startWaiting, Cell.queued, hst, Option.map_none, Option.getD_none]
  | some w => simp only [startWaiting, Cell.queued, hst, Option.map_some, Option.getD_some]

theorem stopRequest_idle {id : Nat} (hx : s.cell n = some x) (h : x.st = .admitted ∨ x.st = .configured) : s.stopRequest n id = s.ok id [1] := by
  rcases h with h | h <;> simp only [State.stopRequest, hx, h]

theorem stopRequest_running {id : Nat} (hx : s.cell n = some x) (h : x.st = .running) : s.stopRequest n id =
    (s.setCell n (some { x with stopping := x.stopping ++ [id] })).await id := by
  simp only [State.stopRequest, hx, h]

theorem stopRequest_muted {id : Nat} (hx : s.cell n = some x) (h : x.st = .holdover ∨ x.st = .muted) : s.stopRequest n id =
    s.stopCell n { x with stopping := x.stopping ++ [id] } := by
  rcases h with h | h <;> simp only [State.stopRequest, hx, h]

theorem checkCellStop_found (hx : s.cell (c.p 0 1) = some x) : checkCellStop s c = none := by
  rw [checkCellStop, hx]
  rfl

theorem checkCellStop_absent (hx : s.cell (c.p 0 1) = none) : checkCellStop s c = some (stShape, [0x76]) := by
  rw [checkCellStop, hx]
  rfl

theorem cellBecomesRunning_unstarted (h : ∀ x, s.cell n = some x → x.starting = none) : cellBecomesRunning n s = s := by
  cases hx : s.cell n with
  | none => simp only [cellBecomesRunning, hx]
  | some x => simp only [cellBecomesRunning, hx, h x hx]

/-- A cell as it comes to run in the slot that output time is in. -/
def runningNow (r : State) (x : Cell) : Cell :=
  { x with
    st := if r.link.lostAt.isSome then .holdover else .running, starting := none, sfn := (r.slotNow x).1, slot := (r.slotNow x).2
    fill := !x.holds (r.slotNow x).1 (r.slotNow x).2 4, noUplink := !x.holds (r.slotNow x).1 (r.slotNow x).2 5, mutePending := false }

theorem cellBecomesRunning_starting {ids : List Nat} {t : Nat} (hx : s.cell n = some x) (hst : x.starting = some (ids, t)) :
    cellBecomesRunning n s = if s.sx.time < t then s
      else ids.foldl (fun (s : State) id => s.ok id [0]) (((s.powerRadio.setCell n (some (runningNow s.powerRadio x))).radioFlags).headBoundary n
        (s.powerRadio.slotNow x).1 (s.powerRadio.slotNow x).2) := by
  simp only [cellBecomesRunning, hx, hst]
  rfl

/-! #### FAPI messages (R290, R291) -/

theorem runFapiP5_unread {f : Fail} (h : fapiMessages s c = .error f) : runFapiP5 s c = s.fapiFails c f := by
  simp only [runFapiP5, h]

theorem runFapiP5_acts {ms : List (List Byte)} (h : fapiMessages s c = .ok ms) {r : State × List (List Byte)}
    (hr : ms.foldl (State.fapiP5 (c.p 0 1)) (s, []) = r) : runFapiP5 s c =
    (r.1.batch (c.p 0 1) (((r.1.cell (c.p 0 1)).map (·.sfn)).getD 0) (((r.1.cell (c.p 0 1)).map (·.slot)).getD 0) false r.2).ok c.id [] := by
  simp only [runFapiP5, h, hr]

theorem runFapiP7_unread {f : Fail} (h : fapiMessages s c = .error f) : runFapiP7 s c = s.fapiFails c f := by
  simp only [runFapiP7, h]

theorem runFapiP7_acts {ms : List (List Byte)} (h : fapiMessages s c = .ok ms) {r : State × List (List Byte)}
    (hr : ms.foldl (State.fapiP7 (c.p 0 1)) (ms.foldl (fun (s : State) m => s.recordFronthaul (c.p 0 1) m) s, []) = r) : runFapiP7 s c =
    (r.1.batch (c.p 0 1) (((r.1.cell (c.p 0 1)).map (·.sfn)).getD 0) (((r.1.cell (c.p 0 1)).map (·.slot)).getD 0) false r.2).ok c.id [] := by
  simp only [runFapiP7, h, hr]

theorem fapiP7_found {out : List (List Byte)} {m : List Byte} (hx : s.cell n = some x) : State.fapiP7 n (s, out) m =
    if Config.fapiKind m < 4 || Config.fapiKind m > 7 then
      (s, out ++ [errorIndication n (Config.fapiSlot m).1 (Config.fapiSlot m).2 (Config.fapiKind m) 3])
    else if x.st ≠ .running then (s, out ++ [errorIndication n (Config.fapiSlot m).1 (Config.fapiSlot m).2 (Config.fapiKind m) 1])
    else if s.deadlinePassed x (Config.fapiSlot m).1 (Config.fapiSlot m).2 then
      (s, out ++ [errorIndication n (Config.fapiSlot m).1 (Config.fapiSlot m).2 (Config.fapiKind m) 2])
    else (s.setCell n (some { x with held := x.held ++ [((Config.fapiSlot m).1, (Config.fapiSlot m).2, m)] }),
      if Config.fapiOutside m then out ++ [errorIndication n (Config.fapiSlot m).1 (Config.fapiSlot m).2 (Config.fapiKind m) 4] else out) := by
  simp only [State.fapiP7, hx]

end

/-- Settles O52. -/
theorem cells : Obligations.Cells := by
  refine ⟨fun s id c h hc => ?config, fun s id c x h hc hx => ?start, fun s id c x h hx => ?stop, fun s id c h hx => ?noCell,
    fun n s h => congrArg Host.Outcome.next (cellBecomesRunning_unstarted h), fun n s x ids t hx hst => ?becomes, fun s id c h hc => ?p5,
    fun s id c h hc => ?p7, fun s c f => ?fails, fun n s out m x hx => ?messages⟩
  case config =>
    intro n b
    have hrun : exec (.opCellConfig id) s = .next (runCellConfig b (begun s c)) := congrArg Host.Outcome.next (runCoreless_runs h hc)
    rw [hrun]
    exact ⟨fun h0 => congrArg Host.Outcome.next (runCellConfig_admits (s := b) (c := begun s c) h0),
      fun x h0 hx => congrArg Host.Outcome.next (runCellConfig_releases (s := b) (c := begun s c) h0 hx)⟩
  case start =>
    intro b at_ st n s0 u
    have hrun : exec (.opCellStart id) s = .next (b.startCell n c.id ((c.p 1 1).testBit 0)) := congrArg Host.Outcome.next (runCoreless_runs h hc)
    have hst : x.queued c.id at_ = st := by
      simp only [Cell.queued, st]
      cases x.starting <;> rfl
    have hu : startWaiting b n c.id x at_ = u := by
      simp only [startWaiting, hst]
      rfl
    have hfound : b.cell n = some x := hx
    rw [hrun]
    refine ⟨fun hr => congrArg Host.Outcome.next (startCell_running hfound hr), fun hr ho => ?_, fun hr ho => ?_⟩
    all_goals rw [startCell_waits (at_ := at_) hfound hr rfl, hu, ho]
    · rfl
    · rfl
  case stop =>
    intro b
    have hrun : exec (.opCellStop id) s = .next (b.stopRequest (c.p 0 1) c.id) :=
      congrArg Host.Outcome.next (runCoreless_runs h (checkCellStop_found hx))
    have hfound : b.cell (c.p 0 1) = some x := hx
    rw [hrun]
    exact ⟨fun hst => congrArg Host.Outcome.next (stopRequest_idle hfound hst), fun hst => congrArg Host.Outcome.next (stopRequest_running hfound hst),
      fun hst => congrArg Host.Outcome.next (stopRequest_muted hfound hst)⟩
  case noCell =>
    have hrun : runCoreless 0x5003 checkCellStop (fun s c => s.stopRequest (c.p 0 1) c.id) id s = _ := runCoreless_refuses h (checkCellStop_absent hx)
    exact congrArg Host.Outcome.next hrun
  case becomes =>
    intro r u y
    have hrun : exec (.cellBecomesRunning n) s = .next (cellBecomesRunning n s) := rfl
    rw [hrun, cellBecomesRunning_starting hx hst]
    exact ⟨fun ht => congrArg Host.Outcome.next (if_pos ht), fun ht => congrArg Host.Outcome.next (if_neg (Nat.not_lt.mpr ht))⟩
  case p5 =>
    intro b
    have hrun : exec (.opFapiP5 id) s = .next (runFapiP5 b (begun s c)) := congrArg Host.Outcome.next (runCoreless_runs h hc)
    rw [hrun]
    exact ⟨fun f hf => congrArg Host.Outcome.next (runFapiP5_unread hf), fun ms hm => congrArg Host.Outcome.next (runFapiP5_acts hm rfl)⟩
  case p7 =>
    intro b
    have hrun : exec (.opFapiP7 id) s = .next (runFapiP7 b (begun s c)) := congrArg Host.Outcome.next (runCoreless_runs h hc)
    rw [hrun]
    exact ⟨fun f hf => congrArg Host.Outcome.next (runFapiP7_unread hf), fun ms hm => congrArg Host.Outcome.next (runFapiP7_acts hm rfl)⟩
  case fails =>
    unfold State.fapiFails
    exact ⟨fun hf => by rw [if_pos hf], fun hf => by rw [if_neg hf]⟩
  case messages =>
    intro t k err
    rw [fapiP7_found hx]
    have hkind (h4 : 4 ≤ k) (h7 : k ≤ 7) : ¬(decide (Config.fapiKind m < 4) || decide (Config.fapiKind m > 7)) = true := by
      simpa using ⟨h4, h7⟩
    refine ⟨fun hk => if_pos (by simpa using hk), fun h4 h7 hr => ?_, fun h4 h7 hr hd => ?_, fun h4 h7 hr hd ho => ?_, fun h4 h7 hr hd ho => ?_⟩
    all_goals rw [if_neg (hkind h4 h7)]
    · exact if_pos hr
    all_goals rw [if_neg (not_not.mpr hr)]
    · exact if_pos hd
    all_goals rw [if_neg ((Bool.not_eq_true _).mpr hd), ho]
    · rfl
    · rfl

end Sys2Proof.Machine
end

section
/-! ### The slot pipeline and the companion head (13, 15) -/
namespace Sys2Proof.Machine

section
variable {s : State} {n : Nat} {x : Cell}

/-! #### Slots (R293–R299) -/

/-- A cell taken into the slot that output time is in. -/
def Cell.inSlot (s : State) (x : Cell) : Cell :=
  { x with
    sfn := (s.slotNow x).1, slot := (s.slotNow x).2, fill := !x.holds (s.slotNow x).1 (s.slotNow x).2 4
    noUplink := !x.holds (s.slotNow x).1 (s.slotNow x).2 5, windows := []
    held := x.held.filter fun h => decide (s.slotStart x h.1 h.2.1 ≥ ((s.sx.time / x.slotTime * x.slotTime : Nat) : Int)) }

theorem slotBoundary_found (hx : s.cell n = some x) : slotBoundary n s =
    if !x.st.started || s.slotNow x = (x.sfn, x.slot) then s
    else if !x.stopping.isEmpty then s.stopCell n x
    else if x.st = .holdover && x.mutePending then
      ((s.setCell n (some { Cell.inSlot s x with st := .muted, mutePending := false })).tellWindows x).radioFlags
    else if x.st = .muted then s.setCell n (some (Cell.inSlot s x))
    else (((s.setCell n (some (Cell.inSlot s x))).tellWindows x).headBoundary n (s.slotNow x).1 (s.slotNow x).2).batch n
      ((Cell.inSlot s x).ahead (s.slotNow x).1 (s.slotNow x).2 (cfLead (Cell.inSlot s x).config)).1
      ((Cell.inSlot s x).ahead (s.slotNow x).1 (s.slotNow x).2 (cfLead (Cell.inSlot s x).config)).2 false
      [Config.fapiMessage 4 [n, ((Cell.inSlot s x).ahead (s.slotNow x).1 (s.slotNow x).2 (cfLead (Cell.inSlot s x).config)).1,
        ((Cell.inSlot s x).ahead (s.slotNow x).1 (s.slotNow x).2 (cfLead (Cell.inSlot s x).config)).2]] := by
  simp only [slotBoundary, hx]
  rfl

theorem requestDeadline_idle (hx : s.cell n = some x) (h1 : x.st ≠ .running) (h2 : x.st ≠ .holdover) : requestDeadline n s = s := by
  simp only [requestDeadline, hx]
  exact if_pos (by simp [h1, h2])

theorem requestDeadline_acts (hx : s.cell n = some x) (h : x.st = .running ∨ x.st = .holdover) {i sfn slot : Nat}
    (hi : i = (5 * s.sx.time + 6 * x.slotTime) / (5 * x.slotTime)) (hf : sfn = i * x.slotTime / msec 10 % 1024)
    (hs : slot = i * x.slotTime % msec 10 / x.slotTime) {mine cut : Nat × Nat × List Byte → Bool}
    (hm : mine = fun h => h.1 = sfn && h.2.1 = slot) (hc : cut = fun h => mine h && !Config.fapiWhole h.2.2 ((x.held.filter mine).map (·.2.2))) :
    requestDeadline n s = (s.setCell n (some { x with held := x.held.filter (!cut ·) })).batch n sfn slot false
      ((x.held.filter cut).map fun h => errorIndication n sfn slot (Config.fapiKind h.2.2) 2) := by
  subst hi hf hs hm hc
  simp only [requestDeadline, hx]
  exact if_neg (by rcases h with h | h <;> simp [h])

/-! #### Fronthaul windows (R296, R297) -/

section
variable {y : Nat} {up op r : Bool}

theorem fronthaulWindow_ignored (hx : s.cell n = some x)
    (h : ¬(y ≤ 13 ∧ (x.st = .running ∨ x.st = .holdover) ∧ op ≠ x.windows.contains (y, up))) : fronthaulWindow n y up op r s = s := by
  simp only [fronthaulWindow, hx]
  refine if_pos ?_
  by_contra hno
  simp only [Bool.or_eq_true, decide_eq_true_eq, Bool.not_eq_true', not_or] at hno
  exact h ⟨by omega, by simpa [or_iff_not_imp_left] using hno.1.2, hno.2⟩

variable (hx : s.cell n = some x) (h : y ≤ 13 ∧ (x.st = .running ∨ x.st = .holdover) ∧ op ≠ x.windows.contains (y, up))
include hx h

/-- A window whose edge counts: it opens, or it closes. -/
theorem fronthaulWindow_acts : fronthaulWindow n y up op r s =
    if op then
      if !up && r then
        ((s.setCell n (some { x with windows := x.windows ++ [(y, up)] })).tellWindows x).draw.2.queueFrame (cfPort x.config) 1
          (64 + ((s.setCell n (some { x with windows := x.windows ++ [(y, up)] })).tellWindows x).draw.1.toNat % 9153) []
      else (s.setCell n (some { x with windows := x.windows ++ [(y, up)] })).tellWindows x
    else if (!r && !(up && x.noUplink)) && up then
      ((s.setCell n (some { x with windows := x.windows.filter (· ≠ (y, up)), missing := x.missing + 1 })).tellWindows x).batch n x.sfn x.slot
        false [errorIndication n x.sfn x.slot 5 5]
    else if !r && !(up && x.noUplink) then
      (s.setCell n (some { x with windows := x.windows.filter (· ≠ (y, up)), unsent := x.unsent + 1 })).tellWindows x
    else (s.setCell n (some { x with windows := x.windows.filter (· ≠ (y, up)) })).tellWindows x := by
  obtain ⟨hy, hst, hw⟩ := h
  simp only [fronthaulWindow, hx]
  refine (if_neg ?_).trans ?_
  · simp only [Bool.or_eq_true, decide_eq_true_eq, Bool.not_eq_true', not_or]
    exact ⟨⟨by omega, by simpa [or_iff_not_imp_left] using hst⟩, hw⟩
  · cases op
    · cases up <;> cases r <;> cases x.noUplink <;> rfl
    · rfl

end

/-! #### Deadlines (R289, R298) -/

/-- A cell after a step: its figures, and nothing the detector found left where the step reports it. -/
def Cell.stepped (x : Cell) (d : DeadlineObs) : Cell := if d.dir = 2 ∧ d.step = 8 then { x.quality d with rach := [] } else x.quality d

theorem slotDeadline_ignored {d : DeadlineObs} (hx : s.cell n = some x)
    (h : ¬(d.dir ≤ 2 ∧ (x.st = .running ∨ x.st = .holdover ∨ (x.st = .configured ∧ s.replays = true)))) : slotDeadline n d s = s := by
  simp only [slotDeadline, hx]
  refine if_pos ?_
  by_contra hno
  simp only [Bool.or_eq_true, decide_eq_true_eq, not_or] at hno
  exact h ⟨by omega, by simpa [or_iff_not_imp_left] using hno.1⟩

theorem slotDeadline_acts {d : DeadlineObs} (hx : s.cell n = some x)
    (h : d.dir ≤ 2 ∧ (x.st = .running ∨ x.st = .holdover ∨ (x.st = .configured ∧ s.replays = true))) : slotDeadline n d s =
    (if d.met then (s.setCell n (some (x.stepped d))).controlPlane x d
      else ((s.setCell n (some (x.stepped d))).controlPlane x d).notice 0 stSlotLate (leBytes 1 d.dir ++ leBytes 1 n ++ leBytes 2 d.sfn
        ++ leBytes 1 d.slot ++ leBytes 1 d.step ++ leBytes 2 0 ++ leBytes 4 d.late)).batch n d.sfn d.slot (!d.met)
      (d.messages ++ if d.dir = 2 ∧ d.step = 8 then x.rach.map (Config.fapiMessage 5) else []) := by
  simp only [slotDeadline, hx]
  refine (if_neg ?_).trans ?_
  · simp only [Bool.or_eq_true, decide_eq_true_eq, not_or]
    exact ⟨by simpa [or_iff_not_imp_left] using h.2, by omega⟩
  · simp only [Cell.stepped, Bool.and_eq_true, decide_eq_true_eq]

/-! #### The companion head (R340–R345) -/

section
variable {a : Nat} {p : Int} {ph : Bool} {h : Head}

theorem agcMeasurement_ignored (hx : s.cell n = some x)
    (hno : x.head = none ∨ (x.st ≠ .running ∧ x.st ≠ .holdover) ∨ cfAnt x.config ≤ a ∨ ∃ h, x.head = some h ∧ h.flags.testBit 0 = false) :
    agcMeasurement n a p ph s = s := by
  cases hh : x.head with
  | none => simp only [agcMeasurement, hx, hh]
  | some h =>
    simp only [agcMeasurement, hx, hh]
    refine if_pos ?_
    rcases hno with hno | ⟨h1, h2⟩ | hno | ⟨h', hh', hoff⟩
    · simp [hno] at hh
    · simp [h1, h2]
    · simp [hno]
    · cases hh.symm.trans hh'
      simp [hoff]

/-- Whether a slot is frozen once a measurement has come: a burst or a PRACH occasion, or a freeze that lasts (R342). -/
def agcFreezes (s : State) (x : Cell) (h : Head) (a : Nat) (p : Int) (ph : Bool) : Bool :=
  ((NMap.get none h.prev a).map fun q => decide (p > q + 25 * h.burst)).getD false || ph
    || (h.frozen && !(h.frozen && h.prachFreeze && decide (s.sx.time % x.slotTime * 14 < x.slotTime) && !ph))

theorem agcFreezes_iff : agcFreezes s x h a p ph = true ↔ (∃ q, NMap.get none h.prev a = some q ∧ q + 25 * h.burst < p) ∨ ph = true ∨
    (h.frozen = true ∧ ¬(h.frozen = true ∧ h.prachFreeze = true ∧ s.sx.time % x.slotTime * 14 < x.slotTime ∧ ph = false)) := by
  unfold agcFreezes
  rw [Bool.or_eq_true, Bool.or_eq_true, getD_map_decide, or_assoc]
  refine or_congr Iff.rfl (or_congr Iff.rfl ?_)
  cases h.frozen <;> cases h.prachFreeze <;> cases ph <;> simp

/-- The head with a measurement noted. -/
def Head.measured (h : Head) (a : Nat) (p : Int) (ph b : Bool) : Head :=
  { h with
    prev := NMap.set none h.prev a (some p), frozen := b, prachFreeze := ph
    allLow := NMap.set none h.allLow a (some (decide (p < 25 * (h.target - h.hysteresis)) && (NMap.get none h.allLow a).getD true)) }

/-- The state with a measurement noted, a new freeze counted. -/
def noted (s : State) (n : Nat) (x : Cell) (h : Head) (a : Nat) (p : Int) (ph b : Bool) : State :=
  if b && !h.frozen then (s.setHead n x (h.measured a p ph b)).bump 0x06000058 1 else s.setHead n x (h.measured a p ph b)

theorem agcMeasurement_acts (hx : s.cell n = some x) (hh : x.head = some h) (hst : x.st = .running ∨ x.st = .holdover) (ha : a < cfAnt x.config)
    (hf : h.flags.testBit 0 = true) {b : Bool} (hb : agcFreezes s x h a p ph = b) : agcMeasurement n a p ph s =
    if p > 25 * (h.target + h.hysteresis) && !(b && (s.headTarget x).1 = 0) then
      ((noted s n x h a p ph b).setHead n x { h.measured a p ph b with words := h.words ++
        [(a, clampGain ((h.gainAt a (s.sx.time - usec 6) : Int) - quarterDb (min (p - 25 * h.target) (25 * h.attack))), (s.headTarget x).2.2)] }).headSend
        n 1 a (x.ahead x.sfn x.slot (s.headTarget x).1).1 (x.ahead x.sfn x.slot (s.headTarget x).1).2 (s.headTarget x).2.1
        (clampGain ((h.gainAt a (s.sx.time - usec 6) : Int) - quarterDb (min (p - 25 * h.target) (25 * h.attack))))
    else noted s n x h a p ph b := by
  subst hb
  simp only [agcMeasurement, hx, hh]
  refine (if_neg ?_).trans rfl
  rcases hst with hst | hst <;> simp [hst, ha, hf]

theorem frequencyEstimate_ignored {o q : Int} (hx : s.cell n = some x) (hno : x.head = none ∨ (x.st ≠ .running ∧ x.st ≠ .holdover)) :
    frequencyEstimate n o q s = s := by
  cases hh : x.head with
  | none => simp only [frequencyEstimate, hx, hh]
  | some h =>
    obtain ⟨h1, h2⟩ := hno.resolve_left (by simp [hh])
    simp only [frequencyEstimate, hx, hh]
    exact if_pos (by simp [h1, h2])

theorem frequencyEstimate_acts {o q : Int} (hx : s.cell n = some x) (hh : x.head = some h) (hst : x.st = .running ∨ x.st = .holdover) {w : Int}
    (hw : w = if !h.flags.testBit 1 || q < h.hold then h.freq
      else max (-10000000) (min 10000000 (h.freq - max (-(h.step : Int)) (min h.step (roundHalf s o h.a).1)))) : frequencyEstimate n o q s =
    ((roundHalf s o h.a).2.setHead n x { h with freq := w }).headSend n 2 0xFF (x.ahead x.sfn x.slot 2).1 (x.ahead x.sfn x.slot 2).2 0 w := by
  subst hw
  simp only [frequencyEstimate, hx, hh]
  exact if_neg (by rcases hst with hst | hst <;> simp [hst])

end

end

/-- Settles O53. -/
theorem slotsAndHead : Obligations.SlotsAndHead := by
  refine ⟨fun n s hx => ?absent, fun n s x hx => ?boundary, fun n s x hx => ?deadline, fun n y up op r s x hx => ?window, fun n d s x hx => ?step,
    fun s x d => ?plane, fun n a p ph s x hx hno => congrArg Host.Outcome.next (agcMeasurement_ignored hx hno),
    fun n o q s x hx hno => congrArg Host.Outcome.next (frequencyEstimate_ignored hx hno), fun n a p ph s x h hx hh hst ha hf => ?gain,
    fun n o q s x h hx hh hst => ?frequency, fun s id c x h hr hc hx hh => ?control⟩
  case absent =>
    have h1 : exec (.slotBoundary n) s = .next (slotBoundary n s) := rfl
    have h2 : exec (.requestDeadline n) s = .next (requestDeadline n s) := rfl
    have h3 (d : DeadlineObs) : exec (.slotDeadline n d) s = .next (slotDeadline n d s) := rfl
    have h4 (y : Nat) (u o r : Bool) : exec (.fronthaulWindow n y u o r) s = .next (fronthaulWindow n y u o r s) := rfl
    have h5 (a : Nat) (p : Int) (h : Bool) : exec (.agcMeasurement n a p h) s = .next (agcMeasurement n a p h s) := rfl
    have h6 (o q : Int) : exec (.frequencyEstimate n o q) s = .next (frequencyEstimate n o q s) := rfl
    simp only [h1, h2, h3, h4, h5, h6, slotBoundary, requestDeadline, slotDeadline, fronthaulWindow, agcMeasurement, frequencyEstimate, hx,
      implies_true, and_self]
  case boundary =>
    intro t y a new
    have hrun : exec (.slotBoundary n) s = .next (slotBoundary n s) := rfl
    have hnew : ¬new ↔ ((!x.st.started || decide (s.slotNow x = (x.sfn, x.slot))) = true) := by
      simp [new, t, or_iff_not_imp_left]
    rw [hrun, slotBoundary_found hx]
    refine ⟨fun h => congrArg Host.Outcome.next (if_pos (hnew.mp h)), fun h hs => ?_, fun h hs hst hm => ?_, fun h hs hst => ?_, fun h hs hst hm => ?_⟩
    all_goals rw [if_neg fun hn => hnew.mpr hn h]
    · exact congrArg Host.Outcome.next (if_pos (by simpa using hs))
    all_goals rw [if_neg (by simpa using hs)]
    · exact congrArg Host.Outcome.next (if_pos (by simp [hst, hm]))
    · rw [if_neg (by simp [hst]), if_pos hst]
      rfl
    · rw [if_neg (by rcases hm with hm | hm <;> simp [hm]), if_neg hst]
      rfl
  case deadline =>
    intro i sfn slot mine cut
    exact ⟨fun h1 h2 => congrArg Host.Outcome.next (requestDeadline_idle hx h1 h2),
      fun h => congrArg Host.Outcome.next (requestDeadline_acts hx h rfl rfl rfl rfl rfl)⟩
  case window =>
    intro acts w v
    have hrun : exec (.fronthaulWindow n y up op r) s = .next (fronthaulWindow n y up op r s) := rfl
    rw [hrun]
    refine ⟨fun h => congrArg Host.Outcome.next (fronthaulWindow_ignored hx h), fun h ho hu hr => ?_, fun h ho hur => ?_, fun h ho hr => ?_,
      fun h ho hr hu => ?_, fun h ho hr hu hn => ?_, fun h ho hr hu hn => ?_⟩
    all_goals rw [fronthaulWindow_acts hx h]
    · rw [if_pos ho, if_pos (by simp [hu, hr])]
    · rw [if_pos ho, if_neg (by rcases hur with h | h <;> simp [h])]
    all_goals rw [if_neg ((Bool.not_eq_true _).mpr ho)]
    · rw [if_neg (by simp [hr]), if_neg (by simp [hr])]
    · rw [if_neg (by simp [hu]), if_pos (by simp [hr, hu])]
    · rw [if_neg (by simp [hu, hn]), if_neg (by simp [hu, hn])]
    · rw [if_pos (by simp [hr, hu, hn])]
  case step =>
    intro acts report y u ms
    have hrun : exec (.slotDeadline n d) s = .next (slotDeadline n d s) := rfl
    rw [hrun]
    refine ⟨fun h => congrArg Host.Outcome.next (slotDeadline_ignored hx h), fun h hm => ?_, fun h hm => ?_⟩
    all_goals rw [slotDeadline_acts hx h, hm]
    · rfl
    · rfl
  case plane =>
    intro due
    have hdue : due ↔ cfSplit x.config ≠ 2 ∧ x.st ≠ .configured ∧ (d.dir = 0 ∧ d.step = 5 ∨ d.dir = 1 ∧ d.step = 2) := Iff.rfl
    exact ⟨fun h => if_pos (hdue.mp h), fun h => if_neg fun hd => h (hdue.mpr hd)⟩
  case gain =>
    intro burst ends frozen h1 u g value at_ b hb
    have hfreeze : agcFreezes s x h a p ph = b := Bool.eq_iff_iff.mpr (agcFreezes_iff.trans hb.symm)
    have hrun : exec (.agcMeasurement n a p ph) s = .next (agcMeasurement n a p ph s) := rfl
    rw [hrun, agcMeasurement_acts hx hh hst ha hf hfreeze]
    refine ⟨fun hlow => congrArg Host.Outcome.next (if_neg ?_), fun hhigh hfree => congrArg Host.Outcome.next (if_pos ?_)⟩
    · rcases hlow with hlow | ⟨hfroz, hg⟩
      · simp [hlow]
      · have hg' : (s.headTarget x).1 = 0 := hg
        simp [hfroz, hg']
    · have hg' : b = false ∨ (s.headTarget x).1 ≠ 0 := hfree
      rcases hg' with hg' | hg' <;> simp [hhigh, hg']
  case frequency =>
    intro r to_ held w
    refine ⟨fun hheld => congrArg Host.Outcome.next (frequencyEstimate_acts hx hh hst ?_),
      fun hheld => congrArg Host.Outcome.next (frequencyEstimate_acts hx hh hst ?_)⟩
    · exact (if_pos (by simpa [held] using hheld)).symm
    · exact (if_neg (by simpa [held] using hheld)).symm
  case control =>
    intro b n ws
    have hrun : exec (.opHeadControl id) s = .next (runHeadControl b (begun s c)) := congrArg Host.Outcome.next (runCoreless_runs hr hc)
    have hfound : b.cell ((begun s c).p 0 1) = some x := hx
    have hact : (begun s c).p 1 1 = c.p 1 1 := rfl
    simp only [hrun, runHeadControl, hfound, hh, hact]
    refine ⟨fun ha => ?_, fun ha => ?_, fun ha => ?_, fun ha => ?_⟩
    all_goals
      simp only [ha]
      rfl

end Sys2Proof.Machine
end

section
/-! ### Time domains, triggers and captures (17) -/
namespace Sys2Proof.Machine

section
variable {s : State} {c : Cmd}

/-! #### The output and its domain (R369–R372) -/

/-- The output as it slews towards domain `d`. -/
def Sexton.slewTo (x : Sexton) (d : Nat) : Sexton :=
  { x with selected := d, out := 1, rate := (x.dom d).rate, slew := if (x.dom d).offset = 0 then none else some (x.dom d).offset }

/-- The output after its first step to domain `d`. -/
def Sexton.stepTo (x : Sexton) (d : Nat) : Sexton :=
  { x with
    selected := d, out := 1, rate := (x.dom d).rate, slew := none, stepped := true
    time := (x.time + (x.dom d).offset / sxUnit).toNat, frac := 0
    doms := x.doms.map fun (y : Domain) => { y with offset := y.offset - (x.dom d).offset }
    triggers := x.triggers.map fun g => g.jump (x.time + (x.dom d).offset / sxUnit).toNat }

/-- The output follows: it slews where it has stepped before, and the change is told where there is one. -/
theorem follow_eq {d cause : Nat} {u : State} (hu : { s with sx := if s.sx.stepped then s.sx.slewTo d else s.sx.stepTo d } = u) :
    s.follow d cause =
      if s.sx.selected ≠ d ∨ s.sx.out ≠ 1 then
        if s.sx.stepped then u.sxNotice cause ((s.sx.dom d).offset / sxUnit) else u.sxNotice 3 0
      else u := by
  have hmoved : State.follow s d cause =
      if !(decide (s.sx.selected ≠ d) || decide (s.sx.out ≠ 1)) then u
      else if s.sx.stepped then u.sxNotice cause ((s.sx.dom d).offset / sxUnit) else u.sxNotice 3 0 := by
    subst hu
    rfl
  rw [hmoved]
  by_cases ht : s.sx.selected ≠ d ∨ s.sx.out ≠ 1
  · rw [if_pos ht, if_neg (by simpa [or_iff_not_imp_left] using ht)]
  · rw [if_neg ht, if_pos (by simpa using ht)]

theorem loseDomain_unfollowed {d : Nat} (h : s.sx.out ≠ 1 ∨ s.sx.selected ≠ d) : s.loseDomain d = s := if_pos (by simpa using h)

theorem loseDomain_followed {d : Nat} (ho : s.sx.out = 1) (hs : s.sx.selected = d) : s.loseDomain d =
    if s.sx.auto && s.locked (1 - d) then (s.bump 0x08000020 1).follow (1 - d) 1 else s.enterHoldover 1 :=
  if_neg (by simp [ho, hs])

/-! #### Messages of a domain (R366–R368) -/

/-- A Sync of a domain the output does not follow. -/
theorem syncMessage_unfollowed {m : PtpMsg} (h : s.sx.selected ≠ m.domain ∨ s.sx.out ≠ 1) {x y : Domain} (hx : s.dom m.domain = x)
    (hy : { x with heard := s.now, offset := m.offset * sxUnit, rate := m.rate } = y) : s.syncMessage m =
    if x.st = 3 then (s.setDom m.domain y).setDom m.domain (if x.back.2 then y.acquire s.now else { y with back := (true, x.back.2) })
    else if m.filtered.natAbs > x.loss then (s.setDom m.domain y).toLost m.domain
    else if x.st = 1 then
      if (if m.filtered.natAbs < x.lock then x.good + 1 else 0) ≥ 16 then
        ((s.setDom m.domain y).setDom m.domain { y with st := 2, good := if m.filtered.natAbs < x.lock then x.good + 1 else 0 }).lockDomain m.domain
      else (s.setDom m.domain y).setDom m.domain { y with good := if m.filtered.natAbs < x.lock then x.good + 1 else 0 }
    else s.setDom m.domain y := by
  subst hx hy
  have hsel : (decide (s.sx.selected = m.domain) && decide (s.sx.out = 1)) = false := by
    rw [← Bool.not_eq_true]
    simpa [← not_and_or] using h
  simp only [State.syncMessage, hsel, Bool.false_and, Bool.false_eq_true, if_false]

theorem ptpMessage_unheard {m : PtpMsg} (h : 1 < m.domain ∨ (s.dom m.domain).st = 0 ∨ s.subUp (s.dom m.domain).slave = false) :
    ptpMessage m s = s :=
  if_pos (by simpa [or_assoc] using h)

theorem ptpMessage_heard {m : PtpMsg} (hd : m.domain ≤ 1) (hst : (s.dom m.domain).st ≠ 0) (hup : s.subUp (s.dom m.domain).slave = true) :
    ptpMessage m s = match m.kind with
      | .sync => s.syncMessage m
      | .announce => s.setDom m.domain { s.dom m.domain with
          heard := s.now, back := ((s.dom m.domain).back.1, (s.dom m.domain).back.2 || (s.dom m.domain).st = 3) } := by
  refine (if_neg ?_).trans ?_
  · simp [hd, hst, hup]
  · cases m.kind <;> rfl

/-! #### Triggers and captures (R373–R375) -/

theorem triggerEdge_due {j : Nat} (ha : (s.sx.trigger j).armed = true) (ht : (s.sx.trigger j).next ≤ s.sx.time) : triggerEdge j s =
    s.setTrigger j { s.sx.trigger j with
      edges := if s.sx.out ≠ 0 || (s.sx.trigger j).flags.testBit 1 then (s.sx.trigger j).edges + 1 else (s.sx.trigger j).edges
      left := (s.sx.trigger j).left.map (· - 1), next := (s.sx.trigger j).next + (s.sx.trigger j).period
      until_ := if s.sx.out ≠ 0 || (s.sx.trigger j).flags.testBit 1 then (s.sx.trigger j).next + (s.sx.trigger j).width else (s.sx.trigger j).until_
      armed := decide ((s.sx.trigger j).period ≠ 0 ∧ (s.sx.trigger j).left.map (· - 1) ≠ some 0) } :=
  if_neg (by simp [ha, ht])

theorem captureEdge_eq {src : Nat} {falling : Bool} {x : Capture} (hx : NMap.get Capture.init s.sx.captures src = x) : captureEdge src falling s =
    if src ≤ 4 ∧ x.edges.testBit (b2n falling) = true ∧ ∀ t, x.last = some t → t + 400 ≤ s.now then s.capture src falling 0 else s := by
  subst hx
  have hnear : (¬(decide (src > 4) || !(NMap.get Capture.init s.sx.captures src).edges.testBit (b2n falling)
      || ((NMap.get Capture.init s.sx.captures src).last.map fun t => decide (s.now < t + 400)).getD false) = true) ↔
      src ≤ 4 ∧ (NMap.get Capture.init s.sx.captures src).edges.testBit (b2n falling) = true
        ∧ ∀ t, (NMap.get Capture.init s.sx.captures src).last = some t → t + 400 ≤ s.now := by
    rw [Bool.or_eq_true, Bool.or_eq_true, getD_map_decide]
    simp [and_assoc]
  unfold captureEdge
  by_cases ht : src ≤ 4 ∧ (NMap.get Capture.init s.sx.captures src).edges.testBit (b2n falling) = true
    ∧ ∀ t, (NMap.get Capture.init s.sx.captures src).last = some t → t + 400 ≤ s.now
  · rw [if_pos ht, if_neg (hnear.mpr ht)]
  · rw [if_neg ht, if_pos (not_not.mp fun hn => ht (hnear.mp hn))]

/-- The state with a source's captures replaced. -/
def putCapture (s : State) (src : Nat) (captures : NMap Capture) (y : Capture) : State :=
  { s with sx := { s.sx with captures := NMap.set Capture.init captures src y } }

theorem capture_takes {src data : Nat} {second : Bool} {x : Capture} (hx : NMap.get Capture.init s.sx.captures src = x) (h : x.fifo.length < 64) :
    s.capture src second data = putCapture s src s.sx.captures { x with
      last := some s.now, fifo := x.fifo ++ [(s.sx.time, b2n second + 2 * s.sx.out + 8 * b2n s.sx.slew.isSome, data)] } := by
  subst hx
  exact if_pos h

theorem capture_drops {src data : Nat} {second : Bool} {x : Capture} (hx : NMap.get Capture.init s.sx.captures src = x) (h : 64 ≤ x.fifo.length) :
    s.capture src second data = putCapture (s.bump 0x08000038 1) src s.sx.captures { x with drops := min 0xFFFFFFFF (x.drops + 1) } := by
  subst hx
  exact if_neg (Nat.not_lt.mpr h)

theorem runTriggerSet_disarms (h : c.p 1 1 = 1) : runTriggerSet s c =
    (s.setTrigger (c.p 0 1) { s.sx.trigger (c.p 0 1) with armed := false, until_ := 0 }).ok c.id [] := by
  simp only [runTriggerSet, if_pos h]

theorem runTriggerSet_arms (h : c.p 1 1 ≠ 1) : runTriggerSet s c = (s.setTrigger (c.p 0 1) {
      armed := true, flags := c.p 2 1, start := valueTime c.params 4, period := tsPeriod c, width := tsWidth c
      left := if c.p 28 4 = 0 then none else some (c.p 28 4), next := tsFirst c, edges := (s.sx.trigger (c.p 0 1)).edges
      until_ := (s.sx.trigger (c.p 0 1)).until_ }).ok c.id [] := by
  simp only [runTriggerSet, if_neg h]

end

/-- Settles O54. -/
theorem time : Obligations.Time := by
  refine ⟨fun s id c h => congrArg Host.Outcome.next (runCoreless_runs h rfl),
    fun s id c h hc => congrArg Host.Outcome.next (runCoreless_runs h hc), fun s d cause => ?follow, fun m s h => ?sync,
    fun m s h => congrArg Host.Outcome.next (ptpMessage_unheard h), fun m s hd hst hup => ?message, fun d s => ?announce, fun s d => ?lose,
    fun s h => congrArg Host.Outcome.next (if_pos h), fun s h => congrArg Host.Outcome.next (if_neg h), fun d n s => ?transmit, fun j s => ?trigger,
    fun src falling s => ?capture, fun s id c h hc => ?triggerSet, fun s id c h hc => ?captureRead,
    fun s id c h => congrArg Host.Outcome.next (runCoreless_runs h rfl)⟩
  case follow =>
    intro x off told u t v
    have hslew (hs : x.stepped = true) : { s with sx := if s.sx.stepped then s.sx.slewTo d else s.sx.stepTo d } = u :=
      congrArg (fun y => { s with sx := y }) (if_pos hs)
    have hstep (hs : x.stepped = false) : { s with sx := if s.sx.stepped then s.sx.slewTo d else s.sx.stepTo d } = v :=
      congrArg (fun y => { s with sx := y }) (if_neg ((Bool.not_eq_true _).mpr hs))
    exact ⟨fun hs ht => (follow_eq (hslew hs)).trans (if_neg ht), fun hs ht => (follow_eq (hslew hs)).trans ((if_pos ht).trans (if_pos hs)),
      fun hs ht => (follow_eq (hstep hs)).trans (if_neg ht),
      fun hs ht => (follow_eq (hstep hs)).trans ((if_pos ht).trans (if_neg ((Bool.not_eq_true _).mpr hs)))⟩
  case sync =>
    intro x y u
    rw [syncMessage_unfollowed (x := x) (y := y) h rfl rfl]
    refine ⟨fun hst hb => ?_, fun hst hb => ?_, fun hst hl => ?_, fun hst hl hk => ?_, fun hst hl hk hg => ?_, fun hst hl hk hg => ?_,
      fun hst hl => ?_⟩
    · rw [if_pos hst, if_pos hb]
    · rw [if_pos hst, hb]
      rfl
    · rw [if_neg hst, if_pos hl]
    all_goals rw [if_neg (by omega), if_neg (Nat.not_lt.mpr hl)]
    · rw [if_pos hst, if_neg (Nat.not_lt.mpr hk)]
      rfl
    · rw [if_pos hst, if_pos hk, if_neg (by omega)]
    · rw [if_pos hst, if_pos hk, if_pos (by omega)]
    · rw [if_neg (by omega)]
  case message =>
    have hrun : exec (.ptpMessage m) s = .next (ptpMessage m s) := rfl
    rw [hrun, ptpMessage_heard hd hst hup]
    exact ⟨fun hk => by rw [hk], fun hk => by rw [hk]⟩
  case announce =>
    intro due
    exact ⟨fun h => congrArg Host.Outcome.next (if_pos h), fun h => congrArg Host.Outcome.next (if_neg h)⟩
  case lose =>
    refine ⟨loseDomain_unfollowed, fun ho hs ha hl => ?_, fun ho hs hal => ?_⟩
    · exact (loseDomain_followed ho hs).trans (if_pos (by simp [ha, hl]))
    · exact (loseDomain_followed ho hs).trans (if_neg (by rcases hal with h | h <;> simp [h]))
  case transmit =>
    intro sends
    exact ⟨fun h => congrArg Host.Outcome.next (if_pos (by simpa [sends, and_assoc] using h)),
      fun h => congrArg Host.Outcome.next (if_neg (by simpa [sends, and_assoc] using h))⟩
  case trigger =>
    intro g
    refine ⟨fun h => congrArg Host.Outcome.next (if_pos (by simpa using h)), fun ha ht => ?_⟩
    intro left shown
    have hshown : ((decide (s.sx.out ≠ 0) || (s.sx.trigger j).flags.testBit 1) = true) ↔ shown := by simp [shown, g]
    have hrun : exec (.triggerEdge j) s = .next (triggerEdge j s) := rfl
    rw [hrun, triggerEdge_due ha ht]
    simp only [hshown]
    rfl
  case capture =>
    intro x takes put
    have hrun : exec (.captureEdge src falling) s = .next (captureEdge src falling s) := rfl
    rw [hrun, captureEdge_eq (x := x) rfl]
    refine ⟨fun ht hl => ?_, fun ht hl => ?_, fun ht => ?_⟩
    · rw [if_pos ht, capture_takes rfl hl]
      rfl
    · rw [if_pos ht, capture_drops rfl hl]
      rfl
    · rw [if_neg ht]
  case triggerSet =>
    intro g
    have hrun : exec (.opTriggerSet id) s = .next (runTriggerSet (Begun s c) (begun s c)) := congrArg Host.Outcome.next (runCoreless_runs h hc)
    rw [hrun]
    exact ⟨fun h1 => congrArg Host.Outcome.next (runTriggerSet_disarms (s := Begun s c) (c := begun s c) h1),
      fun h1 => congrArg Host.Outcome.next (runTriggerSet_arms (s := Begun s c) (c := begun s c) h1)⟩
  case captureRead =>
    intro src x put n bs u result
    have hrun : exec (.opCaptureRead id) s = .next (runCaptureRead (Begun s c) (begun s c)) := congrArg Host.Outcome.next (runCoreless_runs h hc)
    rw [hrun]
    refine ⟨fun h1 => congrArg Host.Outcome.next (if_pos h1), fun h1 he => congrArg Host.Outcome.next ((if_neg h1).trans ?_),
      fun h1 he => congrArg Host.Outcome.next ((if_neg h1).trans ?_)⟩
    · exact congrArg (fun t : State => t.ok c.id result) (if_pos he)
    · exact congrArg (fun t : State => t.ok c.id result) (if_neg he)

end Sys2Proof.Machine
end

section
/-! ### Network opcodes and frames (16) -/
namespace Sys2Proof.Machine

section
variable {s : State} {c : Cmd} {n : Nat}

/-! #### Network opcodes (R350, R358, R361) -/

theorem configureSub_enables (h : c.p 6 1 = 1) : State.configureSub c s n = s.setSub n { s.sub n with
    enabled := true, mac := c.p 8 6, lossless := c.p 5 1, xoff := Nat.land (s.sub n).xoff (c.p 5 1)
    link := if (s.sub n).enabled then (s.sub n).link else 1 } := by
  unfold State.configureSub
  simp only [h, if_true, decide_true, Bool.not_true, Bool.false_eq_true, if_false]
  cases (s.sub n).enabled <;> rfl

theorem configureSub_disables (h : c.p 6 1 ≠ 1) : State.configureSub c s n = (s.loseLink n).setSub n { (s.loseLink n).sub n with
    enabled := false, mac := c.p 8 6, lossless := c.p 5 1, xoff := 0, paused := 0, link := 0 } := by
  unfold State.configureSub
  simp only [h, if_false, decide_false, Bool.not_false, if_true]

theorem runQueueConfig_binds (h : c.p 4 1 ≠ 0xFF) : runQueueConfig s c = (s.setSub (c.p 0 1) ((s.sub (c.p 0 1)).setQueue (c.p 1 1)
    { (s.sub (c.p 0 1)).queue (c.p 1 1) with
      tenant := some (c.p 4 1), prio := c.p 5 1, weight := c.p 6 2, txRing := c.p 8 8, rxRing := c.p 16 8, entries := c.p 24 4
      vlan := c.p 28 2 })).ok c.id [] :=
  if_neg h

/-- A bucket with the rate and burst of a SHAPER_CONFIG, and the tokens that fit. -/
def shaped (s : State) (c : Cmd) (b : Bucket) : Bucket :=
  { b.now s.now with rate := c.p 4 4, burst := c.p 8 4, level := min (b.now s.now).level (c.p 8 4 * 32000) }

theorem runShaperConfig_eq : runShaperConfig s c = (s.setSub (c.p 0 1)
    (if c.p 1 1 = 0xFF then { s.sub (c.p 0 1) with shaper := shaped s c (s.sub (c.p 0 1)).shaper }
    else (s.sub (c.p 0 1)).setQueue (c.p 1 1) { (s.sub (c.p 0 1)).queue (c.p 1 1) with
      shaper := shaped s c ((s.sub (c.p 0 1)).queue (c.p 1 1)).shaper })).ok c.id [] := rfl

/-! #### Reception (R351–R353, R359) -/

section
variable {f : EthFrame}

/-- A frame counted and captured. -/
def counted (s : State) (f : EthFrame) : State :=
  ((s.bump (aTM f.port 0x020) 1).bump (aTM f.port 0x028) f.length).captureFrame f.port false f.etherType (fieldAt f.bytes (14 + 4 * f.tags) 2)

theorem ethernetFrameReceive_bad (hup : s.subUp f.port = true) (h : ¬(f.fcsOk = true ∧ 64 ≤ f.length ∧ f.length ≤ 9216 ∧ f.tags ≤ 1)) :
    ethernetFrameReceive f s = s.bump (aTM f.port 0x030) 1 := by
  refine (if_neg (by simp [hup])).trans (if_pos ?_)
  by_contra hno
  simp only [Bool.or_eq_true, Bool.not_eq_true', decide_eq_true_eq, not_or, Bool.not_eq_false] at hno
  exact h ⟨hno.1.1.1, by omega, by omega, by omega⟩

theorem ethernetFrameReceive_good (hup : s.subUp f.port = true) (h : f.fcsOk = true ∧ 64 ≤ f.length ∧ f.length ≤ 9216 ∧ f.tags ≤ 1) {u : State}
    (hu : counted s f = u) {k : Nat} (hk : (if f.tags = 0 then 0 else f.pcp % 8) = k) : ethernetFrameReceive f s =
    if !f.pfc.isEmpty then u.pfcFrame f
    else if decide ((u.sub f.port).ingress.foldl (fun a e => a + e.2) 0 + f.length > (u.sub f.port).sharedSize) && !(u.sub f.port).lossless.testBit k then
      (u.bump (aTM f.port 0x038) 1).drainShare f.port k
    else ((u.setShare f.port k (NMap.get 0 (u.sub f.port).ingress k + f.length)).classify f).drainShare f.port k := by
  subst hu hk
  obtain ⟨hf, h64, hmax, ht⟩ := h
  refine (if_neg (by simp [hup])).trans (if_neg ?_)
  simp only [Bool.or_eq_true, Bool.not_eq_true', decide_eq_true_eq, not_or, Bool.not_eq_false]
  exact ⟨⟨⟨hf, by omega⟩, by omega⟩, by omega⟩

/-- A frame that is no time protocol's goes by the radio, the tenants' queues, or away. -/
theorem classify_other (hp : ¬(f.etherType = 0x88F7 ∨ (f.etherType = 0x8809 ∧ f.subtype = 0x0A))) : s.classify f =
    match s.frontCell f with
    | some c => ((uplinkPayload f).map fun b => s.recordFronthaul c b).getD s
    | none => match s.rxQueue f with
      | some q => (match (s.police f).2 with
        | some bs => (s.police f).1.deliver f.port q bs
        | none => (s.police f).1)
      | none => s.bump (aTM f.port 0x040) 1 := by
  refine (if_neg hp).trans ?_
  generalize s.police f = r
  obtain ⟨s1, out⟩ := r
  cases out <;> rfl

/-- How a policer judges a frame, by the two buckets brought up to now. -/
theorem judge_eq (x : Policer) (now n : Nat) (dei : Bool) {tp tc : Nat} (hp : refill x.tp x.pir x.pbs (now - x.at_) = tp)
    (hc : refill x.tc x.cir x.cbs (now - x.at_) = tc) : x.judge now n dei =
    if tp < n * 32000 then (2, { x with tc := tc, tp := tp, at_ := now })
    else if (x.aware && dei) || decide (tc < n * 32000) then (1, { x with tc := tc, tp := tp - n * 32000, at_ := now })
    else (0, { x with tc := tc - n * 32000, tp := tp - n * 32000, at_ := now }) := by
  subst hp hc
  rfl

theorem pause_sets {k v : Nat} (hv : v ≠ 0) : s.pause n k v = s.setSub n { s.sub n with
    paused := if (s.sub n).paused.testBit k then (s.sub n).paused else (s.sub n).paused + 2 ^ k
    pauseEnd := NMap.set 0 (s.sub n).pauseEnd k (s.now + ceilDiv (2048 * v) (s.lineRate n)) } :=
  if_neg hv

theorem pause_ends {k : Nat} (hk : (s.sub n).paused.testBit k = true) : s.pause n k 0 = s.setSub n { s.sub n with
    paused := (s.sub n).paused - 2 ^ k, pauseEnd := NMap.set 0 (s.sub n).pauseEnd k 0 } := by
  simp only [State.pause, hk, if_true]

theorem pfcFrame_single {k v : Nat} (hf : f.pfc = [(k, v)]) (hk : k ≤ 7) : s.pfcFrame f = (s.bump (aTM f.port 0x068) 1).pause f.port k v := by
  simp only [State.pfcFrame, hf, List.foldl_cons, List.foldl_nil, if_pos hk]

theorem pfcRefresh_eq {k : Nat} : pfcRefresh n k s =
    if s.subUp n = true ∧ k ≤ 7 ∧ (s.sub n).xoff.testBit k = true then
      if ((s.drainShare n k).sub n).xoff.testBit k then (s.drainShare n k).bump (aTM n 0x060) 1 else s.drainShare n k
    else s := by
  unfold pfcRefresh
  by_cases h : s.subUp n = true ∧ k ≤ 7 ∧ (s.sub n).xoff.testBit k = true
  · rw [if_pos h, if_neg (by simp [h])]
  · rw [if_neg h, if_pos]
    by_contra hno
    simp only [Bool.or_eq_true, Bool.not_eq_true', decide_eq_true_eq, not_or, Bool.not_eq_false] at hno
    exact h ⟨hno.1.1, by omega, hno.2⟩

theorem ethernetLinkChange_eq {up : Bool} : ethernetLinkChange n up s =
    if s.portExists n = true ∧ (s.sub n).enabled = true ∧ s.pw.on.testBit 16 = true ∧ (up = true ↔ (s.sub n).link ≠ 2)
        ∧ (up = true → s.pw.refLost.testBit 1 = false) then s.moveLink n up
    else s := by
  have hlink : (up == decide ((s.sub n).link = 2)) = false ↔ (up = true ↔ (s.sub n).link ≠ 2) := by
    cases up <;> simp
  have href : (up && s.pw.refLost.testBit 1) = false ↔ (up = true → s.pw.refLost.testBit 1 = false) := by
    cases up <;> simp
  split_ifs with hacts
  · obtain ⟨he, hen, hon, hl, hr⟩ := hacts
    exact if_neg (by rw [he, hen, hon, hlink.mpr hl, href.mpr hr]; decide)
  · refine if_pos (by_contra fun hno => hacts ?_)
    simp only [Bool.or_eq_true, not_or, Bool.not_eq_true, Bool.not_eq_false'] at hno
    obtain ⟨⟨⟨⟨he, hen⟩, hon⟩, hl⟩, hr⟩ := hno
    exact ⟨he, hen, hon, hlink.mp hl, href.mp hr⟩

end

/-! #### Transmission (R355–R358) -/

section
variable {q : Nat}

theorem frameTransmit_busy (h : s.subUp n = false ∨ ∃ b, (s.sub n).busy = some b ∧ s.now < b.2) : frameTransmit n s = s := by
  refine if_pos ?_
  rcases h with h | ⟨b, hb, hn⟩
  · simp [h]
  · simp [hb, hn]

theorem frameTransmit_idle (hup : s.subUp n = true) (hb : ∀ b, (s.sub n).busy = some b → b.2 ≤ s.now) {p : SubPort}
    (hp : { s.sub n with busy := none } = p) : frameTransmit n s =
    match p.choose s.now with
    | none => s.setSub n p
    | some q => match (p.queue q).frames with
      | [] => s
      | f :: rest =>
        let x := p.queue q
        let lb := lineBytes f.length
        let p1 := p.setQueue q { x with frames := rest, shaper := x.shaper.debit s.now lb }
        let p2 := { p1 with
          v := f.tag, shaper := p1.shaper.debit s.now lb, busy := some (q, s.now + ceilDiv (32 * lb) (s.lineRate n))
          sent := (q, f.length, f.poison) :: p1.sent }
        let u := ((s.setSub n p2).bump (aTM n 0x010) 1).bump (aTM n 0x018) f.length
        let v := if f.poison then u.bump (aTM n 0x058) 1 else u
        (v.consumed x).captureFrame n true (frameType f.bytes).1 (frameType f.bytes).2 := by
  subst hp
  refine (if_neg ?_).trans rfl
  cases hbusy : (s.sub n).busy with
  | none => simp [hup]
  | some b => simp [hup, hb b hbusy]

theorem transmitRingPoll_unbound (h : ((s.sub n).queue q).tenant = none ∨ s.portExists n = false ∨ 63 < q ∨ ((s.sub n).queue q).txRing = 0) :
    transmitRingPoll n q s = s := by
  cases ht : ((s.sub n).queue q).tenant with
  | none => simp only [transmitRingPoll, ht]
  | some t =>
    simp only [transmitRingPoll, ht]
    refine if_pos ?_
    rcases h with h | h | h | h
    · simp [ht] at h
    all_goals simp [h]

variable {t : Nat} (ht : ((s.sub n).queue q).tenant = some t)
include ht

theorem transmitRingPoll_unreadable (h : s.ringNum t ((s.sub n).queue q).txRing 0 4 = none ∨ s.ringNum t ((s.sub n).queue q).txRing 4 4 = none) :
    transmitRingPoll n q s = s := by
  simp only [transmitRingPoll, ht]
  split_ifs
  · rfl
  · rcases h with h | h
    · simp only [h]
    · cases s.ringNum t ((s.sub n).queue q).txRing 0 4 <;> simp only [h]

theorem transmitRingPoll_reads {prod cons : Nat} (he : s.portExists n = true) (hq : q ≤ 63) (hr : ((s.sub n).queue q).txRing ≠ 0)
    (hprod : s.ringNum t ((s.sub n).queue q).txRing 0 4 = some prod) (hcons : s.ringNum t ((s.sub n).queue q).txRing 4 4 = some cons) {new : Nat}
    (hnew : (prod + 2 ^ 33 - cons - ((s.sub n).queue q).frames.length) % 2 ^ 32 = new) : transmitRingPoll n q s =
    s.setSub n ((if new > ((s.sub n).queue q).entries then []
      else s.fetchFrames t ((s.sub n).queue q).txRing ((s.sub n).queue q).entries new (cons + ((s.sub n).queue q).frames.length)).foldl
      (fun (p : SubPort) f => p.enqueue s.now q (f.1.length + 4) f.1 f.2) (s.sub n)) := by
  subst hnew
  simp only [transmitRingPoll, ht]
  refine (if_neg (by simp [he, hr]; omega)).trans ?_
  simp only [hprod, hcons]

end

end

/-- Settles O55. -/
theorem networkAndFrames : Obligations.NetworkAndFrames := by
  refine ⟨⟨fun s id c h hc => congrArg Host.Outcome.next (runCoreless_runs h hc), fun s c n h => configureSub_enables h,
    fun s c n h => configureSub_disables h, fun s id c h hc => ?queue, fun s id c h hc => ?shaper,
    fun s id c h hc => congrArg Host.Outcome.next (runCoreless_runs h hc)⟩, ?frames⟩
  case queue =>
    intro n q b
    have hrun : exec (.opQueueConfig id) s = .next (runQueueConfig b (begun s c)) := congrArg Host.Outcome.next (runCoreless_runs h hc)
    rw [hrun]
    exact ⟨fun hf => congrArg Host.Outcome.next (if_pos hf), fun hf => congrArg Host.Outcome.next (runQueueConfig_binds (s := b) (c := begun s c) hf)⟩
  case shaper =>
    intro n q p set
    have hrun : exec (.opShaperConfig id) s = .next (runShaperConfig (Begun s c) (begun s c)) := congrArg Host.Outcome.next (runCoreless_runs h hc)
    rw [hrun, runShaperConfig_eq]
    exact ⟨fun hq => congrArg (fun y => Host.Outcome.next (((Begun s c).setSub n y).ok c.id [])) (if_pos hq),
      fun hq => congrArg (fun y => Host.Outcome.next (((Begun s c).setSub n y).ok c.id [])) (if_neg hq)⟩
  case frames =>
  refine ⟨fun f s h => congrArg Host.Outcome.next (if_pos (by simp [h])), fun f s hup => ?receive, fun f s => ?classify, fun x now n dei => ?judge,
    fun n k s => ?refresh, fun n k s => ?expiry, fun n s h => congrArg Host.Outcome.next (frameTransmit_busy h), fun n s hup hb => ?transmit,
    fun n q s h => congrArg Host.Outcome.next (transmitRingPoll_unbound h), fun n q s t prod cons ht he hq hr hprod hcons => ?poll,
    fun n q s t prod cons ht he hq hr hprod hcons hover => ?tooMany, fun n q s t ht h => congrArg Host.Outcome.next (transmitRingPoll_unreadable ht h),
    fun f s k v hf hk => pfcFrame_single hf hk, fun s n k v hv => pause_sets hv, fun n up s => ?link⟩
  case receive =>
    intro n good u k p full
    have hrun : exec (.ethernetFrameReceive f) s = .next (ethernetFrameReceive f s) := rfl
    rw [hrun]
    refine ⟨fun hg => congrArg Host.Outcome.next (ethernetFrameReceive_bad hup hg), fun hg hp => ?_, fun hg hp hf hl => ?_, fun hg hp hf => ?_⟩
    all_goals rw [ethernetFrameReceive_good (u := u) (k := k) hup hg rfl rfl]
    · exact congrArg Host.Outcome.next (if_pos (by simpa using hp))
    all_goals rw [if_neg (by simp [hp])]
    · exact congrArg Host.Outcome.next (if_pos (by simpa using ⟨hf, hl⟩))
    · refine congrArg Host.Outcome.next (if_neg ?_)
      rcases hf with hf | hf
      · exact fun hno => hf (by simpa using (Bool.and_eq_true _ _ |>.mp hno).1)
      · have hf' : (u.sub f.port).lossless.testBit k = true := hf
        simp [hf']
  case classify =>
    intro ptp
    refine ⟨fun hp => if_pos hp, fun c hp hc => ?_, fun hp hc hq => ?_, fun q hp hc hq => ⟨fun bs hb => ?_, fun hb => ?_⟩⟩
    all_goals rw [classify_other hp]
    · simp only [hc]
    · simp only [hc, hq]
    · simp only [hc, hq, hb]
    · simp only [hc, hq, hb]
  case judge =>
    intro tp tc
    rw [judge_eq (tp := tp) (tc := tc) x now n dei rfl rfl]
    refine ⟨fun h => if_pos h, fun h hy => ?_, fun h ha hc => ?_⟩
    · rw [if_neg (Nat.not_lt.mpr h), if_pos (by simpa using hy)]
    · rw [if_neg (Nat.not_lt.mpr h), if_neg]
      simp only [Bool.or_eq_true, Bool.and_eq_true, decide_eq_true_eq, not_or, Nat.not_lt]
      exact ⟨ha, hc⟩
  case refresh =>
    intro holds u
    have hrun : exec (.pfcRefresh n k) s = .next (pfcRefresh n k s) := rfl
    rw [hrun, pfcRefresh_eq]
    exact ⟨fun h => congrArg Host.Outcome.next (if_neg h), fun h hx => congrArg Host.Outcome.next ((if_pos h).trans (if_pos hx)),
      fun h hx => congrArg Host.Outcome.next ((if_pos h).trans (if_neg ((Bool.not_eq_true _).mpr hx)))⟩
  case expiry =>
    intro due
    have hdue : ((decide (k ≤ 7) && (s.sub n).paused.testBit k && decide (s.now ≥ NMap.get 0 (s.sub n).pauseEnd k)) = true) ↔ due := by
      simp [due, and_assoc]
    exact ⟨fun h => congrArg Host.Outcome.next ((if_pos (hdue.mpr h)).trans (pause_ends h.2.1)),
      fun h => congrArg Host.Outcome.next (if_neg fun hd => h (hdue.mp hd))⟩
  case transmit =>
    intro p
    have hrun : exec (.frameTransmit n) s = .next (frameTransmit n s) := rfl
    rw [hrun, frameTransmit_idle (p := p) hup hb rfl]
    refine ⟨fun hq => ?_, fun q f rest hq hf => ?_⟩
    · simp only [hq]
    · simp only [hq, hf]
  case poll =>
    intro x new hnew
    have hrun : exec (.transmitRingPoll n q) s = .next (transmitRingPoll n q s) := rfl
    rw [hrun, transmitRingPoll_reads (new := new) ht he hq hr hprod hcons rfl, if_neg (Nat.not_lt.mpr hnew)]
  case tooMany =>
    have hrun : exec (.transmitRingPoll n q) s = .next (transmitRingPoll n q s) := rfl
    rw [hrun, transmitRingPoll_reads ht he hq hr hprod hcons rfl, if_pos hover]
    rfl
  case link =>
    intro acts
    have hrun : exec (.ethernetLinkChange n up) s = .next (ethernetLinkChange n up s) := rfl
    rw [hrun, ethernetLinkChange_eq]
    exact ⟨fun h => congrArg Host.Outcome.next (if_pos h), fun h => congrArg Host.Outcome.next (if_neg h)⟩

end Sys2Proof.Machine
end

section
/-! ### Signal cores: jobs and every instruction of a core -/
namespace Sys2Proof.Machine

/-- What one instruction at the program counter leaves: it is taken where its cycles are left, else the job stops. -/
def ScGoes (s : State) (n : Nat) (w : Word) (r : ScRegs) (i : Instr) (o : State × ScRegs × Option Nat × Nat × Nat) : Prop :=
  (scCost r w o ≤ (s.sc n).left → exec i s = .next (s.scTaken n w r o))
    ∧ ((s.sc n).left < scCost r w o → exec i s = .next (s.scStopped n w r o))

/-- Every instruction of a signal core, for one core and one word (for proofs alone: the run time has no room for their tags). -/
noncomputable def scInstrs (n : Nat) (w : Word) : List Instr :=
  [Instr.scMov n w, Instr.scCadd n w, Instr.scCsub n w, Instr.scCmul n w, Instr.scCmulj n w, Instr.scConj n w, Instr.scCneg n w,
    Instr.scSwap n w, Instr.scAddw n w, Instr.scSubw n w, Instr.scAndw n w, Instr.scOrw n w, Instr.scXorw n w, Instr.scShlh n w,
    Instr.scShrh n w, Instr.scShlw n w, Instr.scShrw n w, Instr.scMag2 n w, Instr.scMinw n w, Instr.scMaxw n w, Instr.scAccrd n w,
    Instr.scAbsh n w, Instr.scAccclr n w, Instr.scAccsh n w, Instr.scAccadd n w, Instr.scAccld n w, Instr.scCmac n w,
    Instr.scCmacj n w, Instr.scCmsu n w, Instr.scCmpy n w, Instr.scCpow n w, Instr.scNopm n w, Instr.scCmpw n w, Instr.scSfFir n w,
    Instr.scSfSearch n w, Instr.scLd n w, Instr.scSt n w, Instr.scLdil n w, Instr.scLdih n w, Instr.scMovr n w, Instr.scAddpi n w,
    Instr.scNop n w, Instr.scDone n w, Instr.scBr n w, Instr.scCall n w, Instr.scRet n w, Instr.scLoop n w, Instr.scLoopr n w,
    Instr.scBreak n w, Instr.scWaitf n w, Instr.scSetf n w, Instr.scClrf n w]

/-- Each is the shared step with a body of its own. -/
theorem scInstrs_step (n : Nat) (w : Word) (s : State) :
    ∀ i ∈ scInstrs n w, ∃ k sf body, exec i s = .next (scStep k sf body n w s) := by
  unfold scInstrs
  iterate 52 refine List.forall_mem_cons.2 ⟨⟨_, _, _, rfl⟩, ?_⟩
  exact fun _ h => absurd h List.not_mem_nil

section
variable {s : State} {n k : Nat} {w : Word} {r : ScRegs} {i : Instr} {sf : Option Bool}
  {body : Word → State → Nat → ScRegs → ScOut} {o : State × ScRegs × Option Nat × Nat × Nat} {e : Nat}

theorem scGoes_of_body (hx : exec i s = .next (scStep k sf body n w s)) (h : ScIssues s n k w r)
    (hsf : (sf.map (· != r.sfmode)).getD false = false) (hb : body w s n r = .ok o) (hk : k ≠ 193) : ScGoes s n w r i o :=
  ⟨fun hc => hx.trans (congrArg Host.Outcome.next (scStep_taken h hsf hb hk hc)),
    fun hc => hx.trans (congrArg Host.Outcome.next (scStep_late h hsf hb hc))⟩

theorem scFaults_of_body (hx : exec i s = .next (scStep k sf body n w s)) (h : ScIssues s n k w r)
    (hsf : (sf.map (· != r.sfmode)).getD false = false) (hb : body w s n r = .error e) : exec i s = .next (s.scFault n e) :=
  hx.trans (congrArg Host.Outcome.next (scStep_faults h hsf hb))

/-- An operation on D registers, with the word and the overflow it makes. -/
theorem scAlu_goes {f : Bool → Word → Word → Nat → Word × Bool} {y : Word × Bool} (hx : exec i s = .next (scAlu k f n w s))
    (hy : f (fSat w 23) (rget r.d (fRa w)) (rget r.d (fRb w)) (wf w 8 5) = y) (hk : k ≠ 193) (h : ScIssues s n k w r) :
    ScGoes s n w r i (s, (r.result (fRd w) y.1 y.2 (fSat w 23)).counted (y.2 && fSat w 23), none, 0, 0) :=
  scGoes_of_body hx h rfl (hy ▸ rfl) hk

/-- An operation on an accumulator, with the parts it gives it. -/
theorem scAccOp_goes {f : Word → ScRegs → Int × Int} {x y : Int} (hx : exec i s = .next (scAccOp k f n w s))
    (hf : f w r = (x, y)) (hk : k ≠ 193) (h : ScIssues s n k w r) :
    ScGoes s n w r i (s, r.accTo (fAc w) x y (fSat w 23), none, 0, 0) :=
  scGoes_of_body hx h rfl (by simp only [hf, scRegsOnly]) hk

/-- A MAC word: the accumulators it computes and its loads, or the fault of its loads. -/
theorem scMac_goes {f : Word → ScRegs → ScRegs} {y : ScRegs} (hx : exec i s = .next (scMac k f n w s))
    (hf : f w r = y) (hk : k ≠ 193) (h : ScIssues s n k w r) :
    (∀ s1 r1 st, macLoads w s n r true = .ok (s1, r1, st) → ScGoes s n w r i (s1, { r1 with acc := y.acc, flg := y.flg }, none, st, st))
      ∧ ∀ e, macLoads w s n r true = .error e → exec i s = .next (s.scFault n e) := by
  subst hf
  exact ⟨fun s1 r1 st hl => scGoes_of_body hx h rfl (by simp only [hl]) hk,
    fun e hl => scFaults_of_body hx h rfl (by simp only [hl])⟩

end

/-! #### Jobs -/

theorem jobStart_eq (n : Nat) (j : Job) (s : State) :
    let can := n < 128 ∧ s.clusterOn (n / 16) = true ∧ (s.sc n).quarantined = false ∧ (s.sc n).job = none
        ∧ (s.cluster (n / 16)).loaded = true ∧ (s.cluster (n / 16)).halt = false ∧ j.entry < 64
    (can → jobStart n j s = (s.setCluster (n / 16) { s.cluster (n / 16) with
          flags := (s.cluster (n / 16)).flags &&& ~~~j.clears }).setSc n { s.sc n with job := some (ScRegs.start j), left := j.limit, entry := j.entry })
      ∧ (¬ can → jobStart n j s = s) := by
  intro can
  have hg : (decide (n < 128) && s.clusterOn (n / 16) && !(s.sc n).quarantined && (s.sc n).job.isNone && (s.cluster (n / 16)).loaded
      && !(s.cluster (n / 16)).halt && decide (j.entry < 64)) = true ↔ can := by
    simp [can, and_assoc]
  exact ⟨fun h => if_pos (hg.2 h), fun h => if_neg fun h' => h (hg.1 h')⟩

theorem rget_replicate_zero (n i : Nat) : rget (Vector.replicate n (0 : Word)) i = 0 := by
  unfold rget
  split
  · exact Vector.getElem_replicate ..
  · rfl

theorem scRegs_start (j : Job) : (ScRegs.start j).pc = j.entry ∧ (ScRegs.start j).flg = 0 ∧ (ScRegs.start j).loops = []
    ∧ (ScRegs.start j).stack = [] ∧ (∀ i, rget (ScRegs.start j).d i = 0) ∧ (∀ i, (ScRegs.start j).accAt i = (0, 0))
    ∧ (∀ i, i < 8 → rget (ScRegs.start j).p i = j.args.getD i 0)
    ∧ ∀ i, rget (ScRegs.start j).m i = 0 ∧ rget (ScRegs.start j).l i = 0 := by
  refine ⟨rfl, rfl, rfl, rfl, rget_replicate_zero 16, fun i => ?_, fun i hi => ?_, fun i => ⟨rget_replicate_zero 8 i, rget_replicate_zero 8 i⟩⟩
  · unfold ScRegs.accAt
    split
    · exact Vector.getElem_replicate ..
    · rfl
  · simp [rget, hi, ScRegs.start]

/-! #### The instructions whose body branches -/

section
variable {s : State} {n : Nat} {w : Word} {r : ScRegs}

theorem scSfFir_goes (h : ScIssues s n 68 w r) (hm : r.sfmode = false) :
    let p := wf w 2 1 + 4
    let d := (rget r.p p).toNat
    let y := s.scRead n d 4
    let f := cprod false (rget r.d (2 * wf w 24 22)) (BitVec.ofNat 32 y)
    let x := r.accAt (2 * wf w 26 26)
    let z := if fSat w 19 then r.accTo (2 * wf w 26 26) (x.1.toInt - f.1) (x.2.toInt - f.2) (fSat w 25)
      else r.accTo (2 * wf w 26 26) (x.1.toInt + f.1) (x.2.toInt + f.2) (fSat w 25)
    (∀ e, accessFault 2 d 4 = some e → exec (.scSfFir n w) s = .next (s.scFault n e))
    ∧ (accessFault 2 d 4 = none → ptrUpdate (rget r.l p) (rget r.p p) 4 = none → exec (.scSfFir n w) s = .next (s.scFault n 8))
    ∧ ∀ q s1 r1 st r2, accessFault 2 d 4 = none → ptrUpdate (rget r.l p) (rget r.p p) 4 = some q → accessFault 2 q.toNat 4 = none →
        macLoads w s n r false = .ok (s1, r1, st) → r.update p (if fSat w 0 then (rget r.m p).toInt else 4) = .ok r2 →
        (wf w 17 16 = 0 ∨ loadClash w = []) →
        let v := (s1.scWrite n q.toNat 4 y).sharedStall d
        let u := v.2.sharedStall q.toNat
        ScGoes s n w r (.scSfFir n w) (u.2, { r1 with acc := z.acc, flg := z.flg, p := rset r1.p p (rget r2.p p) }.setD (wf w 6 3) (BitVec.ofNat 32 y),
          none, st + v.1 + u.1, st + v.1 + u.1) := by
  intro p d y f x z
  have hsf : ((some false).map (· != r.sfmode)).getD false = false := by simp [hm]
  refine ⟨fun e he => scFaults_of_body rfl h hsf (by simp only [d, p] at he; simp only [he]),
    fun hd hq => scFaults_of_body rfl h hsf (by simp only [d, p] at hd hq; simp only [hd, hq]),
    fun q s1 r1 st r2 hd hq hw hl hu hc => scGoes_of_body rfl h hsf ?_ (by decide)⟩
  have hclash : (if wf w 17 16 = 0 then [] else loadClash w) = [] := by
    rcases hc with hc | hc <;> simp [hc]
  simp only [d, p] at hd hq hu
  simp only [hd, hq, hw, hl, hu, hclash, List.foldl_nil]
  rfl

theorem scSfSearch_goes (h : ScIssues s n 68 w r) (hm : r.sfmode = true) :
    let y := (r.search (fSat w 18) (fSat w 26) (rget r.d (2 * wf w 24 22))).search (fSat w 18) (fSat w 26) (rget r.d (2 * wf w 24 22 + 1))
    (∀ s1 r1 st, macLoads w s n r true = .ok (s1, r1, st) →
      ScGoes s n w r (.scSfSearch n w) (s1, { r1 with best := y.best, bidx := y.bidx, icnt := y.icnt }, none, st, st))
    ∧ ∀ e, macLoads w s n r true = .error e → exec (.scSfSearch n w) s = .next (s.scFault n e) := by
  have hsf : ((some true).map (· != r.sfmode)).getD false = false := by simp [hm]
  exact ⟨fun s1 r1 st hl => scGoes_of_body rfl h hsf (by simp only [hl]) (by decide),
    fun e hl => scFaults_of_body rfl h hsf (by simp only [hl])⟩

theorem scLd_goes (h : ScIssues s n 128 w r) : (∀ e, lsAddress w r (lsSize w) = .error e → exec (.scLd n w) s = .next (s.scFault n e))
    ∧ ∀ d r1, lsAddress w r (lsSize w) = .ok (d, r1) → (∀ e, accessFault 0 d (lsSize w) = some e → exec (.scLd n w) s = .next (s.scFault n e))
      ∧ (accessFault 0 d (lsSize w) = none → ScGoes s n w r (.scLd n w) ((s.sharedStall d).2,
          r1.load (wf w 25 22) (lsSize w) (s.scRead n d (lsSize w)), none, (s.sharedStall d).1, (s.sharedStall d).1)) :=
  ⟨fun e ha => scFaults_of_body rfl h rfl (by simp only [ha]), fun d r1 ha =>
    ⟨fun e he => scFaults_of_body rfl h rfl (by simp only [ha, he]),
      fun he => scGoes_of_body rfl h rfl (by simp only [ha, he]) (by decide)⟩⟩

theorem scSt_goes (h : ScIssues s n 129 w r) : (∀ e, lsAddress w r (lsSize w) = .error e → exec (.scSt n w) s = .next (s.scFault n e))
    ∧ ∀ d r1, lsAddress w r (lsSize w) = .ok (d, r1) → (∀ e, accessFault 0 d (lsSize w) = some e → exec (.scSt n w) s = .next (s.scFault n e))
      ∧ (accessFault 0 d (lsSize w) = none → ScGoes s n w r (.scSt n w) ((s.sharedStall d).2.scWrite n d (lsSize w)
          ((rget r.d (wf w 25 22)).toNat + 2 ^ 32 * (if lsSize w = 8 then (rget r.d (wf w 25 22 + 1)).toNat else 0)),
          r1, none, (s.sharedStall d).1, (s.sharedStall d).1)) :=
  ⟨fun e ha => scFaults_of_body rfl h rfl (by simp only [ha]), fun d r1 ha =>
    ⟨fun e he => scFaults_of_body rfl h rfl (by simp only [ha, he]),
      fun he => scGoes_of_body rfl h rfl (by simp only [ha, he]) (by decide)⟩⟩

theorem scAddpi_goes (h : ScIssues s n 133 w r) :
    (∀ r1, r.update (wf w 21 19) (wfs w 15 0) = .ok r1 → ScGoes s n w r (.scAddpi n w) (s, r1, none, 0, 0))
      ∧ ∀ e, r.update (wf w 21 19) (wfs w 15 0) = .error e → exec (.scAddpi n w) s = .next (s.scFault n e) :=
  ⟨fun r1 hu => scGoes_of_body rfl h rfl (by simp only [hu]; rfl) (by decide),
    fun e hu => scFaults_of_body rfl h rfl (by simp only [hu]; rfl)⟩

theorem scDone_goes (h : ScIssues s n 193 w r) : (scCost r w (s, r, some r.pc, 0, 0) ≤ (s.sc n).left →
      exec (.scDone n w) s = .next ((s.scIssued n w r (s, r, some r.pc, 0, 0)).scDone n))
    ∧ ((s.sc n).left < scCost r w (s, r, some r.pc, 0, 0) → exec (.scDone n w) s = .next (s.scStopped n w r (s, r, some r.pc, 0, 0))) := by
  have hrun : exec (.scDone n w) s = .next (scStep 193 none (fun _ s _ r => .ok (s, r, some r.pc, 0, 0)) n w s) := rfl
  rw [hrun, scStep_issued h none rfl]
  exact ⟨fun hc => congrArg Host.Outcome.next ((if_neg (by omega)).trans (if_pos rfl)), fun hc => congrArg Host.Outcome.next (if_pos hc)⟩

theorem scBr_goes (h : ScIssues s n 194 w r) : (scCond r (wf w 25 22) = false → ScGoes s n w r (.scBr n w) (s, r, none, 0, 0))
    ∧ (scCond r (wf w 25 22) = true → r.loops = [] → ScGoes s n w r (.scBr n w) (s, r, some (wf w 13 0), 2, 0))
    ∧ ∀ l rest, scCond r (wf w 25 22) = true → r.loops = l :: rest →
        (l.1 ≤ wf w 13 0 → wf w 13 0 ≤ l.2.1 → ScGoes s n w r (.scBr n w) (s, r, some (wf w 13 0), 2, 0))
        ∧ ((wf w 13 0 < l.1 ∨ l.2.1 < wf w 13 0) → exec (.scBr n w) s = .next (s.scFault n 6)) := by
  refine ⟨fun hc => scGoes_of_body rfl h rfl ?_ (by decide), fun hc hl => scGoes_of_body rfl h rfl ?_ (by decide),
    fun l rest hc hl => ⟨fun h1 h2 => scGoes_of_body rfl h rfl ?_ (by decide), fun h1 => scFaults_of_body rfl h rfl ?_⟩⟩
  · simp [hc, scRegsOnly]
  · simp [hc, hl]
  · simp [hc, hl, h1, h2]
  · have hout : ¬ (l.1 ≤ wf w 13 0 ∧ wf w 13 0 ≤ l.2.1) := by omega
    simp [hc, hl, hout]

theorem scCall_goes (h : ScIssues s n 195 w r) : (8 ≤ r.stack.length → exec (.scCall n w) s = .next (s.scFault n 7))
    ∧ (r.stack.length < 8 → ScGoes s n w r (.scCall n w) (s, { r with stack := (r.pc + 1) % 16384 :: r.stack }, some (wf w 13 0), 2, 0)) :=
  ⟨fun hl => scFaults_of_body rfl h rfl (if_pos hl), fun hl => scGoes_of_body rfl h rfl (if_neg (by omega)) (by decide)⟩

theorem scRet_goes (h : ScIssues s n 196 w r) : (r.stack = [] → exec (.scRet n w) s = .next (s.scFault n 7))
    ∧ ∀ i rest, r.stack = i :: rest → ScGoes s n w r (.scRet n w) (s, { r with stack := rest }, some i, 2, 0) :=
  ⟨fun hl => scFaults_of_body rfl h rfl (by simp only [hl]), fun i rest hl => scGoes_of_body rfl h rfl (by simp only [hl]) (by decide)⟩

/-- The answers of `scPush`, for the instruction whose body it is. -/
theorem scPush_goes {i : Instr} {k m c : Nat} {body : Word → State → Nat → ScRegs → ScOut}
    (hx : exec i s = .next (scStep k none body n w s)) (hb : body w s n r = scPush s r m c) (hk : k ≠ 193) (h : ScIssues s n k w r) :
    (c = 0 → ScGoes s n w r i (s, r, some ((r.pc + m + 1) % 16384), 0, 0))
      ∧ (c ≠ 0 → 4 ≤ r.loops.length → exec i s = .next (s.scFault n 5))
      ∧ (c ≠ 0 → r.loops.length < 4 → 16383 < r.pc + m → exec i s = .next (s.scFault n 6))
      ∧ (c ≠ 0 → r.loops.length < 4 → r.pc + m ≤ 16383 →
          ScGoes s n w r i (s, { r with loops := (r.pc + 1, r.pc + m, c) :: r.loops }, some (r.pc + 1), 0, 0)) :=
  ⟨fun hc => scGoes_of_body hx h rfl (hb.trans (if_pos hc)) hk,
    fun hc hl => scFaults_of_body hx h rfl (hb.trans ((if_neg hc).trans (if_pos hl))),
    fun hc hl hp => scFaults_of_body hx h rfl (hb.trans ((if_neg hc).trans ((if_neg (by omega)).trans (if_pos hp)))),
    fun hc hl hp => scGoes_of_body hx h rfl (hb.trans ((if_neg hc).trans ((if_neg (by omega)).trans (if_neg (by omega))))) hk⟩

theorem scWaitf_goes (h : ScIssues s n 200 w r) :
    ((s.cluster (n / 16)).flags.getLsbD (wf w 4 0) = true → ScGoes s n w r (.scWaitf n w) (s, r, none, 0, 0))
      ∧ ((s.cluster (n / 16)).flags.getLsbD (wf w 4 0) = false → ScGoes s n w r (.scWaitf n w) (s, r, some r.pc, 0, 0)) :=
  ⟨fun hf => scGoes_of_body rfl h rfl (if_pos hf) (by decide), fun hf => scGoes_of_body rfl h rfl (if_neg (by simp [hf])) (by decide)⟩

end

/-- Settles O56: every instruction is the shared step, and each clause is its body's answer on that branch. -/
theorem signalCores : Obligations.SignalCores := by
  unfold Obligations.SignalCores
  refine ⟨⟨fun n j s => ?jobs, scRegs_start, fun n s => ?limit⟩, fun n w s => ⟨?idle, fun r => ⟨?undefined, ?alu⟩⟩⟩
  case jobs =>
    have hrun : exec (.jobStart n j) s = .next (jobStart n j s) := rfl
    have hj := jobStart_eq n j s
    intro can
    exact ⟨fun h => hrun.trans (congrArg _ (hj.1 h)), fun h => hrun.trans (congrArg _ (hj.2 h))⟩
  case limit =>
    exact ⟨fun hj hl => congrArg Host.Outcome.next (if_pos ⟨hj, hl⟩), fun hj => congrArg Host.Outcome.next (if_neg (by simp [hj])),
      fun hl => congrArg Host.Outcome.next (if_neg fun h => hl h.2)⟩
  case idle =>
    intro hj i hi
    obtain ⟨k, sf, body, hx⟩ := scInstrs_step n w s i hi
    exact hx.trans (congrArg _ (scStep_idle hj))
  case undefined =>
    intro hj hn hl hw hk i hi
    obtain ⟨k, sf, body, hx⟩ := scInstrs_step n w s i hi
    exact hx.trans (congrArg _ (scStep_undefined hj hn hl hw hk))
  case alu =>
    intro goes seq faults a b k ac t alu accOp mac
    exact ⟨scAlu_goes rfl rfl (by decide), scAlu_goes rfl rfl (by decide), scAlu_goes rfl rfl (by decide), scAlu_goes rfl rfl (by decide),
      scAlu_goes rfl rfl (by decide), scAlu_goes rfl rfl (by decide), scAlu_goes rfl rfl (by decide), scAlu_goes rfl rfl (by decide),
      scAlu_goes rfl rfl (by decide), scAlu_goes rfl rfl (by decide), scAlu_goes rfl rfl (by decide), scAlu_goes rfl rfl (by decide),
      scAlu_goes rfl rfl (by decide), scAlu_goes rfl rfl (by decide), scAlu_goes rfl rfl (by decide), scAlu_goes rfl rfl (by decide),
      scAlu_goes rfl rfl (by decide), scAlu_goes rfl rfl (by decide), scAlu_goes rfl rfl (by decide), scAlu_goes rfl rfl (by decide),
      fun h => scGoes_of_body rfl h rfl rfl (by decide), scAlu_goes rfl rfl (by decide),
      scAccOp_goes rfl rfl (by decide), scAccOp_goes rfl rfl (by decide), scAccOp_goes rfl rfl (by decide), scAccOp_goes rfl rfl (by decide),
      scMac_goes rfl rfl (by decide), scMac_goes rfl rfl (by decide), scMac_goes rfl rfl (by decide), scMac_goes rfl rfl (by decide),
      scMac_goes rfl rfl (by decide), scMac_goes rfl rfl (by decide),
      fun h => scGoes_of_body rfl h rfl rfl (by decide), scSfFir_goes, scSfSearch_goes, scLd_goes, scSt_goes,
      fun h => scGoes_of_body rfl h rfl rfl (by decide), fun h => scGoes_of_body rfl h rfl rfl (by decide),
      fun h => scGoes_of_body rfl h rfl rfl (by decide), scAddpi_goes, fun h => scGoes_of_body rfl h rfl rfl (by decide),
      scDone_goes, scBr_goes, scCall_goes, scRet_goes,
      ⟨scPush_goes rfl rfl (by decide), scPush_goes rfl rfl (by decide)⟩,
      fun h l rest hl => scGoes_of_body rfl h rfl (by simp only [hl]) (by decide), scWaitf_goes,
      fun h => scGoes_of_body rfl h rfl rfl (by decide), fun h => scGoes_of_body rfl h rfl rfl (by decide)⟩

end Sys2Proof.Machine
end

section
/-! ### Items of the waveform, detection and coding engines -/
namespace Sys2Proof.Machine

/-! #### Items (R326, R327) -/

/-- What one item does, its four cases as separate facts. -/
theorem runItem_settles {s : State} {e lo hi : Nat} {h : DescHdr} {ok : Bool} {body : State → Except Nat (State × Nat)} {i : Instr}
    (hx : exec i s = .next (runItem e lo hi h ok body s)) :
    (s.engineReady e lo hi = false → exec i s = .next s)
      ∧ (s.engineReady e lo hi = true → (hdrOk h = false ∨ ok = false) → exec i s = .next (s.itemFault e h 3))
      ∧ (s.engineReady e lo hi = true → hdrOk h = true → ok = true → h.memError = true → exec i s = .next (s.itemFault e h 2))
      ∧ (s.engineReady e lo hi = true → hdrOk h = true → ok = true → h.memError = false →
          (∀ st, body s = .error st → exec i s = .next (s.itemFault e h st))
          ∧ ∀ t n, body s = .ok (t, n) → exec i s = .next (t.itemDone e h 1 n)) := by
  refine ⟨fun hr => hx.trans ?_, fun hr hb => hx.trans ?_, fun hr h1 h2 h3 => hx.trans ?_,
    fun hr h1 h2 h3 => ⟨fun st hb => hx.trans ?_, fun t n hb => hx.trans ?_⟩⟩ <;> refine congrArg Host.Outcome.next ?_ <;> unfold runItem
  · exact if_pos (by simp [hr])
  · exact (if_neg (by simp [hr])).trans (if_pos (by rcases hb with hb | hb <;> simp [hb]))
  all_goals refine (if_neg (by simp [hr])).trans ((if_neg (by simp [h1, h2])).trans ?_)
  · exact if_pos h3
  · exact (if_neg (by simp [h3])).trans (by rw [hb])
  · exact (if_neg (by simp [h3])).trans (by rw [hb])

/-- The completion flag of a finished item is set (R319). -/
theorem itemDone_flag {s : State} (hwf : NMap.wf Cluster.init s.clusters = true) (n : Nat) (h : DescHdr) (st x : Nat) :
    ((s.itemDone n h st x).cluster (h.flag / 32)).flags.getLsbD (h.flag % 32) = true := by
  have hget : (s.itemDone n h st x).cluster (h.flag / 32) = { s.cluster (h.flag / 32) with
      flags := (s.cluster (h.flag / 32)).flags ||| BitVec.ofNat 32 (2 ^ (h.flag % 32)) } := (NMap.get_set hwf _ _ _).trans (if_pos rfl)
  have hlt : h.flag % 32 < 32 := Nat.mod_lt _ (by decide)
  rw [hget]
  refine BitVec.getLsbD_or.trans ?_
  rw [BitVec.getLsbD_ofNat, Nat.testBit_two_pow_self, decide_eq_true hlt]
  simp

/-! #### Memory at an engine address -/

theorem engineRead_shared (s : State) (a n k o : Nat) (ha : engineShared a = some (k, o)) :
    (4194304 < o + n → engineRead s a n = .error 3)
      ∧ (o + n ≤ 4194304 → s.clusterOn k = false → engineRead s a n = .error 2)
      ∧ (o + n ≤ 4194304 → s.clusterOn k = true → engineRead s a n = .ok (Memory.readN (s.cluster k).shared o n)) := by
  unfold engineRead
  rw [ha]
  exact ⟨fun h => if_pos h, fun h hc => (if_neg (by omega)).trans (if_pos (by simp [hc])),
    fun h hc => (if_neg (by omega)).trans (if_neg (by simp [hc]))⟩

theorem engineRead_object (s : State) (a n : Nat) (ha : engineShared a = none) :
    (s.obj 0 (refHandle a) = none → engineRead s a n = .error 3)
      ∧ ∀ x, s.obj 0 (refHandle a) = some x →
          (x.size < refOff a + n → engineRead s a n = .error 3)
          ∧ (refOff a + n ≤ x.size → ((s.readRef 0 0 a 0 n).fail.isSome = true ∨ (s.readRef 0 0 a 0 n).poison = true) → engineRead s a n = .error 2)
          ∧ (refOff a + n ≤ x.size → (s.readRef 0 0 a 0 n).fail = none → (s.readRef 0 0 a 0 n).poison = false →
              engineRead s a n = .ok (s.readRef 0 0 a 0 n).bytes) := by
  unfold engineRead
  rw [ha]
  refine ⟨fun ho => by rw [ho], fun x ho => ?_⟩
  rw [ho]
  exact ⟨fun h => if_pos h, fun h hf => (if_neg (by omega)).trans (if_pos (by simpa using hf)),
    fun h hf hp => (if_neg (by omega)).trans (if_neg (by simp [hf, hp]))⟩

/-! #### Mapping, demapping, FFT -/

theorem mapBody_writes (s : State) (d : MapDesc) els bs t (hm : readMap d s = .ok els)
    (hi : engineRead s d.input (ceilDiv (els.foldl (fun a e => a + qmOf e.2.2.1) 0) 8) = .ok bs)
    (hp : putPoints d.output (mapPoints els (itemBits bs)) s = .ok t) : mapBody d s = .ok (t, els.length) := by
  unfold mapBody
  simp only [hm, hi, hp]
  rfl

theorem demapBody_writes (s : State) (d : MapDesc) els rs t u e (hm : readMap d s = .ok els) (hr : els.mapM (demapOne d s) = .ok rs)
    (htie : ∀ r ∈ rs, ∀ x ∈ r.2.2, x = r.2.2.headD 0) (he : e = rs.foldl (fun a r => a + r.2.2.headD 0) 0)
    (ho : engineWrite { s with free := s.free + 1 } d.output (rs.flatMap fun r => r.1.map fun v => BitVec.ofInt 8 v) = .ok t)
    (hs : engineWrite t d.evmSums (leBytes 8 (rs.foldl (fun a r => a + r.2.1) 0) ++ leBytes 8 e) = .ok u) :
    demapBody d s = .ok (u, els.length) := by
  have hfalse : (rs.any fun r => r.2.2.any (· ≠ r.2.2.headD 0)) = false :=
    List.any_eq_false.2 fun r hr' => by simpa [List.any_eq_false] using htie r hr'
  subst he
  unfold demapBody
  simp only [hm, hr, hfalse, Bool.false_eq_true, if_false, State.draw, ho, hs]
  rfl

theorem fftBody_writes (s : State) (d : FftDesc) bs t u :
    let per := if d.flags.testBit 0 then d.nsc else d.cp + fftSize d.size
    let ys := ((List.range d.symbols).map fun i => toSamples ((bs.drop (4 * per * i)).take (4 * per))).map (fftSymbol d)
    engineRead s d.input (4 * per * d.symbols) = .ok bs →
    engineWrite s d.output (ys.flatMap fun y => fromSamples y.1) = .ok t →
    engineWrite t d.exponents (ys.map fun y => BitVec.ofNat 8 y.2.1) = .ok u →
    fftBody d s = .ok ((u.bump (aWE 0x010) d.symbols).bump (aWE 0x018) (ys.foldl (fun a y => a + y.2.2) 0), ys.countP fun y => y.2.2 ≠ 0) := by
  intro per ys hr ho he
  simp only [per, ys] at hr ho he
  unfold fftBody
  simp only [hr, ho, he]
  rfl

/-! #### Coding -/

theorem ldpcEncodeBody_writes (s : State) (d : LdpcDesc) bs t :
    let k := if d.tbCrc then d.crcType else 0
    let n := d.k - d.filler - (crcPoly k).1
    let info := (itemBits bs).take n
    let sys := info ++ crcBits k info ++ List.replicate d.filler false
    let code := (sys ++ Config.ldpcParity d.bg d.z sys).drop (2 * d.z)
    engineRead s d.input (ceilDiv n 8) = .ok bs →
    engineWrite { s with free := s.free + 1 } d.output (bytesOfBits ((ratePlaces d).map fun p => code.getD p false)) = .ok t →
    ∃ x, x < 2 ^ 24 ∧ ldpcEncodeBody d s = .ok (t, x) := by
  intro k n info sys code hr hw
  refine ⟨s.draw.1.toNat % 2 ^ 24, Nat.mod_lt _ (by decide), ?_⟩
  have hbody : ldpcEncodeBody d s = match engineRead s d.input (ceilDiv n 8) with
    | .error e => .error e
    | .ok bs' => (engineWrite { s with free := s.free + 1 } d.output (bytesOfBits ((ratePlaces d).map fun p =>
        ((((itemBits bs').take n ++ crcBits k ((itemBits bs').take n) ++ List.replicate d.filler false) ++ Config.ldpcParity d.bg d.z
          ((itemBits bs').take n ++ crcBits k ((itemBits bs').take n) ++ List.replicate d.filler false)).drop (2 * d.z)).getD p false))).map
        fun s1 => (s1, s.draw.1.toNat % 2 ^ 24) := rfl
  rw [hbody, hr]
  exact congrArg (Except.map _) hw

theorem polarEncodeBody_writes (s : State) (d : PolarDesc) bs t :
    let info := (itemBits bs).take (d.k - d.crcBits)
    let out := Config.polarEncode (polarNums d) (info ++ crcBits (polarCrc d) (polarSpan d info))
    engineRead s d.input (ceilDiv (d.k - d.crcBits) 8) = .ok bs →
    engineWrite { s with free := s.free + 1 } d.output (bytesOfBits (out.take d.e)) = .ok t →
    ∃ x, x < 2 ^ 24 ∧ polarEncodeBody d s = .ok (t.bump (aWE 0x038) 1, x) := by
  intro info out hr hw
  refine ⟨s.draw.1.toNat % 2 ^ 24, Nat.mod_lt _ (by decide), ?_⟩
  unfold polarEncodeBody
  rw [hr]
  exact congrArg (Except.map _) hw

theorem polarDecodeBody_writes (s : State) (d : PolarDesc) bs t :
    let paths := Config.polarPaths (polarNums d ++ [d.list]) (bytesSigned bs)
    let good := bestPath (paths.filter fun p => crcOk (polarCrc d) (polarSpan d p.1))
    let out := (((good <|> bestPath paths).map Prod.fst).getD []).take (d.k - d.crcBits)
    let u := t.bump (aWE 0x038) 1
    engineRead s d.input d.e = .ok bs → engineWrite { s with free := s.free + 1 } d.output (bytesOfBits out) = .ok t →
    (good.isSome = true → polarDecodeBody d s = .ok (u, 0))
      ∧ (good = none → ∃ x, 0 < x ∧ x < 256 ∧ polarDecodeBody d s = .ok (u.bump (aWE 0x040) 1, x)) := by
  intro paths good out u hr hw
  have hbody : polarDecodeBody d s = .ok (if good.isSome then (u, 0) else (u.bump (aWE 0x040) 1, s.draw.1.toNat % 255 + 1)) := by
    simp only [out, good, paths] at hw
    unfold polarDecodeBody
    simp only [hr, State.draw, hw]
    rfl
  refine ⟨fun hg => hbody.trans (congrArg Except.ok (if_pos hg)), fun hg => ⟨s.draw.1.toNat % 255 + 1, by omega, by omega, ?_⟩⟩
  exact hbody.trans (congrArg Except.ok (if_neg (by simp [hg])))

theorem ldpcDecodeBody_writes (s : State) (d : LdpcDesc) bs hb t u :
    let new := dematch d (bytesSigned bs)
    let buf := (List.range d.ncb).map fun p => sat7 (NMap.get 0 new p + (bytesSigned hb).getD p 0)
    let put (m : NMap Int) (p : Nat) (v : Int) : NMap Int := NMap.set 0 m (2 * d.z + p) v
    let l0 := (List.range d.ncb).foldl (fun m p => put m p (buf.getD p 0)) []
    let l1 := (List.range d.filler).foldl (fun m i => put m (d.k - d.filler - 2 * d.z + i) 127) l0
    let r := decodeLoop d d.maxIter (l1, []) 0
    let info := (List.range (d.k - d.filler)).map (hardBit r.1)
    let v := (u.bump (aWE 0x020) 1).bump (aWE 0x028) r.2.1
    engineRead s d.input d.e = .ok bs →
    (d.combine = true → engineRead s d.harq d.ncb = .ok hb) → (d.combine = false → hb = []) →
    (d.writeback = true → engineWrite s d.harq (buf.map fun v => BitVec.ofInt 8 v) = .ok t) → (d.writeback = false → t = s) →
    engineWrite t d.output (bytesOfBits info) = .ok u →
    ((r.2.2 && crcOk d.crcType info) = true → ldpcDecodeBody d s = .ok (v, r.2.1 + 128))
      ∧ ((r.2.2 && crcOk d.crcType info) = false → ldpcDecodeBody d s = .ok (v.bump (aWE 0x030) 1, r.2.1)) := by
  intro new buf put l0 l1 r info v hr hc hc' hw hw' ho
  have hold : (if d.combine then engineRead s d.harq d.ncb else .ok []) = .ok hb := by
    cases h : d.combine with
    | true => exact hc h
    | false => exact congrArg Except.ok (hc' h).symm
  have hback : (if d.writeback then engineWrite s d.harq (buf.map fun v => BitVec.ofInt 8 v) else .ok s) = .ok t := by
    cases h : d.writeback with
    | true => exact hw h
    | false => exact congrArg Except.ok (hw' h).symm
  have hbody : ldpcDecodeBody d s = .ok (if r.2.2 && crcOk d.crcType info then v else v.bump (aWE 0x030) 1,
      r.2.1 + 128 * b2n (r.2.2 && crcOk d.crcType info)) := by
    simp only [buf, new] at hback
    simp only [info, r, l1, l0, put, buf, new] at ho
    unfold ldpcDecodeBody
    simp only [hr, hold, hback, ho]
    rfl
  rw [hbody]
  exact ⟨fun hp => by simp [hp, b2n], fun hp => by simp [hp, b2n]⟩

/-! #### One parity check (R334) -/

theorem leastOf_spec {l : List Nat} (h : l ≠ []) : leastOf l ∈ l ∧ ∀ x ∈ l, leastOf l ≤ x := by
  cases l with
  | nil => exact absurd rfl h
  | cons y l => exact List.min?_eq_some_iff.1 List.min?_cons'

/-- An element no greater than any other is the least. -/
theorem leastOf_eq {l : List Nat} {v : Nat} (hv : v ∈ l) (hle : ∀ x ∈ l, v ≤ x) : leastOf l = v :=
  let hl := leastOf_spec (List.ne_nil_of_mem hv)
  Nat.le_antisymm (hl.2 v hv) (hle _ hl.1)

/-- Place of the least magnitude among the inputs of a check, the first of equals. -/
def leastPlace (ms : List Nat) : Nat := (ms.findIdx? (· = leastOf ms)).getD 0

/-- Magnitudes of the inputs of a check other than the one at `i`. -/
def othersOf (ms : List Nat) (i : Nat) : List Nat := ((List.range ms.length).filter (· ≠ i)).map (ms.getD · 0)

theorem leastPlace_spec {ms : List Nat} (h : ms ≠ []) : leastPlace ms < ms.length ∧ ms.getD (leastPlace ms) 0 = leastOf ms := by
  have hsome : (ms.findIdx? (· = leastOf ms)).isSome = true := by
    rw [List.findIdx?_isSome, List.any_eq_true]
    exact ⟨_, (leastOf_spec h).1, decide_eq_true rfl⟩
  obtain ⟨k, hk⟩ := Option.isSome_iff_exists.1 hsome
  obtain ⟨hlt, heq, -⟩ := List.findIdx?_eq_some_iff_getElem.1 hk
  have hplace : leastPlace ms = k := by unfold leastPlace; rw [hk]; rfl
  rw [hplace]
  exact ⟨hlt, (List.getD_eq_getElem ms 0 hlt).trans (of_decide_eq_true heq)⟩

/-- The list the model filters at the least place is the others of that place. -/
theorem filterMap_eq_others (ms : List Nat) (i : Nat) :
    ((List.range ms.length).filterMap fun j => if j = i then none else ms[j]?) = othersOf ms i := by
  have hall : ∀ l : List Nat, (∀ j ∈ l, j < ms.length) →
      (l.filterMap fun j => if j = i then none else ms[j]?) = (l.filter (· ≠ i)).map (ms.getD · 0) := by
    intro l
    induction l with
    | nil => exact fun _ => rfl
    | cons j l ih =>
      intro hl
      have hj : j < ms.length := hl j List.mem_cons_self
      have ih := ih fun k hk => hl k (List.mem_cons_of_mem j hk)
      by_cases hji : j = i
      · simpa [hji] using ih
      · simpa [hji, hj] using ih
  exact hall _ fun j hj => List.mem_range.1 hj

/-- The least of the others is the least of all, but at the least place itself. -/
theorem leastOf_others {ms : List Nat} {i : Nat} (h : ms ≠ []) (hi : i ≠ leastPlace ms) : leastOf (othersOf ms i) = leastOf ms := by
  obtain ⟨hlt, heq⟩ := leastPlace_spec h
  refine leastOf_eq (List.mem_map.2 ⟨leastPlace ms, by simpa [hlt] using Ne.symm hi, heq⟩) fun x hx => ?_
  obtain ⟨j, hj, rfl⟩ := List.mem_map.1 hx
  have hjlt : j < ms.length := List.mem_range.1 (List.mem_filter.1 hj).1
  rw [List.getD_eq_getElem ms 0 hjlt]
  exact (leastOf_spec h).2 _ (List.getElem_mem hjlt)

theorem checkNode_getD (q : List Int) {i : Nat} (hi : i < q.length) :
    let ms := q.map fun v => min v.natAbs 127
    let sgn (v : Int) : Int := if v < 0 then -1 else 1
    (checkNode q).getD i 0 = sgn (q.getD i 0) * q.foldl (fun a v => a * sgn v) 1 * ((leastOf (othersOf ms i) - 1 : Nat) : Int) := by
  intro ms sgn
  have hne : ms ≠ [] := List.ne_nil_of_length_pos (by simp only [ms, List.length_map]; omega)
  have hmag : (if i = leastPlace ms then leastOf ((List.range ms.length).filterMap fun j => if j = leastPlace ms then none else ms[j]?)
      else leastOf ms) = leastOf (othersOf ms i) := by
    split
    case isTrue h => rw [filterMap_eq_others, h]
    case isFalse h => exact (leastOf_others hne h).symm
  rw [← hmag]
  simp [checkNode, hi, List.getD_eq_getElem?_getD, ms, sgn, leastPlace]

/-- The clause's own words: signs and magnitudes by place. -/
theorem checkNode_spec (q : List Int) (i : Nat) (hi : i < q.length) :
    let mag (j : Nat) : Nat := min (q.getD j 0).natAbs 127
    let sgn (j : Nat) : Int := if q.getD j 0 < 0 then -1 else 1
    (checkNode q).length = q.length
      ∧ (checkNode q).getD i 0 = sgn i * ((List.range q.length).map sgn).foldl (· * ·) 1
          * ((leastOf (((List.range q.length).filter (· ≠ i)).map mag) - 1 : Nat) : Int) := by
  intro mag sgn
  have hq : (List.range q.length).map (q.getD · 0) = q := List.ext_getElem (by simp) fun j h1 h2 => by simp [h2]
  have hsgn : ((List.range q.length).map sgn).foldl (· * ·) 1 = q.foldl (fun a v => a * (if v < 0 then -1 else 1)) 1 := by
    conv_rhs => rw [← hq, List.foldl_map]
    rw [List.foldl_map]
  have hmag : ((List.range q.length).filter (· ≠ i)).map mag = othersOf (q.map fun v => min v.natAbs 127) i := by
    unfold othersOf
    rw [List.length_map]
    exact List.map_congr_left fun j _ => (List.getD_map q 0 fun v : Int => min v.natAbs 127).symm
  rw [hsgn, hmag]
  exact ⟨by simp [checkNode], checkNode_getD q hi⟩

/-! #### PRACH (R338, R339) -/

theorem prachBody_tells (s : State) (d : PrachDesc) bs (hr : engineRead s d.input (4 * d.lra * d.antennas * d.repetitions) = .ok bs) :
    let found := if s.slotUnheard d.hdr then [] else prachDetect d bs
    let item (f : Nat × Nat × Nat × Nat × Nat) : List Nat := [d.hdr.cell, d.hdr.sfn, d.hdr.slot, f.1, timingAdvance d f.2.1,
      (BitVec.ofInt 32 (Config.deciBel f.2.2.1 1)).toNat, (BitVec.ofInt 32 (Config.deciBel (f.2.2.1 * f.2.2.2.2) f.2.2.2.1)).toNat]
    let told (u : State) : Prop := ∃ x, x < 2 ^ 24 ∧ prachBody d s = .ok (({ u with free := u.free + 1 }.bump (aWE 0x048) 1).bump (aWE 0x050)
      found.length, x)
    (∀ x, s.cell d.hdr.cell = some x → told (s.setCell d.hdr.cell (some { x with rach := x.rach ++ found.map item })))
      ∧ (s.cell d.hdr.cell = none → told s) := by
  intro found item told
  refine ⟨fun x hx => ⟨(s.setCell d.hdr.cell (some { x with rach := x.rach ++ found.map item })).draw.1.toNat % 2 ^ 24,
    Nat.mod_lt _ (by decide), ?_⟩, fun hx => ⟨s.draw.1.toNat % 2 ^ 24, Nat.mod_lt _ (by decide), ?_⟩⟩ <;>
  · unfold prachBody
    rw [hr, hx]
    rfl

/-- Settles O57: the shared item's cases, then what each body writes. -/
theorem engines : Obligations.Engines := by
  unfold Obligations.Engines
  exact ⟨fun s e => ⟨fun d => runItem_settles rfl, fun d => ⟨runItem_settles rfl, runItem_settles rfl⟩,
      fun d => ⟨runItem_settles rfl, runItem_settles rfl⟩, fun d => ⟨runItem_settles rfl, runItem_settles rfl⟩, fun d => runItem_settles rfl⟩,
    engineRead_shared, engineRead_object, mapBody_writes, demapBody_writes, ldpcEncodeBody_writes, polarEncodeBody_writes,
    polarDecodeBody_writes, prachBody_tells, fftBody_writes, ldpcDecodeBody_writes, checkNode_spec, fun _ _ _ _ => rfl,
    fun h s n st x => ⟨rfl, fun hwf => itemDone_flag hwf n h st x⟩⟩

end Sys2Proof.Machine
end

section
/-! ### Reliability: the error log, scrubbing, injection, the quarantine record and the watchdogs -/
namespace Sys2Proof.Machine

/-! #### The error log (R402) -/

theorem elRecords_length_le (s : State) (c : Cmd) : (elRecords s c).length ≤ c.p 8 2 := by
  simp [elRecords]

/-- A record that is returned is one that was wanted; a virtual function sees its own, without island and domain. -/
theorem elRecords_wanted (s : State) (c : Cmd) {r : LogRec} (hr : r ∈ elRecords s c) :
    elFirst s c ≤ r.seq ∧ (c.entry = .vf → r.tenant = c.tenant ∧ r.island = 0 ∧ r.domain = 0) := by
  obtain ⟨q, hq, rfl⟩ := List.mem_map.1 hr
  have hown := (List.mem_filter.1 (List.mem_of_mem_take hq)).2
  rw [Bool.and_eq_true, decide_eq_true_eq] at hown
  obtain ⟨hseq, hvf⟩ := hown
  split
  case isTrue he => exact ⟨hseq, fun _ => ⟨show q.tenant = c.tenant by simpa [he] using hvf, rfl, rfl⟩⟩
  case isFalse he => exact ⟨hseq, fun h => absurd h he⟩

theorem logBytes_fields (r : LogRec) :
    (logBytes r).length = 64 ∧ fieldAt (logBytes r) 0 8 = r.seq % 2 ^ 64 ∧ fieldAt (logBytes r) 16 1 = r.cls % 256 := by
  simp only [logBytes, List.append_assoc]
  refine ⟨by simp, fieldAt_leBytes_front .., ?_⟩
  rw [fieldAt_leBytes_skip _ _ (by decide), fieldAt_leBytes_skip _ _ (by decide)]
  exact fieldAt_leBytes_front ..

theorem quarantineRecord_length (s : State) : s.quarantineRecord.length = 64 := by
  simp [State.quarantineRecord]

/-! #### SCRUB and INJECT -/

/-- The answer SCRUB gives: controllers failed, controllers present, errors met of each kind. -/
def scrubAnswer (s : State) (dies : Nat) : List Byte :=
  leBytes 4 ((scrubFailed s dies).foldl (fun m i => m + 2 ^ i) 0) ++ leBytes 2 (if s.variant.west then 32 else 16) ++ leBytes 2 0
    ++ leBytes 4 ((scrubLines s dies).countP fun e => e.2.2.2 = 1) ++ leBytes 4 ((scrubLines s dies).countP fun e => e.2.2.2 = 2)

/-- The state once SCRUB has read its lines. -/
def scrubbed (s : State) (dies : Nat) : State := (scrubLines s dies).foldl (fun s e => patrolScrub e.1 e.2.1 e.2.2.1 .clean s) s

/-- SCRUB's three ends: nothing failed, part of it failed, all of it failed. -/
theorem runScrub_ends (s : State) (c : Cmd) :
    (scrubFailed s (scrubDies s c) = [] → runScrub s c = (scrubbed s (scrubDies s c)).ok c.id (scrubAnswer s (scrubDies s c)))
      ∧ (scrubFailed s (scrubDies s c) ≠ [] → (scrubFailed s (scrubDies s c)).length < 16 * popCount 2 (scrubDies s c) →
          runScrub s c = (scrubbed s (scrubDies s c)).finish c.id stPartial (scrubAnswer s (scrubDies s c)))
      ∧ (scrubFailed s (scrubDies s c) ≠ [] → 16 * popCount 2 (scrubDies s c) ≤ (scrubFailed s (scrubDies s c)).length → ∃ st, st < 65536 ∧
          runScrub s c = { scrubbed s (scrubDies s c) with free := (scrubbed s (scrubDies s c)).free + 1 }.finish c.id st
            (scrubAnswer s (scrubDies s c))) :=
  ⟨fun h => if_pos (List.isEmpty_iff.2 h), fun h hl => (if_neg (by simpa using h)).trans (if_pos hl),
    fun h hl => ⟨(scrubbed s (scrubDies s c)).draw.1.toNat % 65536, Nat.mod_lt _ (by decide),
      (if_neg (by simpa using h)).trans (if_neg (by omega))⟩⟩

/-- INJECT arms the fault of its kind. -/
theorem runInject_arms (s : State) (c : Cmd) :
    let k := c.p 2 2
    let n := c.p 1 1
    let x := s.core k
    let key := c.p 4 1 * 2 ^ 64 + refHandle (c.p 8 8) * 2 ^ 34 + refOff (c.p 8 8) / 64
    (c.p 0 1 = 1 → runInject s c = (s.setCore k { x with scratchErr := NMap.set 0 x.scratchErr (c.p 8 8) 1 }).ok c.id [])
      ∧ (c.p 0 1 = 2 → runInject s c = (s.setCore k { x with scratchErr := NMap.set 0 x.scratchErr (c.p 8 8) 2 }).ok c.id [])
      ∧ (c.p 0 1 = 3 → runInject s c = { s with rel := { s.rel with dram := NMap.set 0 s.rel.dram key 1 } }.ok c.id [])
      ∧ (c.p 0 1 = 4 → runInject s c = { s with rel := { s.rel with dram := NMap.set 0 s.rel.dram key 2 } }.ok c.id [])
      ∧ (c.p 0 1 = 5 → runInject s c = (s.setCore k { x with inject := (n, x.inject.2) }).ok c.id [])
      ∧ (c.p 0 1 = 6 → runInject s c = (s.setCore k { x with inject := (x.inject.1, n, x.inject.2.2) }).ok c.id [])
      ∧ (c.p 0 1 = 7 → runInject s c = (s.setCore k { x with inject := (x.inject.1, x.inject.2.1, n) }).ok c.id [])
      ∧ (c.p 0 1 = 8 → runInject s c = { s with rel := { s.rel with wfPoison := NMap.set 0 s.rel.wfPoison k n } }.ok c.id [])
      ∧ (c.p 0 1 = 9 → runInject s c = { s with rel := { s.rel with pciePoison := n } }.ok c.id []) := by
  intro k n x key
  refine ⟨?_, ?_, ?_, ?_, ?_, ?_, ?_, ?_, ?_⟩ <;>
  · intro h
    unfold runInject inKind
    simp only [h]
    rfl

/-! #### Watchdogs (R18, R407, R408) -/

theorem clerkWatchdog_restarts (d : Nat) (s : State) :
    let acts := s.stewardRuns = true ∧ s.variant.domainPresent d = true ∧ s.pw.on.testBit d = true ∧ NMap.get none s.rel.clerkDown d = none
    (acts → exec (.clerkWatchdog d) s = .next ({ s with rel := { s.rel with clerkDown := NMap.set none s.rel.clerkDown d (some ([], [])) } }.logRecord
        { LogRec.none_ with cls := 9, outcome := 0, island := 221, domain := d }))
      ∧ (¬ acts → exec (.clerkWatchdog d) s = .next s) := by
  intro acts
  have hacts : (s.stewardRuns && s.variant.domainPresent d && s.pw.on.testBit d && (NMap.get none s.rel.clerkDown d).isNone) = true ↔ acts := by
    simp only [acts, Bool.and_eq_true, and_assoc, Option.isNone_iff_eq_none]
  exact ⟨fun h => congrArg Host.Outcome.next (if_pos (hacts.2 h)), fun h => congrArg Host.Outcome.next (if_neg fun h' => h (hacts.1 h'))⟩

theorem controlCoreWatchdog_restarts (k : Nat) (s : State) :
    (s.stewardRuns = true → s.clusterOn k = true → exec (.controlCoreWatchdog k) s = .next ((s.completeOwned (4 + k)).logRecord
        { LogRec.none_ with cls := 6, outcome := 0, island := 176 + k, domain := clusterDomain k, flags := 2, detail := k }))
      ∧ ((s.stewardRuns = false ∨ s.clusterOn k = false) → exec (.controlCoreWatchdog k) s = .next s) :=
  ⟨fun h1 h2 => congrArg Host.Outcome.next (if_pos (by rw [h1, h2]; rfl)),
    fun h => congrArg Host.Outcome.next (if_neg (by rcases h with h | h <;> simp [h]))⟩

theorem stewardWatchdog_restarts (k : Nat) (s : State) :
    let u := (s.completeOwned k).logRecord { LogRec.none_ with cls := 9, outcome := 0, island := 219 + k / 2, domain := 18 }
    ((4 ≤ k ∨ s.stewardRuns = false) → exec (.stewardWatchdog k) s = .next s)
      ∧ (k < 4 → s.stewardRuns = true → s.interpreted k = none → exec (.stewardWatchdog k) s = .next u)
      ∧ (∀ c, k < 4 → s.stewardRuns = true → s.interpreted k = some c → c.opcode = 0x0001 →
          exec (.stewardWatchdog k) s = .next (u.ok c.id c.result))
      ∧ ∀ c, k < 4 → s.stewardRuns = true → s.interpreted k = some c → c.opcode ≠ 0x0001 →
          exec (.stewardWatchdog k) s = .next (u.finish c.id stNoResources [0x0F]) := by
  intro u
  have hrun : exec (.stewardWatchdog k) s = .next (stewardWatchdog k s) := rfl
  rw [hrun]
  have hact (hk : k < 4) (hs : s.stewardRuns = true) : stewardWatchdog k s = match s.interpreted k with
      | some c => if c.opcode = 0x0001 then u.ok c.id c.result else u.finish c.id stNoResources [0x0F]
      | none => u := (if_pos (by simp [hk, hs])).trans rfl
  refine ⟨fun h => congrArg Host.Outcome.next (if_neg ?_), fun hk hs hn => ?_, fun c hk hs hc ho => ?_, fun c hk hs hc ho => ?_⟩
  · rcases h with h | h
    · simp [Nat.not_lt.2 h]
    · simp [h]
  · rw [hact hk hs, hn]
  · rw [hact hk hs, hc]
    exact congrArg Host.Outcome.next (if_pos ho)
  · rw [hact hk hs, hc]
    exact congrArg Host.Outcome.next (if_neg ho)

/-- Settles O58: each command runs its effect once its checks pass, and each watchdog acts under its own condition. -/
theorem reliability : Obligations.Reliability := by
  unfold Obligations.Reliability
  refine ⟨fun s id c h hc => congrArg Host.Outcome.next (runCoreless_runs h hc),
    fun s c => ⟨elRecords_length_le s c, fun r hr => elRecords_wanted s c hr⟩, logBytes_fields,
    fun s id c h hc => congrArg Host.Outcome.next (runCoreless_runs h hc), fun s id c h hc => ?scrub, fun s id c h hc => ?inject,
    fun s id c h hc => congrArg Host.Outcome.next (runCoreless_runs h hc), fun s c => ⟨rfl, quarantineRecord_length s⟩,
    clerkWatchdog_restarts, controlCoreWatchdog_restarts, stewardWatchdog_restarts⟩
  case scrub =>
    have hrun : exec (.opScrub id) s = .next (runScrub (Begun s c) (begun s c)) := congrArg Host.Outcome.next (runCoreless_runs h hc)
    rw [hrun]
    obtain ⟨whole, part, lost⟩ := runScrub_ends (Begun s c) (begun s c)
    refine ⟨fun hb => congrArg Host.Outcome.next (whole hb), fun hb hl => congrArg Host.Outcome.next (part hb hl), fun hb hl => ?_⟩
    obtain ⟨st, hst, hend⟩ := lost hb hl
    exact ⟨st, hst, congrArg Host.Outcome.next hend⟩
  case inject =>
    have hrun : exec (.opInject id) s = .next (runInject (Begun s c) (begun s c)) := congrArg Host.Outcome.next (runCoreless_runs h hc)
    intro b k n x key gives
    simp only [gives, hrun, Host.Outcome.next.injEq]
    exact runInject_arms (Begun s c) (begun s c)

end Sys2Proof.Machine
end
